-- ==== Sys2Proof/Word.lean ====
section
/-! DEFINITION. The word types of the FK1024 model and their plainest arithmetic. -/

namespace Sys2Proof

/-- One byte of memory or of a register page. -/
abbrev Byte := BitVec 8
/-- A 16-bit value: an instruction halfword, an epoch, a tag. -/
abbrev Half := BitVec 16
/-- A 32-bit page-bus word (R30). -/
abbrev Word := BitVec 32
/-- A 24-bit tenant address (R85). -/
abbrev Addr := BitVec 24

/-- Byte `i` of a bit vector, byte 0 the least significant (R4). -/
def byteOf {n : Nat} (v : BitVec n) (i : Nat) : Byte := v.extractLsb' (8 * i) 8

/-- The low `n` bytes of a value, least significant first (R4). -/
def leBytes {w : Nat} (n : Nat) (v : BitVec w) : List Byte := (List.range n).map (byteOf v)

/-- The value of a list of bytes, least significant first (R4). -/
def leNat : List Byte → Nat
  | [] => 0
  | b :: bs => b.toNat + 256 * leNat bs

/-- The value of a list of bytes, most significant first (RSP's own order, R187). -/
def beBytes {w : Nat} (n : Nat) (v : BitVec w) : List Byte := (leBytes n v).reverse

/-- `ceil (a / b)` on naturals; the spec uses it only with a positive divisor. -/
def ceilDiv (a b : Nat) : Nat := (a + b - 1) / b

end Sys2Proof
end

