-- ==== Sys2Proof/Syntax.lean ====
section
/-! DEFINITION. The commands of the FK1024 block: one constructor of `Instr` per row of
spec/opcode_table.json, with the operands that the spec's text gives the step. The table gives no
row any bits. Rows that arrive as gate messages carry the message header; rows that are page-bus
writes carry the source, the byte mask and the data; rows of a tenant's own CPU carry the tenant,
the condition and the instruction's operands; a choice that the spec leaves to the supervisor or to
the outside is an operand (`pick`, a level, a count). -/

namespace Sys2Proof

/-- Tenant number T0000 to T1023 (R15). -/
abbrev Tn := Fin 1024
/-- Engine number BE00 to BE71. -/
abbrev Eng := Fin 72
/-- Sector number SC0 to SC7. -/
abbrev Sec := Fin 8
/-- Field port F00 to F15. -/
abbrev PortNo := Fin 16
/-- Station entry ST0000 to ST2047. -/
abbrev Ent := Fin 2048

/-- The two host masters (R41). -/
inductive HostId where
  | a | b
deriving DecidableEq, Repr

/-- The page-bus masters (R41, R43): the two hosts and the active supervisor. -/
inductive Master where
  | hostA | hostB | sup
deriving DecidableEq, Repr

/-- A UDP address (R348): IPv6 or IPv4, the address (IPv4 in the low 32 bits), the port. -/
structure NetAddr where
  v6   : Bool
  ip   : BitVec 128
  port : Half
deriving DecidableEq, Repr

/-- How an access of HOST-A comes over PCIe (R346): alone, as the first double word of a BAR0 TLP with more, each with its
byte enables and its data, or as a TLP to BAR2. -/
inductive Tlp where
  | one
  | more (rest : List (BitVec 4 × Word))
  | bar2
deriving DecidableEq, Repr

/-- The header of an inbound gate message (R341), the gate cycle in which the field side applies it
(R340), how it comes over PCIe, and, for HOST-B, the datagram's SEQ and TAG, its source and the port that it names
(R348). `len` is the LENGTH field. TYPE is that of the row, but for a TYPE that R341 does not define, `type`; CMD of a
TENANT_CMD is that of the row, but for a reserved CMD, `cmd`. -/
structure Msg where
  host   : HostId
  gc     : Nat
  tlp    : Tlp
  type   : Option Byte
  cmd    : Option Byte
  flags  : Byte
  tag    : Half
  tenant : Half
  epoch  : Half
  len    : Half
  seq    : BitVec 64
  auth   : BitVec 128
  src    : NetAddr
  dport  : Half
deriving DecidableEq, Repr

/-- Who puts an access on the page bus: a host's gate message, or the active supervisor (R41). -/
inductive BusSrc where
  | gate (m : Msg)
  | sup (gc : Nat)
deriving DecidableEq, Repr

/-- The arguments of TENANT_CMD LOAD (R341). Entries are station entry numbers, 0xFFFF for none. -/
structure LoadArgs where
  imageBase : Half
  imageLen  : Word
  geom      : Word
  cyc       : Word
  pace      : Word
  e0 : Half
  e1 : Half
  e2 : Half
  e3 : Half
deriving DecidableEq, Repr

/-- The paths with credits (R17), one constructor per row of the table "Credit paths". `ring` is
false for ring A and true for ring B. HBM read data goes to the requester at a stop of a sector's rings, `flits` long. -/
inductive Path where
  | engRing (e : Eng) (ring : Bool)
  | ringStop (s : Sec) (ring : Bool) (stop : Nat) (resp : Bool)
  | gateway (s : Sec) (ring : Bool)
  | spineHbm (s : Sec) (ring : Bool)
  | hbmRead (s : Sec) (stop : Nat) (flits : Nat)
  | trailLaunch (e : Eng)
  | blitWrite (e : Eng)
  | dmaBurst (e : Eng) (ch : Nat)
  | mirror (src dst : Eng)
  | handoff (e : Eng)
  | audio (e : Eng)
  | pushItem (s : Sec)
  | egress (p : PortNo)
  | ingress (p : PortNo)
  | gateLink (link : Fin 2) (toField : Bool)
deriving DecidableEq, Repr

/-- The sixteen conditions of R112, in code order; `nc` is the condition the spec names CC (C = 0). -/
inductive Cond where
  | al | eq | ne | cs | nc | mi | pl | vb | vs | vc | hi | ls | ge | lt | hb | nb
deriving DecidableEq, Repr

/-- Immediate forms that exist in both widths (R113, R114): the short form acts on g0. -/
inductive ImmForm where
  | short
  | long (gd : Fin 8)
deriving DecidableEq, Repr

/-- Pointer operand of LD, ST, LDW and STW (R118): `[pk]` or `[pk]+` in the short form, `[pk+s14]`
in the long form. -/
inductive PtrForm where
  | short (pk : Fin 4) (postInc : Bool)
  | long (pk : Fin 4) (s14 : BitVec 14)
deriving DecidableEq, Repr

/-- Target of CALL (R118). -/
inductive CallForm where
  | rel8 (s : BitVec 8)
  | rel20 (s : BitVec 20)
  | ptr (pk : Fin 4)
deriving DecidableEq, Repr

/-- Operand of MOVP (R114): p0 to p3 or sp. -/
inductive PSel where
  | p (k : Fin 4)
  | sp
deriving DecidableEq, Repr

/-- The addressing header of a received RSP message (R187, R196): the arrival port, the frame's
source MAC and VLAN (0 untagged), and the header fields. -/
structure Rx where
  port    : PortNo
  mac     : BitVec 48
  vid     : BitVec 12
  ver     : BitVec 4
  station : Half
  tenant  : Half
  epoch   : Half
  seq     : Word
deriving DecidableEq, Repr

/-- Why a received frame is dropped (R188, R201): it fails its FCS check, it is longer than a frame may be, it is neither
RSP nor PTP, or it is an RSP message of a type that the module does not accept or with a payload that does not match. -/
inductive RxBad where
  | fcs | long | foreign | badRsp
deriving DecidableEq, Repr

/-- A timer whose prescaler ticks (R311): a tenant timer or a module timer. -/
inductive TimerId where
  | tenant (t : Tn) (k : Fin 4)
  | module (i : Fin 8)
deriving DecidableEq, Repr

/-- A unit that MOD.READMIT can name (R293). -/
inductive UnitId where
  | engine (e : Eng)
  | ring (s : Sec) (b : Bool)
deriving DecidableEq, Repr

/-- Where an uncorrectable word lies (R258, table "Uncorrectable bank errors") is computed from its
engine-local address; this says only what the read found. -/
inductive EccResult where
  | clean | corrected | uncorrectable
deriving DecidableEq, Repr

/-- The commands, in the order of spec/opcode_table.json. -/
inductive Instr where
  -- register pages and credits
  | configWrite (src : BusSrc) (addr : Word) (mask : BitVec 4) (data : Word)
  | configRead (src : BusSrc) (addr : Word)
  | rcCounterRead (src : BusSrc) (addr : Word) (inc : Bool)
  | latchedRead (src : BusSrc) (addr : Word)
  | ownerWrite (src : BusSrc) (page : Word) (mask : BitVec 4) (data : Word)
  | expertKey (src : BusSrc) (page : Word) (mask : BitVec 4) (data : Word)
  | expertSet (src : BusSrc) (page : Word) (mask : BitVec 4) (data : Word)
  | heldAccessApply (t : Tn)
  | flitSend (p : Path) (ready : List Nat)
  | creditReturn (p : Path)
  | tbCommit (src : BusSrc) (n : Fin 4) (mask : BitVec 4) (data : Word)
  | tbLineStart (n : Fin 4) (at_ : Nat)
  -- tenant commands and tenant time
  | load (m : Msg) (a : LoadArgs) (pick : Nat)
  | start (m : Msg) (at_ : Nat)
  | hold (m : Msg)
  | resume (m : Msg) (at_ : Nat)
  | reset (m : Msg)
  | resetDone (t : Tn)
  | park (m : Msg)
  | unpark (m : Msg) (at_ : Nat)
  | move (m : Msg) (slot : Half) (pick : Nat)
  | mail (m : Msg) (len : Byte) (data : List Byte)
  | tenantLineStart (t : Tn) (at_ : Nat)
  | tenantFrameStart (t : Tn) (at_ : Nat)
  | paceRelease (t : Tn) (at_ : Nat)
  -- Zetik-8: system group
  | nop (t : Tn) (cc : Cond)
  | wait (t : Tn) (cc : Cond)
  | waitWake (t : Tn)
  | fence (t : Tn) (cc : Cond)
  | fenceEnd (t : Tn)
  | ret (t : Tn) (cc : Cond)
  | rtt (t : Tn) (cc : Cond)
  | ei (t : Tn) (cc : Cond)
  | di (t : Tn) (cc : Cond)
  | dajA (t : Tn) (cc : Cond)
  | dajS (t : Tn) (cc : Cond)
  | pushf (t : Tn) (cc : Cond)
  | popf (t : Tn) (cc : Cond)
  | clc (t : Tn) (cc : Cond)
  | sec (t : Tn) (cc : Cond)
  | cmc (t : Tn) (cc : Cond)
  -- Zetik-8: register moves, arithmetic and logic
  | mov (t : Tn) (cc : Cond) (gd gs : Fin 8)
  | movw (t : Tn) (cc : Cond) (wd ws : Fin 4)
  | exg (t : Tn) (cc : Cond) (gd gs : Fin 8)
  | add (t : Tn) (cc : Cond) (gd gs : Fin 8)
  | adc (t : Tn) (cc : Cond) (gd gs : Fin 8)
  | sub (t : Tn) (cc : Cond) (gd gs : Fin 8)
  | sbc (t : Tn) (cc : Cond) (gd gs : Fin 8)
  | and (t : Tn) (cc : Cond) (gd gs : Fin 8)
  | or (t : Tn) (cc : Cond) (gd gs : Fin 8)
  | xor (t : Tn) (cc : Cond) (gd gs : Fin 8)
  | cmp (t : Tn) (cc : Cond) (gd gs : Fin 8)
  | inc (t : Tn) (cc : Cond) (gd : Fin 8)
  | dec (t : Tn) (cc : Cond) (gd : Fin 8)
  | neg (t : Tn) (cc : Cond) (gd : Fin 8)
  | not (t : Tn) (cc : Cond) (gd : Fin 8)
  | shl (t : Tn) (cc : Cond) (gd : Fin 8)
  | shr (t : Tn) (cc : Cond) (gd : Fin 8)
  | asr (t : Tn) (cc : Cond) (gd : Fin 8)
  | rol (t : Tn) (cc : Cond) (gd : Fin 8)
  | ror (t : Tn) (cc : Cond) (gd : Fin 8)
  | clr (t : Tn) (cc : Cond) (gd : Fin 8)
  | tst (t : Tn) (cc : Cond) (gs : Fin 8)
  | swapn (t : Tn) (cc : Cond) (gd : Fin 8)
  | push (t : Tn) (cc : Cond) (gs : Fin 8)
  | pop (t : Tn) (cc : Cond) (gd : Fin 8)
  | incw (t : Tn) (cc : Cond) (wd : Fin 4)
  | decw (t : Tn) (cc : Cond) (wd : Fin 4)
  | pushw (t : Tn) (cc : Cond) (ws : Fin 4)
  | popw (t : Tn) (cc : Cond) (wd : Fin 4)
  | ext (t : Tn) (cc : Cond) (wd : Fin 4)
  | pushp (t : Tn) (cc : Cond) (pk : Fin 4)
  | popp (t : Tn) (cc : Cond) (pk : Fin 4)
  -- Zetik-8: loads, stores, transfers, short immediates
  | ld (t : Tn) (cc : Cond) (g : Fin 8) (m : PtrForm)
  | st (t : Tn) (cc : Cond) (g : Fin 8) (m : PtrForm)
  | ldw (t : Tn) (cc : Cond) (w : Fin 4) (m : PtrForm)
  | stw (t : Tn) (cc : Cond) (w : Fin 4) (m : PtrForm)
  | bra (t : Tn) (cc : Cond) (s8 : BitVec 8)
  | call (t : Tn) (cc : Cond) (f : CallForm)
  | ldi (t : Tn) (cc : Cond) (f : ImmForm) (i8 : Byte)
  | cmpi (t : Tn) (cc : Cond) (f : ImmForm) (i8 : Byte)
  | addi (t : Tn) (cc : Cond) (f : ImmForm) (i8 : Byte)
  | andi (t : Tn) (cc : Cond) (f : ImmForm) (i8 : Byte)
  | adj (t : Tn) (cc : Cond) (pk : Fin 4) (s6 : BitVec 6)
  | lds (t : Tn) (cc : Cond) (gd : Fin 8) (u5 : BitVec 5)
  | sts (t : Tn) (cc : Cond) (gs : Fin 8) (u5 : BitVec 5)
  -- Zetik-8: long forms
  | ldiw (t : Tn) (cc : Cond) (wd : Fin 4) (i16 : Half)
  | adci (t : Tn) (cc : Cond) (gd : Fin 8) (i8 : Byte)
  | subi (t : Tn) (cc : Cond) (gd : Fin 8) (i8 : Byte)
  | sbci (t : Tn) (cc : Cond) (gd : Fin 8) (i8 : Byte)
  | ori (t : Tn) (cc : Cond) (gd : Fin 8) (i8 : Byte)
  | xori (t : Tn) (cc : Cond) (gd : Fin 8) (i8 : Byte)
  | addw (t : Tn) (cc : Cond) (wd ws : Fin 4)
  | adcw (t : Tn) (cc : Cond) (wd ws : Fin 4)
  | subw (t : Tn) (cc : Cond) (wd ws : Fin 4)
  | sbcw (t : Tn) (cc : Cond) (wd ws : Fin 4)
  | cmpw (t : Tn) (cc : Cond) (wd ws : Fin 4)
  | addiw (t : Tn) (cc : Cond) (wd : Fin 4) (i16 : Half)
  | cmpiw (t : Tn) (cc : Cond) (wd : Fin 4) (i16 : Half)
  | mul (t : Tn) (cc : Cond) (wd : Fin 4) (ga gb : Fin 8)
  | sel (t : Tn) (cc : Cond) (gd ga gb : Fin 8) (sc : Cond)
  | selw (t : Tn) (cc : Cond) (wd wa wb : Fin 4) (sc : Cond)
  | cnvbD (t : Tn) (cc : Cond) (wd : Fin 4)
  | cnvbB (t : Tn) (cc : Cond) (wd : Fin 4)
  | lda (t : Tn) (cc : Cond) (g : Fin 8) (a17 : BitVec 17)
  | sta (t : Tn) (cc : Cond) (g : Fin 8) (a17 : BitVec 17)
  | ldaw (t : Tn) (cc : Cond) (w : Fin 4) (a17 : BitVec 17)
  | staw (t : Tn) (cc : Cond) (w : Fin 4) (a17 : BitVec 17)
  | ldx (t : Tn) (cc : Cond) (g : Fin 8) (pk : Fin 4) (gx : Fin 8)
  | stx (t : Tn) (cc : Cond) (g : Fin 8) (pk : Fin 4) (gx : Fin 8)
  | ldp (t : Tn) (cc : Cond) (pk ps : Fin 4) (s14 : BitVec 14)
  | stp (t : Tn) (cc : Cond) (pk ps : Fin 4) (s14 : BitVec 14)
  | ldpi (t : Tn) (cc : Cond) (pk : Fin 4) (i16 : Half)
  | ldph (t : Tn) (cc : Cond) (pk : Fin 4) (i8 : Byte)
  | lea (t : Tn) (cc : Cond) (pk : Fin 4) (s18 : BitVec 18)
  | padd (t : Tn) (cc : Cond) (pk : Fin 4) (ws : Fin 4) (sx : Bool)
  | movp (t : Tn) (cc : Cond) (d s : PSel)
  | adjsp (t : Tn) (cc : Cond) (s16 : Half)
  | movgp (t : Tn) (cc : Cond) (gd : Fin 8) (pk : Fin 4) (n : Fin 3)
  | movpg (t : Tn) (cc : Cond) (pk : Fin 4) (n : Fin 3) (gs : Fin 8)
  | brl (t : Tn) (cc : Cond) (s20 : BitVec 20)
  | jmp (t : Tn) (cc : Cond) (pk : Fin 4)
  | dbnz (t : Tn) (cc : Cond) (gd : Fin 8) (s16 : Half)
  | addp (t : Tn) (cc : Cond) (pd ps : Fin 4) (n1 : BitVec 4) (c : Bool)
  | subp (t : Tn) (cc : Cond) (pd ps : Fin 4) (n1 : BitVec 4) (c : Bool)
  | cmpp (t : Tn) (cc : Cond) (pd ps : Fin 4) (n1 : BitVec 4) (c : Bool)
  -- traps and entries
  | reservedOpcodeTrap (t : Tn)
  | fetchFault (t : Tn)
  | interruptEntry (t : Tn)
  -- video and raster
  | spriteEvaluation (t : Tn)
  | lineRender (e : Eng)
  | rasterEntry (t : Tn)
  | lineMatch (t : Tn) (k : Fin 4)
  | beamCapture (t : Tn)
  -- composition
  | composeLine (s : Sec) (badBytes : List Nat)
  | overlayCommit (src : BusSrc) (t : Tn) (mask : BitVec 4) (data : Word)
  | overlayWrite (m : Msg) (batch : Byte) (off : Word) (data : List Byte)
  -- region push, stations and ports
  | region
  | beamMark (e : Ent) (at_ : Nat)
  | frameTransmit (p : PortNo) (at_ : Nat)
  | input (r : Rx) (len : Byte) (data : List Byte)
  | status (r : Rx) (flags : Byte) (lastPresented : Word) (latePresents : Half)
  | resyncReq (r : Rx) (lastSeq : Word) (reason : Byte)
  | delayReq (p : PortNo) (mac : BitVec 48) (seqId : Half) (at_ : Nat)
  | foreignAnnounce (p : PortNo)
  | pauseReceive (p : PortNo)
  | rxUnknown (p : PortNo) (why : RxBad)
  | syncSend (p : PortNo) (at_ : Nat)
  | announceSend (p : PortNo)
  | stationAbsent (e : Ent)
  | portSwitch (e : Ent)
  | entryEnable (src : BusSrc) (e : Ent) (mask : BitVec 4) (data : Word)
  | entryDisable (src : BusSrc) (e : Ent) (mask : BitVec 4) (data : Word)
  | forceResync (src : BusSrc) (e : Ent) (mask : BitVec 4) (data : Word)
  | linkDown (p : PortNo)
  | linkUp (p : PortNo) (fecLock : Bool)
  | sfpChange (p : PortNo) (present los fault : Bool)
  | selfRefreshEntry (stack : Fin 2) (tolerance : Option Nat)
  | selfRefreshExit (stack : Fin 2)
  -- sound
  | audioTick (t : Tn)
  | keyon (t : Tn) (v : Half)
  | keyoff (t : Tn) (v : Half)
  | swap (t : Tn) (v : Byte)
  | sinkSample (i : Fin 8) (at_ : Nat)
  | sinkSwap (src : BusSrc) (i : Fin 8) (mask : BitVec 4) (data : Word)
  | previewReq (m : Msg) (kind path : Byte) (frames : Half)
  -- blitter, quick DMA, sector DMA
  | bltGo (t : Tn) (v : Byte)
  | end_ (t : Tn)
  | copy (t : Tn)
  | fill (t : Tn)
  | copykey (t : Tn)
  | xform (t : Tn)
  | link (t : Tn)
  | waitLine (t : Tn)
  | signal (t : Tn)
  | trailStop (t : Tn)
  | qdmGo (t : Tn) (v : Byte)
  | quickDmaTransfer (t : Tn)
  | dmaGo (t : Tn) (c : Fin 2) (v : Byte)
  | dmaChannelAssign (t : Tn) (c : Fin 2) (pick : Nat)
  | dmaBurst (t : Tn) (c : Fin 2) (corrected : Nat)
  | busError (t : Tn) (c : Fin 2) (hbm : Bool)
  | dmaChannelRestart (s : Sec) (ch : Fin 64) (fails : Bool)
  | dmaResumed (s : Sec)
  -- banks
  | eccWriteBack (e : Eng) (rewritten : Bool)
  | scrubRead (e : Eng) (addr : BitVec 22) (r : EccResult)
  | clearDone (e : Eng)
  | retentionEntry (e : Eng)
  | engineWake (e : Eng)
  | hbmStackFault (st : Fin 2)
  -- rings and continuity
  | ringTake (t : Tn) (at_ : Nat)
  | ringCommit (t : Tn)
  | mirrorStage (t : Tn) (n : Nat)
  | mirrorWarm (t : Tn)
  | idleHeartbeat (e : Eng)
  | internalError (e : Eng)
  | engineFailed (e : Eng) (credit : Bool)
  | tenantFailed (t : Tn)
  | promotion (t : Tn) (pick : Nat)
  | stoppedTenantReplace (t : Tn) (pick : Nat)
  | pitch (t : Tn) (slot : Fin 1152)
  | strike (slot : Fin 1152) (mirror : Bool) (pick : Nat)
  | tenantMoved (t : Tn)
  | fabricRingFault (s : Sec) (b : Bool) (cause : BitVec 8)
  | readmit (src : BusSrc) (mask : BitVec 4) (data : Word)
  | selftestDone (u : UnitId) (pass : Bool)
  | engineReadmitted (u : UnitId)
  | supHeartbeat
  | supFailover
  | supTakeoverDone
  -- interrupts and wake
  | event (n : Fin 512)
  | lanternSample
  | lanternWake
  -- timers
  | prescalerTick (i : TimerId)
  | timerWrap (t : Tn) (k : Fin 4)
  | timerCountRead (t : Tn) (k : Fin 4)
  | timerCountLoad (t : Tn) (k : Fin 4) (hi : Byte)
  | timerClear (t : Tn) (k : Fin 4)
  | mtReturnToZero (i : Fin 8)
  | mtRestart (src : BusSrc) (i : Fin 8) (mask : BitVec 4) (data : Word)
  | halfWrite (src : BusSrc) (addr : Word) (mask : BitVec 4) (data : Word)
  | capture (i j : Fin 8) (level : Bool)
  | compareCycle (i j : Fin 8)
  -- field pins and PIO
  | pinEdge (n : Fin 128) (level : Option Bool)
  | pioDelay (i : Fin 4) (j : Fin 32)
  | pioSet (i : Fin 4) (j : Fin 32)
  | pioOut (i : Fin 4) (j : Fin 32)
  | pioIn (i : Fin 4) (j : Fin 32)
  | pioWait (i : Fin 4) (j : Fin 32)
  | pioJmp (i : Fin 4) (j : Fin 32)
  | pioPull (i : Fin 4) (j : Fin 32)
  | pioPush (i : Fin 4) (j : Fin 32)
  | pioBadInstr (i : Fin 4) (j : Fin 32)
  | groupStart (src : BusSrc) (i : Fin 4) (mask : BitVec 4) (data : Word)
  | groupStop (src : BusSrc) (i : Fin 4) (mask : BitVec 4) (data : Word)
  | clkRestart (src : BusSrc) (i : Fin 4) (mask : BitVec 4) (data : Word)
  | txf (src : BusSrc) (i : Fin 4) (j : Fin 32) (mask : BitVec 4) (data : Word)
  | rxf (src : BusSrc) (i : Fin 4) (j : Fin 32)
  -- the gate
  | gateLinkFail (l : Fin 2)
  | imageChunk (m : Msg) (dest : Byte) (off : Word) (data : List Byte)
  | wake (m : Msg)
  | sqTail (v : Word)
  | cqHead (v : Word)
  | ringCtrl (off : Fin 14) (v : Word)
  | counters
  | keyCommit (src : BusSrc) (mask : BitVec 4) (data : Word)
  | pcieReset
  -- persistence and time
  | nvsPageWrite (ok : Bool)
  | savGo (t : Tn) (v : Byte)
  | savCommit (t : Tn)
  | erase (src : BusSrc) (t : Tn) (mask : BitVec 4) (data : Word)
  | rtcHundredth
  | rtcCommit (src : BusSrc) (mask : BitVec 4) (data : Word)
  | panelUpdate (src : BusSrc) (mask : BitVec 4) (data : Word)
  | panelUpdateStart
  | panelUpdateDone
  | panelStop
  | panelRecovered
  | pfw
  | pfwCleared
  -- firmware update
  | fwuOpen (src : BusSrc) (mask : BitVec 4) (data : Word)
  | fwuVerify (src : BusSrc) (mask : BitVec 4) (data : Word)
  | fwuVerified
  | fwuActivate (src : BusSrc) (mask : BitVec 4) (data : Word)
  | fwuSwapped
  | fwuConfirm (src : BusSrc) (mask : BitVec 4) (data : Word)
  | trialEnd
  | fwuRollback (src : BusSrc) (mask : BitVec 4) (data : Word)
  | fwuAbort (src : BusSrc) (mask : BitVec 4) (data : Word)
  | standbyReady
  -- power, clocks and reset
  | powerPark (src : BusSrc) (mask : BitVec 4) (data : Word)
  | parkComplete
  | powerRun (src : BusSrc) (mask : BitVec 4) (data : Word)
  | powerDormant (src : BusSrc) (mask : BitVec 4) (data : Word)
  | feedLost (b : Bool)
  | feedRestored (b : Bool)
  | powerOn
  | ready
  | supplyFall
  | alwaysOnLoss
  | clockFault (d : Fin 108)
  | portReset (src : BusSrc) (mask : BitVec 4) (data : Word)
  | temperatureWarning (deg : Nat)
  | temperatureTrip
  | temperatureRecover
  | modEnable (src : BusSrc) (mask : BitVec 4) (data : Word)
  | enginesUp
  | modDisable (src : BusSrc) (mask : BitVec 4) (data : Word)
  | syncing
deriving DecidableEq, Repr

end Sys2Proof
end

