-- ==== Sys2Proof/Decode.lean ====
section
/-! DEFINITION. The decoder of the table's words. The opcode table gives no row any bits: the block's commands are
messages, accesses and events, so no word spells one. The encodings of Zetik-8, whose instructions stand in a tenant's
memory, are decoded and encoded in Machine/Zetik8.lean. -/

namespace Sys2Proof

/-- The command that a word of the table's bits spells: none, since no row has bits. -/
def decodeTableWord (_nbits _w : Nat) : Option Instr := none

end Sys2Proof
end

