-- ==== Sys2Proof/Config.lean ====
section
/-! DEFINITION. What the spec leaves to the unit, the firmware or a cited standard: constants without
a body, so that no proof can see a value. Each is named in the assumption log. -/

namespace Sys2Proof.Config

/-- The CODE of the event of an overlay read error (R175), which the table of EVENT codes does not list. -/
opaque overlayErrorCode : Nat

/-- Which of the two names the path of the audio that a preview sends where they differ: PATH of the request (R344), or
MIX.ROUTE.PREVIEW_PATH of the tenant (R223). -/
opaque previewByRequest : Bool

/-- The LINE of a PREVIEW_DATA message of KIND 1 or 2, and the FRAME of one of KIND 2 (R341): by tenant
and number of the palette's frame or of the audio block. -/
opaque previewLine : Nat → Nat → Half
opaque previewFrame : Nat → Nat → Word

/-- The value of an item of an EVENT for which the spec states no value (R347), by CODE and the number that
the item carries. -/
opaque eventValue : Nat → Nat → Nat

/-- The character that the supervisor writes into a column of panel line 6 or 7 (R369), by line, column
and tick. -/
opaque panelChar : Nat → Nat → Nat → Byte

/-- The level of a pin that nothing drives and nothing pulls, by pin and tick. -/
opaque pinFloat : Nat → Nat → Bool

/-- The target (0 none, 1 SUP-A, 2 SUP-B) and the priority that a version of the firmware gives to a module source that
R302 lets it keep, and the thresholds of SUP-A and SUP-B. -/
opaque supTarget : Nat → Nat → Fin 3
opaque supPrio : Nat → Nat → Fin 8
opaque supThreshold : Nat → Bool → Fin 8

/-- The four public keys that are fused at manufacture (R374), of which the first 32 bytes count. -/
opaque signKey : Nat → List Byte

/-- Whether the revocation fuse of a signing key is blown (R374). -/
opaque keyRevoked : Nat → Bool

/-- The supervisor's settings groups, by page number; the schema version with which each leaves the factory; the 256
bytes of a group at its defaults, by page and schema version (R384). -/
opaque settingsGroups : List Nat
opaque factorySchema : Nat → Nat
opaque settingsPage : Nat → Nat → List Byte

/-- SEVERITY of a LOG of severity warning, and a LOG's TEXT, by the number of the text: its first byte, and those of which
up to 239 follow (R341, R407). -/
opaque warnSeverity : Byte
opaque logText : Nat → Byte × List Byte

/-- Whether the cable of HOST-A is plugged (R416), and whether a partner that takes 1000 Mbit/s stands at HOST-B jack 0
or 1 (R417). -/
opaque cable : Bool
opaque gigabit : Nat → Bool

/-- Inlet voltage in V rms of feed A (false) or B (R392), the input power of the module in W and the share of it in per
cent that stage A carries (R409, R410), at a tick. -/
opaque feedVolts : Bool → Nat → Nat
opaque inputWatts : Nat → Nat
opaque feedShare : Nat → Nat

/-- What the factory fixes for each unit: the register words whose reset value the spec gives as "factory", by word
number (BNK.GRAFT_LEFT, PRT.MAC, FWU.HW_REV, FWU.SERIAL), and the header of the image in each firmware slot. -/
opaque factoryWord : Nat → Word
opaque factoryImage : Nat → List Byte

/-- How much of its time, in per cent, a unit of an engine that had work was busy in a TB0 frame or interval of wall time
(R25): by engine, whether TB0 runs, the number of the frame or interval, and unit. -/
opaque engLoad : Nat → Bool → Nat → Nat → Nat

/-- How often a counter of what arbitration, caches and line codes do in wall time counts between two ticks, which the
spec gives no rule to compute (ENG.CACHE_MISSES, the CONF counters of BNK, PRT.FEC_CORRECTED and FEC_UNCORRECTED), by
word number and the two ticks. -/
opaque timingCount : Nat → Nat → Nat → Nat

end Sys2Proof.Config
end

