-- ==== Sys2Proof/Machine/TenantState.lean ====
section
/-! DEFINITION. The state of one tenant (R3, R10): what its execution is made of in tenant time
(`Core`, which a ring captures whole, R107, R162, R229, R251, R273), and what the module keeps about
it in wall time (`Tenant`: its binding, inputs, journal, mirror, line buffers, placement). Tenant
cycles are absolute: cycle 0 is cycle 0 of tenant frame 0, and the line number counts on over the
frames, so that line `n` of frame `f` is line `f * LINES + n` (R64). -/

namespace Sys2Proof.Machine

/-- A table by number in one canonical form: keys strictly rising, and no entry equal to what an
unlisted key holds. What an unlisted key holds is given to each operation. -/
abbrev Store (α : Type) := List (Nat × α)

/-- Bytes by address, in the same canonical form; an unlisted address holds 0 (R262, R91). -/
abbrev Memory := List Host.Cell

/-- A live entry of the hardware return stack (R101). -/
structure RsEntry where
  ret : Addr
  res : Addr
deriving DecidableEq, Repr

/-- A FENCE in progress (R128): the cycle at which it was issued and the items launched before it
that have not completed. -/
structure Fence where
  issued : Nat
  trail : Bool
  qdm : Bool
  dma0 : Bool
  dma1 : Bool
deriving DecidableEq, Repr

/-- The CPU registers of one tenant (R83, R107). -/
structure Cpu where
  g0 : Byte
  g1 : Byte
  g2 : Byte
  g3 : Byte
  g4 : Byte
  g5 : Byte
  g6 : Byte
  g7 : Byte
  p0 : Addr
  p1 : Addr
  p2 : Addr
  p3 : Addr
  sp : Addr
  pc : Addr
  f : Byte
  cpl : BitVec 3
  vbrM : Byte
  vbrH : Byte
  stagedM : Byte
  rs : List RsEntry
  bt : Store Addr
  btHead : BitVec 5
  btCount : Nat
  wait : Option Nat
  fence : Option Fence
  doubleTrap : Bool
deriving DecidableEq, Repr

/-- The CPU right after reset entry, but for pc, which vector 0 gives (R83, R91). -/
def Cpu.reset : Cpu :=
  ⟨0, 0, 0, 0, 0, 0, 0, 0, 0, 0, 0, 0, 0x4000, 0, 0, 0, 0, 2, 0, [], [], 31, 0, none, none, false⟩

/-- The CPU stores of an instruction that wait for its last cycle while a unit still has an event at
or before that cycle (R105, R231). -/
structure Posted where
  cycle : Nat
  bytes : List (Addr × Byte)
deriving DecidableEq, Repr

/-- An entry sequence whose vector is not in pc yet (R93, R96): the cycle at which its vector is read, the number
of the vector, the vector once read, its last cycle, the pc that its frame holds, and, for an interrupt, the priority
that becomes CPL. -/
structure VecRead where
  cycle : Nat
  vec : Nat
  got : Option Addr
  last : Nat
  from_ : Addr
  cpl : Option (BitVec 3)
deriving DecidableEq, Repr

/-- What happened at one tenant cycle: the bytes that were overwritten at it, as they stood before
(reads at that cycle return them, R230), and the W1C bits that the hardware set at it (R6), as
(register word, mask). -/
structure AtCycle where
  cycle : Nat
  old : List (Nat × Byte)
  sets : List (Nat × Word)
deriving DecidableEq, Repr

/-- A write to a target register (R152) that waits for its effect position (R153, R156). `key` is
the word offset in the tenant's pages, `mask` the bits it writes. -/
structure RegWrite where
  pos : Nat
  raster : Bool
  key : Nat
  mask : Word
  val : Word
deriving DecidableEq, Repr

/-- A video RAM byte as it stood before a write with effect position `pos` (R144). -/
structure VramOld where
  pos : Nat
  addr : Nat
  old : Byte
deriving DecidableEq, Repr

/-- The sprites kept on one line, as their 8 attribute bytes (R140, R145). -/
structure Kept where
  line : Nat
  sprites : List (BitVec 64)
deriving DecidableEq, Repr

/-- A palette snapshot of a frame (R146, R147): its bytes and the entries that changed. -/
structure PalSnap where
  frame : Nat
  bytes : Memory
  changed : List Nat
deriving DecidableEq, Repr

/-- The raster executor (R150, R162): the sampled registers, the entry read but not yet performed,
the cycle at which it was read, and the position of the entry before it. -/
structure Raster where
  en : Bool
  base : Nat
  len : Nat
  entry : Option (BitVec 64)
  readAt : Nat
  prev : Nat
  frameLine : Nat
deriving DecidableEq, Repr

/-- One voice (R211). -/
structure Voice where
  active : Bool
  ph : BitVec 24
  i : Nat
  frac : BitVec 16
  lfsr : Half
  start : Addr
deriving DecidableEq, Repr

/-- A stereo value of the mix chain. -/
structure Pair where
  l : Int
  r : Int
deriving DecidableEq, Repr

/-- One output sample on both paths (R208). -/
structure OutSample where
  no : Nat
  main : Pair
  fast : Pair
deriving DecidableEq, Repr

/-- The sound state of one tenant (R229). `pre` holds the main pre-limiter samples of the window,
oldest first; `fastPre` the one of the fast path. -/
structure Sound where
  voices : Store Voice
  keyOn : Half
  keyOff : Half
  ticks : Nat
  tickLatch : BitVec 24
  y1 : Pair
  y2 : Pair
  dpos : Nat
  pre : List Pair
  fastPre : Pair
  out : List OutSample
deriving DecidableEq, Repr

/-- What an item of a shared unit carries of its tenant (R252, R289): the epoch and the placement number. -/
structure Tag where
  epoch : Half
  place : Half
deriving DecidableEq, Repr

/-- A trail in progress (R243): the address of the current entry, its 16 bytes once sampled, the
cycle at which its step was to begin, the cycle at which it begins, whether it is deferred to a
later line start (R242), whether a command of it has ended, and its tag. -/
structure Trail where
  entry : Addr
  bytes : Option (BitVec 128)
  sampleAt : Nat
  first : Nat
  deferred : Bool
  started : Bool
  tag : Tag
deriving DecidableEq, Repr

/-- A quick DMA transfer in progress (R245): the sampled registers, its first cycle and its tag. -/
structure Qdm where
  src : Addr
  dst : Addr
  len : Nat
  first : Nat
  tag : Tag
deriving DecidableEq, Repr

/-- A channel item (R246, R251): the sampled descriptor, the next element, the pending requests, the
burst in progress (first cycle, elements), the next request of REQ 2 that has not been counted, whether
the item is terminated (R250) or its HBM read has failed (R249), and its tag. -/
structure DmaItem where
  cfg : Byte
  burst : Nat
  count : Nat
  src : Addr
  dst : Addr
  index : Addr
  next : Nat
  pend : Nat
  busy : Option (Nat × Nat)
  later : Option Nat
  terminated : Bool
  failed : Bool
  tag : Tag
deriving DecidableEq, Repr

/-- A tenant timer (R311, R315, R316). Events before cycle `upTo` have been counted; `lineCount` is
the count at the last line end. -/
structure Timer where
  count : Half
  acc : Nat
  latch : Byte
  staged : Byte
  upTo : Nat
  lineCount : Half
deriving DecidableEq, Repr

/-- A save commit step in progress (R358): the sampled mask and its last cycle. -/
structure SavStep where
  mask : Word
  last : Nat
  epoch : Half
deriving DecidableEq, Repr

/-- An input report in a report block or on its way to it (R196, R197): station entry, sequence
number, data. -/
structure Report where
  slot : Nat
  ent : Nat
  seq : Word
  data : List Byte
deriving DecidableEq, Repr

/-- Inputs from outside tenant time (R80). -/
inductive Input where
  /-- A module-view write: word offset, the bits it changes, their values (R35). -/
  | write (key : Nat) (mask data : Word)
  | mail (data : List Byte)
  | saveDone (ok : Bool)
  | report (r : Report)
  /-- Which blocks' stations are present at the input line (R197). -/
  | present (bits : BitVec 4)
  | calendar (c : BitVec 72)
  /-- Termination of a channel's item at its burst whose last cycle is `cycle` (R250). -/
  | dmaFault (c : Fin 2) (cycle : Nat)
  | hold | resume | park | unpark
deriving DecidableEq, Repr

/-- A journal entry: the absolute line at whose start the input entered (R80). -/
structure JEntry where
  line : Nat
  input : Input
deriving DecidableEq, Repr

/-- The tenant's execution in tenant time: everything a ring captures. `now` is the cycle of the next
instruction boundary (in WAIT and FENCE, the cycle reached), `begun` the number of lines begun,
`nextRing` the next ring point (R271). -/
structure Core where
  cpu : Cpu
  mem : Memory
  regs : Store Word
  now : Nat
  begun : Nat
  nextRing : Nat
  ringNo : Nat
  entered : Bool
  posted : Option Posted
  vread : Option VecRead
  atc : AtCycle
  rlog : List RegWrite
  vold : List VramOld
  sat : Memory
  evalNext : Nat
  kept : List Kept
  pal : List PalSnap
  palBytes : Memory
  palValid : Bool
  ras : Raster
  lmFrom0 : Nat
  lmFrom1 : Nat
  lmFrom2 : Nat
  lmFrom3 : Nat
  snd : Sound
  bal : Int
  trail : Option Trail
  qdm : Option Qdm
  dma0 : Option DmaItem
  dma1 : Option DmaItem
  tmr0 : Timer
  tmr1 : Timer
  tmr2 : Timer
  tmr3 : Timer
  sav : Option SavStep
deriving DecidableEq, Repr

/-- A timer at reset (R315). -/
def Timer.reset : Timer := ⟨0, 0, 0, 0, 0, 0⟩

/-- A voice before its first key-on (R213). -/
def Voice.reset : Voice := ⟨false, 0, 0, 0, 0, 0⟩

/-- The sound state at START (R217, R218, R229). -/
def Sound.reset : Sound := ⟨[], 0, 0, 0, 0, ⟨0, 0⟩, ⟨0, 0⟩, 0, [], ⟨0, 0⟩, []⟩

/-- The execution state before the reset entry: memory zero, registers at their reset values (R91). -/
def Core.reset : Core :=
  { cpu := Cpu.reset, mem := [], regs := [], now := 0, begun := 0, nextRing := 0, ringNo := 0,
    entered := false, posted := none, vread := none, atc := ⟨0, [], []⟩, rlog := [], vold := [], sat := [],
    evalNext := 0, kept := [], pal := [], palBytes := [], palValid := false,
    ras := ⟨false, 0, 0, none, 0, 0, 0⟩,
    lmFrom0 := 0, lmFrom1 := 0, lmFrom2 := 0, lmFrom3 := 0, snd := Sound.reset, bal := 2032,
    trail := none, qdm := none, dma0 := none, dma1 := none,
    tmr0 := Timer.reset, tmr1 := Timer.reset, tmr2 := Timer.reset, tmr3 := Timer.reset, sav := none }

/-- One entry of the mirror stream (R274, R275). -/
inductive MEntry where
  | write (bytes : List (Nat × Byte))
  | journal (e : JEntry)
  | marker (ring : Nat)
deriving DecidableEq, Repr

/-- The mirror of a tenant (R274 to R280): entries issued but not yet staged, entries staged, the
mirror image, whether the live stream runs, whether a ring has committed since it began, and whether
the mirror replaces a lost or cold one. -/
structure Mirror where
  stream : List MEntry
  staging : List MEntry
  image : Memory
  live : Bool
  synced : Bool
  restored : Bool
deriving DecidableEq, Repr

/-- A planned move in progress (R281): the destination slot and the rings that have committed since it began.
The copy is warm at the first one (R280). -/
structure MoveRun where
  dest : Nat
  rings : Nat
deriving DecidableEq, Repr

/-- A rendered line in a line buffer (R163): the absolute line and its W pixels. -/
structure LineBuf where
  line : Nat
  pix : List Byte
deriving DecidableEq, Repr

/-- An output sample at the audio router, with the tick to which the tenant's binding maps it (R222). -/
structure Routed where
  no : Nat
  tick : Nat
  main : Pair
  fast : Pair
deriving DecidableEq, Repr

/-- OVERLAY_WRITE bytes that wait for a frame boundary (R172). -/
structure OvlWrite where
  batch : Byte
  last : Bool
  off : Nat
  data : List Byte
deriving DecidableEq, Repr

/-- What the compositor keeps for a tenant: the latched overlay set (as words of the TEN page, R170),
the BATCH that the last commit recorded, whether its deferral has been told, the batch tags whose LAST
write has been applied in this epoch (R171), the bytes that wait, the last palette snapshot with palette
entries 240 to 255 of the overlay image (R146, R169), RESERVE as the last frame start found it, whether the
frame store and the overlay image lie in the relocation reserve (R266), and the line that waits for the
release of its band (R177). -/
structure Compo where
  latched : Store Word
  batch : Byte
  told : Bool
  applied : List Byte
  writes : List OvlWrite
  palLast : Memory
  palHave : Bool
  ovlPal : List Byte
  reserve : Bool
  relocated : Bool
  waiting : Option Nat
deriving DecidableEq, Repr

/-- Nothing latched, no snapshot. -/
def Compo.reset : Compo := ⟨[], 0, false, [], [], [], false, List.replicate 48 0, false, false, none⟩

/-- A ring that is taken but not committed (R275): the captured state, its CPU at the end of the instruction or
entry sequence in which it falls (R106, R107), the number of closed lines, and the number of journal entries before
it. -/
structure RingTaken where
  no : Nat
  captured : Core
  shown : Cpu
  closed : Nat
  journaled : Nat
deriving DecidableEq, Repr

/-- What LOAD named (R341): the cartridge image. -/
structure Image where
  base : Nat
  len : Nat
deriving DecidableEq, Repr

/-- A pending stop of tenant time at the next frame start (R73, R74). -/
inductive StopReq where
  | none | hold | park
deriving DecidableEq, Repr

/-- A save commit at NVS whose completion is to come (R359): epoch, tenant-time point, page writes
left, and whether one has failed. -/
structure SavJob where
  epoch : Half
  point : Nat
  left : Nat
  failed : Bool
deriving DecidableEq, Repr

/-- One tenant (T0000 to T1023). `handed` is the number of lines that committed rings have closed, `rendered` the next
line to render. `mregs` holds the page registers that the module maintains outside tenant time (CONT, PLACE, MIRROR, the
profile, overlays, routing, the RC counters, OWNER); the other page registers are in `core.regs`. `journal` holds the
entries since the last committed ring (R254), `replay` those that a promotion replays. `waitPromotion` is 1 from the
failure of the running copy to its promotion, `resetWait` a RESET accepted in that time (R292), `lostMirror` that the
next mirror replaces a lost one (R280), `mirrorMove` the slot to which its mirror moves (R281), `redo` that a tenant
held by a double trap executes again the interval that ends with it (R97, R286). `bindLine` and `bindTick` say that the
wall-clock start of absolute line `bindLine` is tick `bindTick` (R69, R73), `oldLine` and `oldTick` the binding before
it. -/
structure Tenant where
  core : Core
  mregs : Store Word
  image : Image
  bindLine : Nat
  bindTick : Nat
  oldLine : Nat
  oldTick : Nat
  stop : StopReq
  parkedByModule : Bool
  heldByModule : Bool
  resumeJ : List Input
  inputs : List Input
  reports : List Report
  journal : List JEntry
  replay : List JEntry
  afterReset : List (Nat × Word × Word)
  ring : Option RingTaken
  record : Core
  recordValid : Bool
  handed : Nat
  rendered : Nat
  mirror : Option Mirror
  move : Option MoveRun
  mirrorMove : Option MoveRun
  waitPromotion : Bool
  resetWait : Bool
  redo : Bool
  lostMirror : Bool
  bufs : List LineBuf
  compo : Compo
  routed : List Routed
  audioNext : Nat
  lagWarned : Bool
  savSeen : List (Half × Nat)
  savJobs : List SavJob
deriving DecidableEq, Repr

/-- A tenant that has never been loaded: EMPTY, all registers at reset (R36). -/
def Tenant.reset : Tenant :=
  { core := Core.reset, mregs := [], image := ⟨0, 0⟩, bindLine := 0, bindTick := 0,
    oldLine := 0, oldTick := 0, stop := .none, parkedByModule := false, heldByModule := false,
    resumeJ := [], inputs := [], reports := [],
    journal := [], replay := [], afterReset := [], ring := none, record := Core.reset,
    recordValid := false, handed := 0, rendered := 0, mirror := none, move := none, mirrorMove := none,
    waitPromotion := false, resetWait := false, redo := false,
    lostMirror := false, bufs := [], compo := Compo.reset, routed := [], audioNext := 0,
    lagWarned := false, savSeen := [], savJobs := [] }

end Sys2Proof.Machine
end

