-- ==== Sys2Proof/Machine/RegTable.lean ====
section
/-! DEFINITION. The register pages (R29 to R55): the block codes, the page index, the field table of
every register that the chapters give, and from it the access masks and the reset value of every
32-bit page-bus word. Each row is one register: its module-view byte offset in its page, its
repetitions (stride, count), and its fields (low bit, high bit, access, reset value). -/

namespace Sys2Proof.Machine

/-- Access codes (R5). No register of the spec uses W1S. -/
inductive Acc where
  | ro | rw | wo | w1c | rc
deriving DecidableEq, Repr

/-- One field of a field table: bits, access, reset value. -/
structure FieldRow where
  lo  : Nat
  hi  : Nat
  acc : Acc
  rst : Nat
deriving DecidableEq, Repr

/-- One register of a page: byte offset, repetitions, fields. -/
structure RegRow where
  off    : Nat
  reps   : List (Nat × Nat)
  fields : List FieldRow
deriving DecidableEq, Repr

/-- The blocks that have register pages (R51, R54, R55). `sblt` and `sdma` are the sector's BLT and
DMA pages; `blt` and `dma` the tenant's. -/
inductive Blk where
  | mod | pwr | clk | gte | nvs | rtc | fwu | lan | pnl | miq | mtm | fio | pio | tbs | psh | ptp | stn | sec | sblt | sdma | cmp | eng | bnk | rng | prt | ten | vid | spr | pal | ras | snd | mix | tmr | irq | inp | qdm | blt | dma | sav | cpu
deriving DecidableEq, Repr

/-- Block codes of the page index tables (R51, R54, R55). -/
def Blk.code : Blk → Nat
  | .mod => 0x01
  | .pwr => 0x02
  | .clk => 0x03
  | .gte => 0x04
  | .nvs => 0x05
  | .rtc => 0x06
  | .fwu => 0x07
  | .lan => 0x08
  | .pnl => 0x09
  | .miq => 0x0A
  | .mtm => 0x0B
  | .fio => 0x0C
  | .pio => 0x0D
  | .tbs => 0x0E
  | .psh => 0x0F
  | .ptp => 0x10
  | .stn => 0x11
  | .sec => 0x20
  | .sblt => 0x21
  | .sdma => 0x22
  | .cmp => 0x23
  | .eng => 0x30
  | .bnk => 0x31
  | .rng => 0x32
  | .prt => 0x38
  | .ten => 0x40
  | .vid => 0x41
  | .spr => 0x42
  | .pal => 0x43
  | .ras => 0x44
  | .snd => 0x45
  | .mix => 0x46
  | .tmr => 0x47
  | .irq => 0x48
  | .inp => 0x49
  | .qdm => 0x4A
  | .blt => 0x4B
  | .dma => 0x4C
  | .sav => 0x4D
  | .cpu => 0x4E

/-- The registers of the MOD page. -/
def rowsMOD : List RegRow := [
  -- STATUS: READY, ENGINES_UP (R421)
  ⟨0x00C, [], [⟨0, 0, .ro, 0⟩, ⟨1, 1, .ro, 0⟩]⟩,
  -- ENG_NOTICE: ENG (R23)
  ⟨0x040, [(0x4, 2)], [⟨0, 31, .w1c, 0⟩]⟩,
  -- ENG_NOTICE2: ENG (R23)
  ⟨0x048, [], [⟨0, 7, .w1c, 0⟩]⟩,
  -- SEC_NOTICE: SEC (R23)
  ⟨0x04C, [], [⟨0, 7, .w1c, 0⟩]⟩,
  -- CONT_CTRL: AUTO_READMIT, AUTO_REHOME, READMIT_LIMIT (R293)
  ⟨0x060, [], [⟨0, 0, .rw, 0⟩, ⟨1, 1, .rw, 1⟩, ⟨8, 10, .rw, 2⟩]⟩,
  -- READMIT: ENGINE, GO (R293)
  ⟨0x064, [], [⟨0, 6, .wo, 0⟩, ⟨31, 31, .wo, 0⟩]⟩,
  -- CONT_STATUS: UNMIRRORED, ON_TAKEOVER, ACTIVE_SUP_B, SUP_TAKEOVER (R294)
  ⟨0x068, [], [⟨0, 10, .ro, 0⟩, ⟨12, 20, .ro, 0⟩, ⟨24, 24, .ro, 0⟩, ⟨25, 25, .ro, 0⟩]⟩,
  -- HBM_CORRECTED: COUNT (R265)
  ⟨0xF08, [], [⟨0, 31, .rc, 0⟩]⟩,
  -- CREDIT_OVER: COUNT (R21)
  ⟨0xF0C, [], [⟨0, 31, .rc, 0⟩]⟩,
  -- HBM_UNCORRECTED: COUNT (R265)
  ⟨0xF10, [], [⟨0, 31, .rc, 0⟩]⟩]

/-- The registers of the PWR page. -/
def rowsPWR : List RegRow := [
  -- STATUS: STATE, FEED_A, FEED_B, PFW, FEED_A_CHG, FEED_B_CHG (R387)
  ⟨0x00C, [], [⟨0, 2, .ro, 1⟩, ⟨3, 3, .ro, 0⟩, ⟨4, 4, .ro, 0⟩, ⟨5, 5, .ro, 0⟩, ⟨8, 8, .w1c, 0⟩, ⟨9, 9, .w1c, 0⟩]⟩,
  -- CMD: OP (R387)
  ⟨0x020, [], [⟨0, 1, .wo, 0⟩]⟩,
  -- REFUSE: CODE, REFUSED (R390)
  ⟨0x024, [], [⟨0, 7, .ro, 0⟩, ⟨8, 8, .w1c, 0⟩]⟩,
  -- FEED_A: VRMS, WATTS (R392)
  ⟨0x028, [], [⟨0, 9, .ro, 0⟩, ⟨16, 25, .ro, 0⟩]⟩,
  -- FEED_B: VRMS, WATTS (R392)
  ⟨0x02C, [], [⟨0, 9, .ro, 0⟩, ⟨16, 25, .ro, 0⟩]⟩,
  -- LAST_START: CAUSE, DOMAIN (R399)
  ⟨0x030, [], [⟨0, 1, .ro, 0⟩, ⟨8, 14, .ro, 0⟩]⟩,
  -- FEED_LOSSES: COUNT (R392)
  ⟨0xF08, [], [⟨0, 31, .rc, 0⟩]⟩,
  -- PFW_COUNT: COUNT (R356)
  ⟨0xF0C, [], [⟨0, 31, .rc, 0⟩]⟩,
  -- STARTS: COUNT (R395)
  ⟨0xF10, [], [⟨0, 31, .rc, 0⟩]⟩]

/-- The registers of the CLK page. -/
def rowsCLK : List RegRow := [
  -- STATUS: ALL_LOCKED (R398)
  ⟨0x00C, [], [⟨0, 0, .ro, 0⟩]⟩,
  -- LOCK: LOCKED (R398)
  ⟨0x020, [(0x4, 3)], [⟨0, 31, .ro, 0⟩]⟩,
  -- LOCK3: LOCKED (R398)
  ⟨0x02C, [], [⟨0, 11, .ro, 0⟩]⟩,
  -- RST_ENG: ENG (R404)
  ⟨0x030, [(0x4, 2)], [⟨0, 31, .ro, 0xFFFFFFFF⟩]⟩,
  -- RST_ENG2: ENG (R404)
  ⟨0x038, [], [⟨0, 7, .ro, 0xFF⟩]⟩,
  -- RST_SEC: SEC (R404)
  ⟨0x03C, [], [⟨0, 7, .ro, 0xFF⟩]⟩,
  -- RST_PORT: PORT (R404)
  ⟨0x040, [], [⟨0, 15, .rw, 0⟩]⟩,
  -- RST_SUP: SUP (R404)
  ⟨0x044, [], [⟨0, 1, .ro, 0⟩]⟩,
  -- LOCK_LOSSES: COUNT (R399)
  ⟨0xF08, [], [⟨0, 31, .rc, 0⟩]⟩]

/-- The registers of the GTE page. -/
def rowsGTE : List RegRow := [
  -- CTRL: EVT_A, EVT_B (R347)
  ⟨0x008, [], [⟨6, 6, .rw, 0⟩, ⟨7, 7, .rw, 0⟩]⟩,
  -- STATUS: LINK, PCIE_UP, HB_LINK, DROP_SEEN, WAKE_RX (R345)
  ⟨0x00C, [], [⟨0, 1, .ro, 0⟩, ⟨2, 2, .ro, 0⟩, ⟨3, 4, .ro, 0⟩, ⟨5, 5, .w1c, 0⟩, ⟨6, 6, .w1c, 0⟩]⟩,
  -- CFG: HB_PORT, V4_EN, V6_EN (R348)
  ⟨0x020, [], [⟨0, 15, .rw, 50310⟩, ⟨16, 16, .rw, 0⟩, ⟨17, 17, .rw, 0⟩]⟩,
  -- HB_IP4: ADDR (R348)
  ⟨0x024, [], [⟨0, 31, .rw, 0⟩]⟩,
  -- HB_IP6: ADDR (R348)
  ⟨0x028, [(0x4, 4)], [⟨0, 31, .rw, 0⟩]⟩,
  -- PEER_IP4: ADDR (R348)
  ⟨0x038, [], [⟨0, 31, .rw, 0⟩]⟩,
  -- PEER_IP6: ADDR (R348)
  ⟨0x03C, [(0x4, 4)], [⟨0, 31, .rw, 0⟩]⟩,
  -- PEER_PORT: PORT, V6 (R348)
  ⟨0x04C, [], [⟨0, 15, .rw, 50310⟩, ⟨16, 16, .rw, 0⟩]⟩,
  -- HB_RATE: RATE (R345)
  ⟨0x050, [], [⟨0, 15, .rw, 1000⟩]⟩,
  -- SUP_EVT: VECTOR (R347)
  ⟨0x054, [], [⟨0, 5, .rw, 0⟩]⟩,
  -- CNT_PERIOD: MS (R347)
  ⟨0x058, [], [⟨0, 15, .rw, 0⟩]⟩,
  -- CNT_LIST: EN, PAGE (R347)
  ⟨0x060, [(0x4, 8)], [⟨0, 0, .rw, 0⟩, ⟨12, 27, .rw, 0⟩]⟩,
  -- DROP_CAUSE: CHECK, TYPE (R345)
  ⟨0x080, [], [⟨0, 2, .ro, 0⟩, ⟨8, 15, .ro, 0⟩]⟩,
  -- HB_KEY: KEY (R350)
  ⟨0x0A0, [(0x4, 8)], [⟨0, 31, .wo, 0⟩]⟩,
  -- KEY_CTRL: COMMIT, KEY_SET (R350)
  ⟨0x0C0, [], [⟨0, 0, .wo, 0⟩, ⟨1, 1, .ro, 0⟩]⟩,
  -- RX_SEQ_LO: SEQ (R349)
  ⟨0x0C4, [], [⟨0, 31, .ro, 0⟩]⟩,
  -- RX_SEQ_HI: SEQ (R349)
  ⟨0x0C8, [], [⟨0, 31, .ro, 0⟩]⟩,
  -- DROP_COUNT: COUNT (R345)
  ⟨0xF08, [], [⟨0, 31, .rc, 0⟩]⟩,
  -- CONFLICT_DROP: COUNT (R48)
  ⟨0xF0C, [], [⟨0, 31, .rc, 0⟩]⟩,
  -- AUTH_FAIL: COUNT (R345)
  ⟨0xF10, [], [⟨0, 31, .rc, 0⟩]⟩,
  -- REPLAY_DROP: COUNT (R345)
  ⟨0xF14, [], [⟨0, 31, .rc, 0⟩]⟩,
  -- RATE_DROP: COUNT (R345)
  ⟨0xF18, [], [⟨0, 31, .rc, 0⟩]⟩,
  -- IMAGE_REJECT: COUNT (R343)
  ⟨0xF1C, [], [⟨0, 31, .rc, 0⟩]⟩,
  -- STALE_NACKS: COUNT (R345)
  ⟨0xF20, [], [⟨0, 31, .rc, 0⟩]⟩]

/-- The registers of the NVS page. -/
def rowsNVS : List RegRow := [
  -- STATUS: PFW, WRITE_FAIL (R356)
  ⟨0x00C, [], [⟨0, 0, .ro, 0⟩, ⟨1, 1, .w1c, 0⟩]⟩,
  -- QUEUE: LEVEL (R355)
  ⟨0x020, [], [⟨0, 6, .ro, 0⟩]⟩,
  -- PAGE_WRITES: COUNT (R352)
  ⟨0xF08, [], [⟨0, 31, .rc, 0⟩]⟩,
  -- REFUSED: COUNT (R356)
  ⟨0xF0C, [], [⟨0, 31, .rc, 0⟩]⟩,
  -- BAD_PAGES: COUNT (R353)
  ⟨0xF10, [], [⟨0, 31, .rc, 0⟩]⟩]

/-- The registers of the RTC page. -/
def rowsRTC : List RegRow := [
  -- STATUS: VALID, CAL_REJECT, CENTURY_WRAP, ALARM (R365)
  ⟨0x00C, [], [⟨0, 0, .ro, 0⟩, ⟨1, 1, .w1c, 0⟩, ⟨2, 2, .w1c, 0⟩, ⟨3, 3, .w1c, 0⟩]⟩,
  -- TIME: HUND, SEC, MIN, HOUR (R363)
  ⟨0x020, [], [⟨0, 7, .ro, 0⟩, ⟨8, 15, .ro, 0⟩, ⟨16, 23, .ro, 0⟩, ⟨24, 31, .ro, 0⟩]⟩,
  -- DATE: DAY, MONTH, WDAY, YEAR (R363)
  ⟨0x024, [], [⟨0, 7, .ro, 0x01⟩, ⟨8, 12, .ro, 0x01⟩, ⟨13, 15, .ro, 6⟩, ⟨16, 31, .ro, 0x2000⟩]⟩,
  -- SET_TIME: HUND, SEC, MIN, HOUR (R364)
  ⟨0x028, [], [⟨0, 7, .rw, 0⟩, ⟨8, 15, .rw, 0⟩, ⟨16, 23, .rw, 0⟩, ⟨24, 31, .rw, 0⟩]⟩,
  -- SET_DATE: DAY, MONTH, YEAR (R364)
  ⟨0x02C, [], [⟨0, 7, .rw, 0x01⟩, ⟨8, 12, .rw, 0x01⟩, ⟨16, 31, .rw, 0x2000⟩]⟩,
  -- CMD: COMMIT (R364)
  ⟨0x030, [], [⟨0, 0, .wo, 0⟩]⟩,
  -- ALARM: TIME (R366)
  ⟨0x034, [], [⟨0, 31, .rw, 0⟩]⟩,
  -- ALARM_CTRL: MATCH, IE_ALARM, IE_FLAGS (R366)
  ⟨0x038, [], [⟨0, 3, .rw, 0⟩, ⟨8, 8, .rw, 0⟩, ⟨9, 9, .rw, 0⟩]⟩,
  -- TRIM: TRIM (R362)
  ⟨0x03C, [], [⟨0, 7, .rw, 0⟩]⟩,
  -- COMMITS: COUNT (R364)
  ⟨0xF08, [], [⟨0, 31, .rc, 0⟩]⟩,
  -- REJECTS: COUNT (R364)
  ⟨0xF0C, [], [⟨0, 31, .rc, 0⟩]⟩]

/-- The registers of the FWU page. -/
def rowsFWU : List RegRow := [
  -- STATUS: PHASE, RESULT, STANDBY_READY, NOTICE (R385)
  ⟨0x00C, [], [⟨0, 3, .ro, 0⟩, ⟨8, 15, .ro, 0⟩, ⟨16, 16, .ro, 0⟩, ⟨17, 17, .w1c, 0⟩]⟩,
  -- CMD: OP (R376)
  ⟨0x020, [], [⟨0, 3, .wo, 0⟩]⟩,
  -- STAGE_LEN: LEN (R376)
  ⟨0x024, [], [⟨0, 24, .rw, 0⟩]⟩,
  -- RECEIVED: BYTES (R377)
  ⟨0x028, [], [⟨0, 24, .ro, 0⟩]⟩,
  -- TRIAL_S: SECONDS (R381)
  ⟨0x02C, [], [⟨0, 15, .rw, 600⟩]⟩,
  -- ACTIVE_VER: VERSION (R373)
  ⟨0x030, [], [⟨0, 31, .ro, 0⟩]⟩,
  -- PREVIOUS_VER: VERSION (R373)
  ⟨0x034, [], [⟨0, 31, .ro, 0⟩]⟩,
  -- STAGED_VER: VERSION (R377)
  ⟨0x038, [], [⟨0, 31, .ro, 0⟩]⟩,
  -- SLOTS: ACTIVE, PREVIOUS, STAGING (R378)
  ⟨0x03C, [], [⟨0, 1, .ro, 0⟩, ⟨4, 5, .ro, 1⟩, ⟨8, 9, .ro, 2⟩]⟩,
  -- HW_REV: REV (R375)
  ⟨0x040, [], [⟨0, 15, .ro, 0⟩]⟩,
  -- SERIAL_LO: SERIAL (R375)
  ⟨0x044, [], [⟨0, 31, .ro, 0⟩]⟩,
  -- SERIAL_HI: SERIAL (R375)
  ⟨0x048, [], [⟨0, 31, .ro, 0⟩]⟩,
  -- CHUNK_REJECT: COUNT (R377)
  ⟨0xF08, [], [⟨0, 31, .rc, 0⟩]⟩,
  -- CMD_REJECT: COUNT (R376)
  ⟨0xF0C, [], [⟨0, 31, .rc, 0⟩]⟩,
  -- VERIFY_FAILS: COUNT (R377)
  ⟨0xF10, [], [⟨0, 31, .rc, 0⟩]⟩,
  -- SWAPS: COUNT (R378)
  ⟨0xF14, [], [⟨0, 31, .rc, 0⟩]⟩,
  -- ROLLBACKS: COUNT (R381)
  ⟨0xF18, [], [⟨0, 31, .rc, 0⟩]⟩]

/-- The registers of the LAN page. -/
def rowsLAN : List RegRow := [
  -- SEL: SOURCE, CAPABLE, EN (R305)
  ⟨0x020, [(0x4, 32)], [⟨0, 8, .rw, 0⟩, ⟨14, 14, .ro, 0⟩, ⟨15, 15, .rw, 0⟩]⟩,
  -- CAUSE: SOURCE, VALID, SEL (R307)
  ⟨0x0A0, [], [⟨0, 8, .ro, 0⟩, ⟨15, 15, .w1c, 0⟩, ⟨16, 20, .ro, 0⟩]⟩,
  -- HIT: HIT (R307)
  ⟨0x0A4, [], [⟨0, 31, .w1c, 0⟩]⟩,
  -- DORMANT_WAKES: COUNT (R307)
  ⟨0x0A8, [], [⟨0, 15, .ro, 0⟩]⟩]

/-- The registers of the PNL page. -/
def rowsPNL : List RegRow := [
  -- STATUS: BUSY, PENDING, RECOVERING, INTERRUPTED (R369)
  ⟨0x00C, [], [⟨0, 0, .ro, 0⟩, ⟨1, 1, .ro, 0⟩, ⟨2, 2, .ro, 0⟩, ⟨3, 3, .w1c, 0⟩]⟩,
  -- CMD: UPDATE (R369)
  ⟨0x020, [], [⟨0, 0, .wo, 0⟩]⟩,
  -- TEXT: CHARS (R369)
  ⟨0x100, [(0x28, 8)], [⟨0, 295, .rw, 0⟩]⟩,
  -- UPDATES: COUNT (R369)
  ⟨0xF08, [], [⟨0, 31, .rc, 0⟩]⟩,
  -- INTERRUPTED_UPDATES: COUNT (R371)
  ⟨0xF0C, [], [⟨0, 31, .rc, 0⟩]⟩]

/-- The registers of the MIQ page. -/
def rowsMIQ : List RegRow := [
  -- PEND: PEND (R300)
  ⟨0x020, [(0x4, 16)], [⟨0, 31, .ro, 0⟩]⟩,
  -- TH: TH_SUPA, TH_SUPB, TH_EVENT (R302)
  ⟨0x060, [], [⟨0, 2, .ro, 0⟩, ⟨4, 6, .ro, 0⟩, ⟨8, 10, .rw, 0⟩]⟩,
  -- SRC: PRIO, TARGET, VECTOR, LEVEL (R300)
  ⟨0x100, [(0x4, 512)], [⟨0, 2, .rw, 0⟩, ⟨4, 5, .rw, 0⟩, ⟨8, 13, .rw, 0⟩, ⟨31, 31, .ro, 0⟩]⟩,
  -- EVENTS_SENT: COUNT (R301)
  ⟨0xF08, [], [⟨0, 31, .rc, 0⟩]⟩]

/-- The registers of the MTM page. -/
def rowsMTM : List RegRow := [
  -- CTRL: RESTART (R317)
  ⟨0x008, [], [⟨6, 6, .wo, 0⟩]⟩,
  -- STATUS: CH_PEND, UPD_PENDING (R319)
  ⟨0x00C, [], [⟨0, 7, .ro, 0⟩, ⟨8, 8, .ro, 0⟩]⟩,
  -- CLK: N, F, SRC (R317)
  ⟨0x020, [], [⟨0, 15, .rw, 1⟩, ⟨16, 23, .rw, 0⟩, ⟨24, 27, .rw, 0⟩]⟩,
  -- PERIOD_LO: PERIOD (R319)
  ⟨0x024, [], [⟨0, 31, .rw, 0xFFFFFFFF⟩]⟩,
  -- PERIOD_HI: PERIOD (R319)
  ⟨0x028, [], [⟨0, 15, .rw, 0xFFFF⟩]⟩,
  -- COUNT_LO: COUNT (R318)
  ⟨0x02C, [], [⟨0, 31, .ro, 0⟩]⟩,
  -- COUNT_HI: COUNT (R318)
  ⟨0x030, [], [⟨0, 15, .ro, 0⟩]⟩,
  -- CH_CTRL: MODE, EDGE, POL, IE, FILT, PRESC (R320)
  ⟨0x100, [(0x40, 8)], [⟨0, 1, .rw, 0⟩, ⟨2, 3, .rw, 0⟩, ⟨4, 4, .rw, 0⟩, ⟨8, 10, .rw, 0⟩, ⟨16, 23, .rw, 0⟩, ⟨24, 31, .rw, 0⟩]⟩,
  -- FLAGS: CAP, OVR, CYC (R320)
  ⟨0x104, [(0x40, 8)], [⟨0, 0, .w1c, 0⟩, ⟨1, 1, .w1c, 0⟩, ⟨2, 2, .w1c, 0⟩]⟩,
  -- CAP_LO: CAP (R320)
  ⟨0x108, [(0x40, 8)], [⟨0, 31, .ro, 0⟩]⟩,
  -- CAP_HI: CAP (R320)
  ⟨0x10C, [(0x40, 8)], [⟨0, 15, .ro, 0⟩]⟩,
  -- FALL_LO: FALL (R321)
  ⟨0x110, [(0x40, 8)], [⟨0, 31, .ro, 0⟩]⟩,
  -- FALL_HI: FALL (R321)
  ⟨0x114, [(0x40, 8)], [⟨0, 15, .ro, 0⟩]⟩,
  -- WIDTH_LO: WIDTH (R321)
  ⟨0x118, [(0x40, 8)], [⟨0, 31, .ro, 0⟩]⟩,
  -- WIDTH_HI: WIDTH (R321)
  ⟨0x11C, [(0x40, 8)], [⟨0, 15, .ro, 0⟩]⟩,
  -- DUTY_LO: DUTY (R322)
  ⟨0x120, [(0x40, 8)], [⟨0, 31, .rw, 0⟩]⟩,
  -- DUTY_HI: DUTY (R322)
  ⟨0x124, [(0x40, 8)], [⟨0, 15, .rw, 0⟩]⟩,
  -- PHASE_LO: PHASE (R322)
  ⟨0x128, [(0x40, 8)], [⟨0, 31, .rw, 0⟩]⟩,
  -- PHASE_HI: PHASE (R322)
  ⟨0x12C, [(0x40, 8)], [⟨0, 15, .rw, 0⟩]⟩,
  -- CAPTURES: COUNT (R320)
  ⟨0xF08, [], [⟨0, 31, .rc, 0⟩]⟩,
  -- OVERRUNS: COUNT (R320)
  ⟨0xF0C, [], [⟨0, 31, .rc, 0⟩]⟩]

/-- The registers of the FIO page. -/
def rowsFIO : List RegRow := [
  -- STATUS: MUX_CONFLICT, BAD_FUNC (R325)
  ⟨0x00C, [], [⟨0, 0, .ro, 0⟩, ⟨1, 1, .ro, 0⟩]⟩,
  -- OUT: OUT (R328)
  ⟨0x020, [], [⟨0, 31, .rw, 0⟩]⟩,
  -- OE: OE (R328)
  ⟨0x024, [], [⟨0, 31, .rw, 0⟩]⟩,
  -- IN: IN (R326)
  ⟨0x028, [], [⟨0, 31, .ro, 0⟩]⟩,
  -- IRQ_FLAG: FLAG (R329)
  ⟨0x02C, [], [⟨0, 31, .w1c, 0⟩]⟩,
  -- CONFLICT: CONFLICT (R325)
  ⟨0x030, [], [⟨0, 31, .ro, 0⟩]⟩,
  -- SLEEP_LO: SLEEP (R330)
  ⟨0x034, [], [⟨0, 31, .rw, 0⟩]⟩,
  -- SLEEP_HI: SLEEP (R330)
  ⟨0x038, [], [⟨0, 31, .rw, 0⟩]⟩,
  -- PINCFG: FUNC, SEL, PULL, DRIVE, OD, SLOW, IRQ (R324)
  ⟨0x100, [(0x4, 32)], [⟨0, 3, .rw, 0⟩, ⟨4, 12, .rw, 0⟩, ⟨14, 15, .rw, 0⟩, ⟨16, 17, .rw, 0⟩, ⟨18, 18, .rw, 0⟩, ⟨19, 19, .rw, 0⟩, ⟨20, 22, .rw, 0⟩]⟩,
  -- EDGES: COUNT (R329)
  ⟨0xF08, [], [⟨0, 31, .rc, 0⟩]⟩]

/-- The registers of the PIO page. -/
def rowsPIO : List RegRow := [
  -- STATUS: ANY_RUN (R336)
  ⟨0x00C, [], [⟨0, 0, .ro, 0⟩]⟩,
  -- GROUP_START: START (R336)
  ⟨0x020, [], [⟨0, 31, .wo, 0⟩]⟩,
  -- GROUP_STOP: STOP (R336)
  ⟨0x024, [], [⟨0, 31, .wo, 0⟩]⟩,
  -- CLK_RESTART: RESTART (R336)
  ⟨0x028, [], [⟨0, 31, .wo, 0⟩]⟩,
  -- RUN: RUN (R336)
  ⟨0x02C, [], [⟨0, 31, .ro, 0⟩]⟩,
  -- IMEM: ENTRY (R333)
  ⟨0x100, [(0x4, 512)], [⟨0, 31, .rw, 0⟩]⟩,
  -- CH_CFG: BASE, LEN_M1 (R333)
  ⟨0x900, [(0x30, 32)], [⟨0, 9, .rw, 0⟩, ⟨10, 14, .rw, 0⟩]⟩,
  -- DIV: N, F (R332)
  ⟨0x904, [(0x30, 32)], [⟨0, 15, .rw, 1⟩, ⟨16, 23, .rw, 0⟩]⟩,
  -- TXF: DATA (R335)
  ⟨0x908, [(0x30, 32)], [⟨0, 31, .wo, 0⟩]⟩,
  -- RXF: DATA (R335)
  ⟨0x90C, [(0x30, 32)], [⟨0, 31, .ro, 0⟩]⟩,
  -- FSTAT: TX_LEVEL, RX_LEVEL (R335)
  ⟨0x910, [(0x30, 32)], [⟨0, 2, .ro, 0⟩, ⟨4, 6, .ro, 0⟩]⟩,
  -- FLAGS: STALE, DROP, TX_OVF, RX_EMPTY, BAD_INSTR (R334)
  ⟨0x914, [(0x30, 32)], [⟨0, 0, .w1c, 0⟩, ⟨1, 1, .w1c, 0⟩, ⟨2, 2, .w1c, 0⟩, ⟨3, 3, .w1c, 0⟩, ⟨4, 4, .w1c, 0⟩]⟩,
  -- IE: FLAGS_IE, TX_ROOM_IE, RX_DATA_IE (R337)
  ⟨0x918, [(0x30, 32)], [⟨0, 4, .rw, 0⟩, ⟨5, 5, .rw, 0⟩, ⟨6, 6, .rw, 0⟩]⟩,
  -- PC: OFFSET, WAITING (R333)
  ⟨0x91C, [(0x30, 32)], [⟨0, 4, .ro, 0⟩, ⟨8, 8, .ro, 0⟩]⟩,
  -- K0: COUNT (R334)
  ⟨0x920, [(0x30, 32)], [⟨0, 15, .ro, 0⟩]⟩,
  -- K1: COUNT (R334)
  ⟨0x924, [(0x30, 32)], [⟨0, 15, .ro, 0⟩]⟩,
  -- SHIFT: TX_COUNT, RX_COUNT (R334)
  ⟨0x928, [(0x30, 32)], [⟨0, 5, .ro, 0⟩, ⟨8, 13, .ro, 0⟩]⟩,
  -- STALE_PULLS: COUNT (R334)
  ⟨0xF08, [], [⟨0, 31, .rc, 0⟩]⟩,
  -- DROPPED_PUSHES: COUNT (R334)
  ⟨0xF0C, [], [⟨0, 31, .rc, 0⟩]⟩,
  -- TX_OVERFLOWS: COUNT (R335)
  ⟨0xF10, [], [⟨0, 31, .rc, 0⟩]⟩]

/-- The registers of the TBS page. -/
def rowsTBS : List RegRow := [
  -- TB_LINE: LINE_TICKS (R56)
  ⟨0x020, [(0x20, 4)], [⟨0, 12, .rw, 3175⟩]⟩,
  -- TB_FMT: LINES, VIS_LINES (R56)
  ⟨0x024, [(0x20, 4)], [⟨0, 9, .rw, 525⟩, ⟨16, 25, .rw, 480⟩]⟩,
  -- TB_VBLANK: VBLANK_START (R56)
  ⟨0x028, [(0x20, 4)], [⟨0, 9, .rw, 480⟩]⟩,
  -- TB_ORIGIN_LO: ORIGIN (R56)
  ⟨0x02C, [(0x20, 4)], [⟨0, 31, .rw, 0⟩]⟩,
  -- TB_ORIGIN_HI: ORIGIN (R56)
  ⟨0x030, [(0x20, 4)], [⟨0, 31, .rw, 0⟩]⟩,
  -- TB_CTL: RUN, COMMIT (R59)
  ⟨0x034, [(0x20, 4)], [⟨0, 0, .rw, 0⟩, ⟨1, 1, .wo, 0⟩]⟩,
  -- TB_STAT: RUNNING, LOCKED, REJECT, REJECT_CODE, BOUND (R59)
  ⟨0x038, [(0x20, 4)], [⟨0, 0, .ro, 0⟩, ⟨1, 1, .ro, 0⟩, ⟨2, 2, .w1c, 0⟩, ⟨4, 6, .ro, 0⟩, ⟨16, 26, .ro, 0⟩]⟩,
  -- TB_FRAME_NO: FRAME (R57)
  ⟨0x03C, [(0x20, 4)], [⟨0, 31, .ro, 0⟩]⟩]

/-- The registers of the PSH page. -/
def rowsPSH : List RegRow := [
  -- STATUS: BUSY, STACK0_SR, STACK1_SR (R205)
  ⟨0x00C, [], [⟨0, 0, .ro, 0⟩, ⟨1, 1, .ro, 0⟩, ⟨2, 2, .ro, 0⟩]⟩,
  -- CFG: ETHERTYPE (R187)
  ⟨0x020, [], [⟨0, 15, .rw, 0x88B5⟩]⟩,
  -- TX_MARGIN: MARGIN (R204)
  ⟨0x024, [], [⟨0, 15, .rw, 500⟩]⟩,
  -- SR_CTRL: SR_EN, SR_MARGIN (R205)
  ⟨0x028, [], [⟨0, 0, .rw, 0⟩, ⟨16, 31, .rw, 20⟩]⟩,
  -- MIN_SLACK: SLACK (R204)
  ⟨0x02C, [], [⟨0, 23, .ro, 0xFFFFFF⟩]⟩,
  -- SINK_CTRL: EN, SWAP, FMT, TDM_PAIR, LOOKAHEAD, DELAY_MS, ACTIVE_B, SWAP_PENDING (R227)
  ⟨0x100, [(0x100, 8)], [⟨0, 0, .rw, 0⟩, ⟨1, 1, .wo, 0⟩, ⟨2, 3, .rw, 0⟩, ⟨4, 6, .rw, 0⟩, ⟨7, 7, .rw, 1⟩, ⟨8, 11, .rw, 2⟩, ⟨16, 16, .ro, 0⟩, ⟨17, 17, .ro, 0⟩]⟩,
  -- SET_A: HEADROOM, LIM_TH, LIM_REL (R226)
  ⟨0x104, [(0x100, 8)], [⟨0, 2, .rw, 1⟩, ⟨8, 15, .rw, 0xFF⟩, ⟨16, 18, .rw, 2⟩]⟩,
  -- SET_B: HEADROOM, LIM_TH, LIM_REL (R226)
  ⟨0x108, [(0x100, 8)], [⟨0, 2, .rw, 1⟩, ⟨8, 15, .rw, 0xFF⟩, ⟨16, 18, .rw, 2⟩]⟩,
  -- SRC_A: TENANT, PATH, GAIN, SRC_EN (R226)
  ⟨0x110, [(0x100, 8), (0x4, 16)], [⟨0, 9, .rw, 0⟩, ⟨10, 10, .rw, 0⟩, ⟨16, 23, .rw, 0x80⟩, ⟨31, 31, .rw, 0⟩]⟩,
  -- SRC_B: TENANT, PATH, GAIN, SRC_EN (R226)
  ⟨0x150, [(0x100, 8), (0x4, 16)], [⟨0, 9, .rw, 0⟩, ⟨10, 10, .rw, 0⟩, ⟨16, 23, .rw, 0x80⟩, ⟨31, 31, .rw, 0⟩]⟩,
  -- REGIONS_SENT: COUNT (R181)
  ⟨0xF08, [], [⟨0, 31, .rc, 0⟩]⟩,
  -- SWEEP_REGIONS: COUNT (R182)
  ⟨0xF0C, [], [⟨0, 31, .rc, 0⟩]⟩,
  -- STALE_DISCARDS: COUNT (R200)
  ⟨0xF10, [], [⟨0, 31, .rc, 0⟩]⟩,
  -- ABSENT_DISCARDS: COUNT (R200)
  ⟨0xF14, [], [⟨0, 31, .rc, 0⟩]⟩,
  -- PORT_DOWN_DISCARDS: COUNT (R200)
  ⟨0xF18, [], [⟨0, 31, .rc, 0⟩]⟩,
  -- LATE_AUDIO: COUNT (R200)
  ⟨0xF1C, [], [⟨0, 31, .rc, 0⟩]⟩,
  -- RESYNC_REQS: COUNT (R193)
  ⟨0xF20, [], [⟨0, 31, .rc, 0⟩]⟩,
  -- BAD_RX: COUNT (R188)
  ⟨0xF24, [], [⟨0, 31, .rc, 0⟩]⟩,
  -- DUP_RX: COUNT (R196)
  ⟨0xF28, [], [⟨0, 31, .rc, 0⟩]⟩,
  -- SINK_SLIPS: COUNT (R225)
  ⟨0xF2C, [(0x4, 8)], [⟨0, 31, .rc, 0⟩]⟩,
  -- SINK_SET_REJECT: COUNT (R227)
  ⟨0xF4C, [], [⟨0, 31, .rc, 0⟩]⟩]

/-- The registers of the PTP page. -/
def rowsPTP : List RegRow := [
  -- CFG: DOMAIN, PRIORITY1, PRIORITY2, LOG_SYNC, LOG_ANNOUNCE (R203)
  ⟨0x020, [], [⟨0, 7, .rw, 0⟩, ⟨8, 15, .rw, 128⟩, ⟨16, 23, .rw, 128⟩, ⟨24, 27, .rw, 0xD⟩, ⟨28, 31, .rw, 0⟩]⟩,
  -- TIME_LO: TIME (R203)
  ⟨0x024, [], [⟨0, 31, .ro, 0⟩]⟩,
  -- TIME_HI: TIME (R203)
  ⟨0x028, [], [⟨0, 31, .ro, 0⟩]⟩,
  -- SYNC_SENT: COUNT (R203)
  ⟨0xF08, [], [⟨0, 31, .rc, 0⟩]⟩,
  -- DELAY_RESP_SENT: COUNT (R203)
  ⟨0xF0C, [], [⟨0, 31, .rc, 0⟩]⟩,
  -- FOREIGN_ANNOUNCE: COUNT (R203)
  ⟨0xF10, [], [⟨0, 31, .rc, 0⟩]⟩]

/-- The registers of the STN page. -/
def rowsSTN : List RegRow := [
  -- STATUS: CHG (R206)
  ⟨0x00C, [], [⟨0, 0, .w1c, 0⟩]⟩,
  -- ENT_CTRL: EN, DUAL, HOLD_POLICY, SLOT, PRESENT_DELAY, FORCE_RESYNC, TENANT (R206)
  ⟨0x100, [(0x38, 64)], [⟨0, 0, .rw, 0⟩, ⟨1, 1, .rw, 0⟩, ⟨2, 2, .rw, 0⟩, ⟨4, 5, .rw, 0⟩, ⟨6, 7, .rw, 1⟩, ⟨8, 8, .wo, 0⟩, ⟨16, 25, .rw, 0⟩]⟩,
  -- PORTS: PORT_A, PORT_B, ACTIVE_B, VID (R206)
  ⟨0x104, [(0x38, 64)], [⟨0, 3, .rw, 0⟩, ⟨4, 7, .rw, 0⟩, ⟨8, 8, .ro, 0⟩, ⟨16, 27, .rw, 0⟩]⟩,
  -- MAC_LO: MAC (R206)
  ⟨0x108, [(0x38, 64)], [⟨0, 31, .rw, 0⟩]⟩,
  -- MAC_HI: MAC (R206)
  ⟨0x10C, [(0x38, 64)], [⟨0, 15, .rw, 0⟩]⟩,
  -- REFRESH: REFRESH_PERIOD, SWEEP_PTR (R182)
  ⟨0x110, [(0x38, 64)], [⟨0, 15, .rw, 600⟩, ⟨16, 31, .ro, 0⟩]⟩,
  -- STATE: STATE, FULL_PENDING, LINK_RX (R206)
  ⟨0x114, [(0x38, 64)], [⟨0, 1, .ro, 0⟩, ⟨2, 2, .ro, 0⟩, ⟨3, 4, .ro, 0⟩]⟩,
  -- TX_SEQ: SEQ (R192)
  ⟨0x118, [(0x38, 64)], [⟨0, 31, .ro, 0⟩]⟩,
  -- RX_SEQ: SEQ (R196)
  ⟨0x11C, [(0x38, 64)], [⟨0, 31, .ro, 0⟩]⟩,
  -- LAST_PRESENTED: FRAME (R206)
  ⟨0x120, [(0x38, 64)], [⟨0, 31, .ro, 0⟩]⟩,
  -- RESYNCS: COUNT (R206)
  ⟨0x124, [(0x38, 64)], [⟨0, 31, .rc, 0⟩]⟩,
  -- STALE_RX: COUNT (R196)
  ⟨0x128, [(0x38, 64)], [⟨0, 31, .rc, 0⟩]⟩,
  -- LATE_PRESENTS: COUNT (R206)
  ⟨0x12C, [(0x38, 64)], [⟨0, 31, .rc, 0⟩]⟩,
  -- GAPS: COUNT (R206)
  ⟨0x130, [(0x38, 64)], [⟨0, 31, .rc, 0⟩]⟩,
  -- ENT_REJECT: COUNT (R206)
  ⟨0xF08, [], [⟨0, 31, .rc, 0⟩]⟩]

/-- The registers of the SEC page. -/
def rowsSEC : List RegRow := [
  -- STATUS: RING_A_UP, RING_B_UP, DMA_STOPPED, ENG_SERVICE (R24)
  ⟨0x00C, [], [⟨0, 0, .ro, 0⟩, ⟨1, 1, .ro, 0⟩, ⟨2, 2, .ro, 0⟩, ⟨8, 16, .ro, 0⟩]⟩,
  -- RING_A: STATE, LAST_CAUSE, FAULT_COUNT (R24)
  ⟨0x020, [], [⟨0, 1, .ro, 3⟩, ⟨8, 15, .ro, 0⟩, ⟨16, 23, .ro, 0⟩]⟩,
  -- RING_B: STATE, LAST_CAUSE, FAULT_COUNT (R24)
  ⟨0x024, [], [⟨0, 1, .ro, 3⟩, ⟨8, 15, .ro, 0⟩, ⟨16, 23, .ro, 0⟩]⟩,
  -- CREDIT_OVER: COUNT (R21)
  ⟨0xF08, [], [⟨0, 31, .rc, 0⟩]⟩,
  -- RING_FAULTS: COUNT (R24)
  ⟨0xF0C, [], [⟨0, 31, .rc, 0⟩]⟩,
  -- FLITS_A: COUNT (R24)
  ⟨0xF10, [], [⟨0, 31, .rc, 0⟩]⟩,
  -- FLITS_B: COUNT (R24)
  ⟨0xF14, [], [⟨0, 31, .rc, 0⟩]⟩]

/-- The registers of the SBLT page. -/
def rowsSBLT : List RegRow := [
  -- STATUS: IDLE, STAGING (R241)
  ⟨0x00C, [], [⟨0, 0, .ro, 1⟩, ⟨1, 1, .ro, 0⟩]⟩,
  -- ACTIVE: TRAILS (R243)
  ⟨0x020, [], [⟨0, 7, .ro, 0⟩]⟩,
  -- PIXELS: COUNT (R236)
  ⟨0xF08, [], [⟨0, 31, .rc, 0⟩]⟩,
  -- STAGED: COUNT (R241)
  ⟨0xF0C, [], [⟨0, 31, .rc, 0⟩]⟩,
  -- WRITE_STALLS: COUNT (R17)
  ⟨0xF10, [], [⟨0, 31, .rc, 0⟩]⟩]

/-- The registers of the SDMA page. -/
def rowsSDMA : List RegRow := [
  -- STATUS: STOPPED, RESTARTING (R249)
  ⟨0x00C, [], [⟨0, 0, .ro, 0⟩, ⟨1, 1, .ro, 0⟩]⟩,
  -- CH: TENANT, TCH, BUSY, TERMINATED (R246)
  ⟨0x020, [(0x4, 16)], [⟨0, 9, .ro, 0⟩, ⟨10, 10, .ro, 0⟩, ⟨11, 11, .ro, 0⟩, ⟨12, 12, .ro, 0⟩]⟩,
  -- BUS_ERRORS: COUNT (R249)
  ⟨0xF08, [], [⟨0, 31, .rc, 0⟩]⟩,
  -- RESTARTS: COUNT (R249)
  ⟨0xF0C, [], [⟨0, 31, .rc, 0⟩]⟩,
  -- TERMINATIONS: COUNT (R249)
  ⟨0xF10, [], [⟨0, 31, .rc, 0⟩]⟩]

/-- The registers of the CMP page. -/
def rowsCMP : List RegRow := [
  -- STATUS: IDLE, RELEASE_WAIT, PUSH_FULL (R177)
  ⟨0x00C, [], [⟨0, 0, .ro, 1⟩, ⟨1, 1, .ro, 0⟩, ⟨2, 2, .ro, 0⟩]⟩,
  -- LINES_QUEUED: LINES (R163)
  ⟨0x020, [], [⟨0, 9, .ro, 0⟩]⟩,
  -- LINES: COUNT (R168)
  ⟨0xF08, [], [⟨0, 31, .rc, 0⟩]⟩,
  -- RELEASE_STALLS: COUNT (R177)
  ⟨0xF0C, [], [⟨0, 31, .rc, 0⟩]⟩,
  -- OVL_ERRORS: COUNT (R175)
  ⟨0xF10, [], [⟨0, 31, .rc, 0⟩]⟩]

/-- The registers of the ENG page. -/
def rowsENG : List RegRow := [
  -- STATUS: LOCKED, INTERNAL_ERR, HB_IDLE, READY_CTX (R25)
  ⟨0x00C, [], [⟨0, 0, .ro, 0⟩, ⟨1, 1, .ro, 0⟩, ⟨2, 2, .ro, 0⟩, ⟨8, 12, .ro, 0⟩]⟩,
  -- CTX: TENANT, OCC, WAITING_ON (R25)
  ⟨0x020, [(0x4, 20)], [⟨0, 9, .ro, 0⟩, ⟨10, 10, .ro, 0⟩, ⟨12, 14, .ro, 7⟩]⟩,
  -- LOAD: VIDEO_PCT, SOUND_PCT, BARREL_PCT (R25)
  ⟨0x070, [], [⟨0, 7, .ro, 0⟩, ⟨8, 15, .ro, 0⟩, ⟨16, 23, .ro, 0⟩]⟩,
  -- ISSUED: COUNT (R25)
  ⟨0xF08, [], [⟨0, 31, .rc, 0⟩]⟩,
  -- LATE_LINES: COUNT (R25)
  ⟨0xF0C, [], [⟨0, 31, .rc, 0⟩]⟩,
  -- CACHE_MISSES: COUNT (R25)
  ⟨0xF10, [], [⟨0, 31, .rc, 0⟩]⟩,
  -- HEARTBEATS: COUNT (R25)
  ⟨0xF14, [], [⟨0, 31, .rc, 0⟩]⟩]

/-- The registers of the BNK page. -/
def rowsBNK : List RegRow := [
  -- STATUS: SCRUBBING, RETAINED, CLEARING, CLEAR_DONE (R262)
  ⟨0x00C, [], [⟨0, 0, .ro, 0⟩, ⟨1, 1, .ro, 0⟩, ⟨2, 2, .ro, 0⟩, ⟨3, 3, .ro, 0⟩]⟩,
  -- SCRUB_CTRL: SCRUB_EN, SCRUB_MS (R259)
  ⟨0x020, [], [⟨0, 0, .rw, 0⟩, ⟨8, 15, .rw, 10⟩]⟩,
  -- GRAFT_LEFT_LO: LEFT (R260)
  ⟨0x024, [], [⟨0, 31, .ro, 0⟩]⟩,
  -- GRAFT_LEFT_HI: LEFT (R260)
  ⟨0x028, [], [⟨0, 31, .ro, 0⟩]⟩,
  -- CE_ADDR: ADDR (R258)
  ⟨0x02C, [], [⟨0, 21, .ro, 0⟩]⟩,
  -- UE_ADDR: ADDR, VALID (R258)
  ⟨0x030, [], [⟨0, 21, .ro, 0⟩, ⟨31, 31, .w1c, 0⟩]⟩,
  -- CE_COUNT: COUNT (R258)
  ⟨0xF08, [], [⟨0, 31, .rc, 0⟩]⟩,
  -- UE_COUNT: COUNT (R258)
  ⟨0xF0C, [], [⟨0, 31, .rc, 0⟩]⟩,
  -- CONF_VIDEO: COUNT (R257)
  ⟨0xF10, [], [⟨0, 31, .rc, 0⟩]⟩,
  -- CONF_SOUND: COUNT (R257)
  ⟨0xF14, [], [⟨0, 31, .rc, 0⟩]⟩,
  -- CONF_MIRROR: COUNT (R257)
  ⟨0xF18, [], [⟨0, 31, .rc, 0⟩]⟩,
  -- CONF_FABRIC: COUNT (R257)
  ⟨0xF1C, [], [⟨0, 31, .rc, 0⟩]⟩,
  -- CONF_CPU: COUNT (R257)
  ⟨0xF20, [], [⟨0, 31, .rc, 0⟩]⟩,
  -- CONF_DMA: COUNT (R257)
  ⟨0xF24, [], [⟨0, 31, .rc, 0⟩]⟩,
  -- CONF_BLITTER: COUNT (R257)
  ⟨0xF28, [], [⟨0, 31, .rc, 0⟩]⟩,
  -- SCRUB_PASSES: COUNT (R259)
  ⟨0xF2C, [], [⟨0, 31, .rc, 0⟩]⟩]

/-- The registers of the RNG page. -/
def rowsRNG : List RegRow := [
  -- STATUS: ESTATE, HOME_USED, MIRRORS_USED, TAKEOVER_USED (R284)
  ⟨0x00C, [], [⟨0, 2, .ro, 7⟩, ⟨8, 12, .ro, 0⟩, ⟨16, 20, .ro, 0⟩, ⟨24, 26, .ro, 0⟩]⟩,
  -- FAULT: CAUSE, COUNT (R293)
  ⟨0x020, [], [⟨0, 3, .ro, 0⟩, ⟨8, 15, .ro, 0⟩]⟩,
  -- HOME: TENANT, OCC, MSLOT, MWARM (R281)
  ⟨0x040, [(0x4, 16)], [⟨0, 9, .ro, 0⟩, ⟨10, 10, .ro, 0⟩, ⟨16, 26, .ro, 0⟩, ⟨27, 27, .ro, 0⟩]⟩,
  -- MIRROR: TENANT, OCC, MSTATE, HSLOT (R280)
  ⟨0x080, [(0x4, 16)], [⟨0, 9, .ro, 0⟩, ⟨10, 10, .ro, 0⟩, ⟨11, 12, .ro, 0⟩, ⟨16, 26, .ro, 0⟩]⟩,
  -- TAKEOVER: TENANT, BUSY, MIRROR (R286)
  ⟨0x0C0, [(0x4, 4)], [⟨0, 9, .ro, 0⟩, ⟨10, 10, .ro, 0⟩, ⟨16, 19, .ro, 0⟩]⟩,
  -- RINGS: COUNT (R275)
  ⟨0xF08, [], [⟨0, 31, .rc, 0⟩]⟩,
  -- PRESSURE_RINGS: COUNT (R278)
  ⟨0xF0C, [], [⟨0, 31, .rc, 0⟩]⟩,
  -- SUPPRESSED: COUNT (R289)
  ⟨0xF10, [], [⟨0, 31, .rc, 0⟩]⟩,
  -- PROMOTIONS: COUNT (R286)
  ⟨0xF14, [], [⟨0, 31, .rc, 0⟩]⟩,
  -- COLD_MIRRORS: COUNT (R278)
  ⟨0xF18, [], [⟨0, 31, .rc, 0⟩]⟩]

/-- The registers of the PRT page. -/
def rowsPRT : List RegRow := [
  -- STATUS: LINK_UP, SFP_PRESENT, SFP_LOS, FEC_LOCK, TX_FAULT, CHG (R418)
  ⟨0x00C, [], [⟨0, 0, .ro, 0⟩, ⟨1, 1, .ro, 0⟩, ⟨2, 2, .ro, 0⟩, ⟨3, 3, .ro, 0⟩, ⟨4, 4, .ro, 0⟩, ⟨8, 8, .w1c, 0⟩]⟩,
  -- CFG: SPEED25, RSFEC, TX_ON, PTP_EN, PCP, PTP_VID (R201)
  ⟨0x020, [], [⟨0, 0, .rw, 0⟩, ⟨1, 1, .rw, 0⟩, ⟨2, 2, .rw, 0⟩, ⟨3, 3, .rw, 0⟩, ⟨4, 6, .rw, 0⟩, ⟨16, 27, .rw, 0⟩]⟩,
  -- MAC_LO: MAC (R201)
  ⟨0x024, [], [⟨0, 31, .ro, 0⟩]⟩,
  -- MAC_HI: MAC (R201)
  ⟨0x028, [], [⟨0, 15, .ro, 0⟩]⟩,
  -- TX_FRAMES: COUNT (R201)
  ⟨0xF08, [], [⟨0, 31, .rc, 0⟩]⟩,
  -- RX_FRAMES: COUNT (R201)
  ⟨0xF0C, [], [⟨0, 31, .rc, 0⟩]⟩,
  -- RX_FCS_ERR: COUNT (R201)
  ⟨0xF10, [], [⟨0, 31, .rc, 0⟩]⟩,
  -- RX_PAUSE: COUNT (R201)
  ⟨0xF14, [], [⟨0, 31, .rc, 0⟩]⟩,
  -- TX_PAUSE: COUNT (R201)
  ⟨0xF18, [], [⟨0, 31, .rc, 0⟩]⟩,
  -- RX_UNKNOWN: COUNT (R201)
  ⟨0xF1C, [], [⟨0, 31, .rc, 0⟩]⟩,
  -- LINK_DOWNS: COUNT (R200)
  ⟨0xF20, [], [⟨0, 31, .rc, 0⟩]⟩,
  -- FEC_CORRECTED: COUNT (R201)
  ⟨0xF24, [], [⟨0, 31, .rc, 0⟩]⟩,
  -- FEC_UNCORRECTED: COUNT (R201)
  ⟨0xF28, [], [⟨0, 31, .rc, 0⟩]⟩]

/-- The registers of the TEN page. -/
def rowsTEN : List RegRow := [
  -- GEOM: WIDTH16, HEIGHT16, TB (R63)
  ⟨0x0A0, [], [⟨0, 5, .rw, 40⟩, ⟨8, 13, .rw, 30⟩, ⟨16, 17, .rw, 0⟩]⟩,
  -- CYC: CYC_PER_LINE, VIS_CYC (R63)
  ⟨0x0A4, [], [⟨0, 11, .rw, 1016⟩, ⟨16, 27, .rw, 800⟩]⟩,
  -- PACE: INPUT_LINE, LEAD, LAG_WARN (R63)
  ⟨0x0A8, [], [⟨0, 9, .rw, 480⟩, ⟨16, 18, .rw, 2⟩, ⟨20, 31, .rw, 525⟩]⟩,
  -- BEAM: LINE, FRAME (R63)
  ⟨0x0B0, [], [⟨0, 9, .ro, 0⟩, ⟨10, 31, .ro, 0⟩]⟩,
  -- LAG: LAG_LINES (R72)
  ⟨0x0B4, [], [⟨0, 15, .ro, 0⟩]⟩,
  -- VIOLATIONS: COUNT (R269)
  ⟨0x0C0, [], [⟨0, 31, .ro, 0⟩]⟩,
  -- VIOL_ADDR: ADDR (R269)
  ⟨0x0C4, [], [⟨0, 23, .ro, 0⟩]⟩,
  -- VIOL_INFO: WRITE, MASTER (R269)
  ⟨0x0C8, [], [⟨0, 0, .ro, 0⟩, ⟨1, 3, .ro, 0⟩]⟩,
  -- CONT: STATE, LOST, MOVING, EPOCH (R290)
  ⟨0x0D0, [], [⟨0, 2, .ro, 0⟩, ⟨3, 3, .ro, 0⟩, ⟨4, 4, .ro, 0⟩, ⟨16, 31, .ro, 0⟩]⟩,
  -- PLACE: SLOT, TAKEOVER, TCTX, PLACEMENT (R286)
  ⟨0x0D4, [], [⟨0, 10, .ro, 0x7FF⟩, ⟨11, 11, .ro, 0⟩, ⟨12, 13, .ro, 0⟩, ⟨16, 31, .ro, 0⟩]⟩,
  -- MIRROR: MSLOT, MSTATE (R280)
  ⟨0x0D8, [], [⟨0, 10, .ro, 0x7FF⟩, ⟨12, 13, .ro, 0⟩]⟩,
  -- OVL_CTRL: RESERVE, PROG_ORDER, ORDER, BATCH, COMMIT, PENDING (R170)
  ⟨0x200, [], [⟨0, 0, .rw, 0⟩, ⟨1, 1, .rw, 0⟩, ⟨8, 15, .rw, 0xE4⟩, ⟨16, 23, .rw, 0⟩, ⟨24, 24, .wo, 0⟩, ⟨25, 25, .ro, 0⟩]⟩,
  -- OVL_MODE: MODE, KEY, WLO, WHI (R166)
  ⟨0x210, [(0x10, 3)], [⟨0, 1, .rw, 0⟩, ⟨8, 15, .rw, 0⟩, ⟨16, 23, .rw, 0⟩, ⟨24, 31, .rw, 0⟩]⟩,
  -- OVL_POS: X, Y (R165)
  ⟨0x214, [(0x10, 3)], [⟨0, 10, .rw, 0⟩, ⟨16, 26, .rw, 0⟩]⟩,
  -- OVL_SIZE: WIDTH, HEIGHT (R165)
  ⟨0x218, [(0x10, 3)], [⟨0, 9, .rw, 0⟩, ⟨16, 25, .rw, 0⟩]⟩,
  -- OVL_IMAGE: OFFSET16 (R165)
  ⟨0x21C, [(0x10, 3)], [⟨0, 15, .rw, 0⟩]⟩,
  -- OVL_PAL: RGB (R169)
  ⟨0x240, [], [⟨0, 383, .rw, 0⟩]⟩,
  -- CAL: CAL (R368)
  ⟨0x070, [], [⟨0, 71, .ro, 0⟩]⟩,
  -- MBOX_LEN: LEN (R341)
  ⟨0x07F, [], [⟨0, 7, .ro, 0⟩]⟩,
  -- MBOX: DATA (R341)
  ⟨0x080, [], [⟨0, 255, .ro, 0⟩]⟩,
  -- LATE_LINES: COUNT (R71)
  ⟨0xF10, [], [⟨0, 31, .rc, 0⟩]⟩,
  -- MAX_LAG: COUNT (R72)
  ⟨0xF14, [], [⟨0, 31, .rc, 0⟩]⟩,
  -- OVL_DEFERRED: COUNT (R171)
  ⟨0xF18, [], [⟨0, 31, .rc, 0⟩]⟩,
  -- PROMOTIONS: COUNT (R286)
  ⟨0xF1C, [], [⟨0, 31, .rc, 0⟩]⟩,
  -- MOVES: COUNT (R281)
  ⟨0xF20, [], [⟨0, 31, .rc, 0⟩]⟩]

/-- The registers of the VID page. -/
def rowsVID : List RegRow := [
  -- STATUS: ZERO (R141)
  ⟨0x00C, [], [⟨0, 7, .ro, 0⟩]⟩,
  -- MODE: DEPTH, PRIO, MAPW, MAPH (R134)
  ⟨0x030, [(0x10, 4)], [⟨0, 1, .rw, 0⟩, ⟨2, 3, .rw, 0⟩, ⟨4, 5, .rw, 0⟩, ⟨6, 7, .rw, 0⟩]⟩,
  -- SCROLLX: SCROLL (R135)
  ⟨0x032, [(0x10, 4)], [⟨0, 10, .rw, 0⟩]⟩,
  -- SCROLLY: SCROLL (R135)
  ⟨0x034, [(0x10, 4)], [⟨0, 10, .rw, 0⟩]⟩,
  -- MAPBASE: MAPBASE (R134)
  ⟨0x036, [(0x10, 4)], [⟨1, 14, .rw, 0⟩]⟩,
  -- PATBASE: PATBASE (R131)
  ⟨0x038, [(0x10, 4)], [⟨5, 14, .rw, 0⟩]⟩,
  -- ORDER0: LAYER, SKIP (R141)
  ⟨0x100, [], [⟨0, 2, .rw, 7⟩, ⟨7, 7, .rw, 0⟩]⟩,
  -- ORDER1: LAYER, SKIP (R141)
  ⟨0x101, [], [⟨0, 2, .rw, 6⟩, ⟨7, 7, .rw, 0⟩]⟩,
  -- ORDER2: LAYER, SKIP (R141)
  ⟨0x102, [], [⟨0, 2, .rw, 5⟩, ⟨7, 7, .rw, 0⟩]⟩,
  -- ORDER3: LAYER, SKIP (R141)
  ⟨0x103, [], [⟨0, 2, .rw, 4⟩, ⟨7, 7, .rw, 0⟩]⟩,
  -- ORDER4: LAYER, SKIP (R141)
  ⟨0x104, [], [⟨0, 2, .rw, 0⟩, ⟨7, 7, .rw, 0⟩]⟩,
  -- ORDER5: LAYER, SKIP (R141)
  ⟨0x105, [], [⟨0, 2, .rw, 1⟩, ⟨7, 7, .rw, 0⟩]⟩,
  -- ORDER6: LAYER, SKIP (R141)
  ⟨0x106, [], [⟨0, 2, .rw, 2⟩, ⟨7, 7, .rw, 0⟩]⟩,
  -- ORDER7: LAYER, SKIP (R141)
  ⟨0x107, [], [⟨0, 2, .rw, 3⟩, ⟨7, 7, .rw, 0⟩]⟩,
  -- NOWRAP: NOWRAP (R135)
  ⟨0x108, [], [⟨0, 3, .rw, 0⟩]⟩]

/-- The registers of the SPR page. -/
def rowsSPR : List RegRow := [
  -- STATUS: LINE_OVF (R149)
  ⟨0x00C, [], [⟨0, 0, .ro, 0⟩]⟩,
  -- LIMIT: LIMIT (R140)
  ⟨0x024, [], [⟨0, 6, .rw, 64⟩]⟩,
  -- PATBASE: PATBASE (R139)
  ⟨0x026, [], [⟨5, 14, .rw, 0⟩]⟩,
  -- FIRST: FIRST (R140)
  ⟨0x028, [], [⟨0, 7, .rw, 0⟩]⟩,
  -- LINE_COUNT: LINE_COUNT (R149)
  ⟨0x029, [], [⟨0, 6, .ro, 0⟩]⟩,
  -- DROP_LAST: DROP_LAST (R149)
  ⟨0x02A, [], [⟨0, 7, .ro, 0⟩]⟩,
  -- OVF: ANY_OVF (R140)
  ⟨0x02B, [], [⟨0, 0, .w1c, 0⟩]⟩,
  -- DROPS: COUNT (R140)
  ⟨0xF08, [], [⟨0, 31, .rc, 0⟩]⟩,
  -- OVF_LINES: COUNT (R140)
  ⟨0xF0C, [], [⟨0, 31, .rc, 0⟩]⟩]

/-- The registers of the PAL page. -/
def rowsPAL : List RegRow := [
  -- STATUS: PENDING (R146)
  ⟨0x00C, [], [⟨0, 0, .ro, 0⟩]⟩,
  -- BACKDROP: BACKDROP (R142)
  ⟨0x024, [], [⟨0, 7, .rw, 0⟩]⟩,
  -- OFS: OFS (R136)
  ⟨0x025, [(0x1, 4)], [⟨0, 7, .rw, 0⟩]⟩,
  -- OFS_SPR: OFS (R139)
  ⟨0x029, [], [⟨0, 7, .rw, 0⟩]⟩,
  -- SNAPSHOTS: COUNT (R147)
  ⟨0xF08, [], [⟨0, 31, .rc, 0⟩]⟩]

/-- The registers of the RAS page. -/
def rowsRAS : List RegRow := [
  -- STATUS: ACTIVE (R155)
  ⟨0x00C, [], [⟨0, 0, .ro, 0⟩]⟩,
  -- LIST_BASE: LIST_BASE (R150)
  ⟨0x024, [], [⟨3, 14, .rw, 0⟩]⟩,
  -- LIST_LEN: LIST_LEN (R150)
  ⟨0x026, [], [⟨0, 10, .rw, 0⟩]⟩,
  -- PTR: PTR (R155)
  ⟨0x028, [], [⟨0, 10, .ro, 0⟩]⟩,
  -- VLINE: VLINE (R159)
  ⟨0x02A, [], [⟨0, 9, .ro, 0⟩]⟩,
  -- HCYC: HCYC (R159)
  ⟨0x02C, [], [⟨0, 10, .ro, 0⟩]⟩,
  -- HPOS: HPOS (R159)
  ⟨0x02E, [], [⟨0, 9, .ro, 0⟩]⟩,
  -- BFLAGS: BFLAGS (R159)
  ⟨0x030, [], [⟨0, 2, .ro, 0⟩]⟩,
  -- LM_PEND: PEND (R161)
  ⟨0x031, [], [⟨0, 3, .w1c, 0⟩]⟩,
  -- ERR: ORDER_SKIP, BAD_TARGET, RANGE_SKIP (R155)
  ⟨0x032, [], [⟨0, 0, .w1c, 0⟩, ⟨1, 1, .w1c, 0⟩, ⟨2, 2, .w1c, 0⟩]⟩,
  -- LM_LINE: LINE, EVERY, EN (R160)
  ⟨0x034, [(0x4, 4)], [⟨0, 9, .rw, 0⟩, ⟨14, 14, .rw, 0⟩, ⟨15, 15, .rw, 0⟩]⟩,
  -- LM_CYC: CYC (R160)
  ⟨0x036, [(0x4, 4)], [⟨0, 10, .rw, 0⟩]⟩,
  -- ENTRIES: COUNT (R155)
  ⟨0xF08, [], [⟨0, 31, .rc, 0⟩]⟩,
  -- SKIPS: COUNT (R155)
  ⟨0xF0C, [], [⟨0, 31, .rc, 0⟩]⟩]

/-- The registers of the SND page. -/
def rowsSND : List RegRow := [
  -- STATUS: SRC8 (R214)
  ⟨0x00C, [], [⟨0, 0, .ro, 0⟩]⟩,
  -- KEYON: KEYON (R213)
  ⟨0x024, [], [⟨0, 15, .wo, 0⟩]⟩,
  -- KEYOFF: KEYOFF (R213)
  ⟨0x026, [], [⟨0, 15, .wo, 0⟩]⟩,
  -- ACTIVE: ACTIVE (R213)
  ⟨0x028, [], [⟨0, 15, .ro, 0⟩]⟩,
  -- VEND: VEND (R213)
  ⟨0x02A, [], [⟨0, 15, .w1c, 0⟩]⟩,
  -- VEND_IE: VEND_IE (R214)
  ⟨0x02C, [], [⟨0, 15, .rw, 0⟩]⟩,
  -- VTAB: VTAB (R210)
  ⟨0x02E, [], [⟨0, 4, .rw, 0x1F⟩]⟩,
  -- TICK: TICK (R208)
  ⟨0x030, [], [⟨0, 31, .ro, 0⟩]⟩,
  -- VOICE_ENDS: COUNT (R213)
  ⟨0xF08, [], [⟨0, 31, .rc, 0⟩]⟩,
  -- PCM_VOID: COUNT (R212)
  ⟨0xF0C, [], [⟨0, 31, .rc, 0⟩]⟩]

/-- The registers of the MIX page. -/
def rowsMIX : List RegRow := [
  -- CTRL: SWAP (R220)
  ⟨0x008, [], [⟨6, 6, .wo, 0⟩]⟩,
  -- STATUS: ACTIVE_B, SWAP_PENDING, LIMITING (R220)
  ⟨0x00C, [], [⟨0, 0, .ro, 0⟩, ⟨1, 1, .ro, 0⟩, ⟨2, 2, .ro, 0⟩]⟩,
  -- MAIN_GAIN: GAIN (R218)
  ⟨0x024, [], [⟨0, 15, .ro, 32768⟩]⟩,
  -- FAST_GAIN: GAIN (R218)
  ⟨0x026, [], [⟨0, 15, .ro, 32768⟩]⟩,
  -- MAIN_VOL: MAIN_VOL (R215)
  ⟨0x030, [(0x10, 2)], [⟨0, 7, .rw, 0x80⟩]⟩,
  -- FAST_VOL: FAST_VOL (R215)
  ⟨0x031, [(0x10, 2)], [⟨0, 7, .rw, 0x80⟩]⟩,
  -- RESO: RESO, FILT_ON (R216)
  ⟨0x032, [(0x10, 2)], [⟨0, 3, .rw, 0⟩, ⟨7, 7, .rw, 0⟩]⟩,
  -- FILT_CUT: FILT_CUT (R221)
  ⟨0x033, [(0x10, 2)], [⟨0, 7, .rw, 0xFF⟩]⟩,
  -- DLY_LEN: DLY_LEN (R217)
  ⟨0x034, [(0x10, 2)], [⟨0, 11, .rw, 0⟩]⟩,
  -- DLY_BASE: DLY_BASE (R217)
  ⟨0x036, [(0x10, 2)], [⟨2, 12, .rw, 0⟩]⟩,
  -- DLY_FB: DLY_FB (R217)
  ⟨0x038, [(0x10, 2)], [⟨0, 7, .rw, 0⟩]⟩,
  -- DLY_WET: DLY_WET (R217)
  ⟨0x039, [(0x10, 2)], [⟨0, 7, .rw, 0⟩]⟩,
  -- LIM_TH: LIM_TH (R221)
  ⟨0x03A, [(0x10, 2)], [⟨0, 7, .rw, 0xFF⟩]⟩,
  -- LIM_REL: LIM_REL (R221)
  ⟨0x03B, [(0x10, 2)], [⟨0, 2, .rw, 2⟩]⟩,
  -- FILT_K: FILT_K (R221)
  ⟨0x100, [(0x8, 2)], [⟨0, 15, .rw, 0xFFFF⟩]⟩,
  -- FILT_Q: FILT_Q (R221)
  ⟨0x102, [(0x8, 2)], [⟨0, 7, .rw, 0⟩]⟩,
  -- ATTACK: ATTACK (R221)
  ⟨0x104, [(0x8, 2)], [⟨0, 15, .rw, 683⟩]⟩,
  -- RELEASE: RELEASE (R221)
  ⟨0x106, [(0x8, 2)], [⟨0, 15, .rw, 34⟩]⟩,
  -- ROUTE: STN_PATH, PREVIEW_PATH (R222)
  ⟨0x0A0, [], [⟨0, 0, .rw, 0⟩, ⟨1, 1, .rw, 0⟩]⟩,
  -- LIM_SAMPLES: COUNT (R219)
  ⟨0xF08, [], [⟨0, 31, .rc, 0⟩]⟩,
  -- ACTIVE_WRITES: COUNT (R220)
  ⟨0xF0C, [], [⟨0, 31, .rc, 0⟩]⟩,
  -- SAT_SAMPLES: COUNT (R215)
  ⟨0xF10, [], [⟨0, 31, .rc, 0⟩]⟩]

/-- The registers of the TMR page. -/
def rowsTMR : List RegRow := [
  -- STATUS: WRAP (R314)
  ⟨0x00C, [], [⟨0, 3, .ro, 0⟩]⟩,
  -- CFG: SRC, RUN, IE, CLR (R312)
  ⟨0x030, [(0x10, 4)], [⟨0, 1, .rw, 0⟩, ⟨2, 2, .rw, 0⟩, ⟨3, 3, .rw, 0⟩, ⟨4, 4, .wo, 0⟩]⟩,
  -- FLAG: WRAP (R314)
  ⟨0x031, [(0x10, 4)], [⟨0, 0, .w1c, 0⟩]⟩,
  -- DIV_N: N (R311)
  ⟨0x032, [(0x10, 4)], [⟨0, 15, .rw, 1⟩]⟩,
  -- DIV_F: F (R311)
  ⟨0x034, [(0x10, 4)], [⟨0, 7, .rw, 0⟩]⟩,
  -- RELOAD: RELOAD (R310)
  ⟨0x036, [(0x10, 4)], [⟨0, 15, .rw, 0xFFFF⟩]⟩,
  -- COUNT_LO: COUNT_LO (R315)
  ⟨0x038, [(0x10, 4)], [⟨0, 7, .rw, 0⟩]⟩,
  -- COUNT_HI: COUNT_HI (R315)
  ⟨0x039, [(0x10, 4)], [⟨0, 7, .rw, 0⟩]⟩,
  -- WRAPS: COUNT (R314)
  ⟨0xF08, [], [⟨0, 31, .rc, 0⟩]⟩]

/-- The registers of the IRQ page. -/
def rowsIRQ : List RegRow := [
  -- CTRL: WAKE_ANY (R298)
  ⟨0x008, [], [⟨6, 6, .rw, 0⟩]⟩,
  -- STATUS: ANY (R298)
  ⟨0x00C, [], [⟨0, 0, .ro, 0⟩]⟩,
  -- PRIO: PRIO_LO, PRIO_HI (R92)
  ⟨0x024, [(0x1, 16)], [⟨0, 2, .rw, 0⟩, ⟨4, 6, .rw, 0⟩]⟩,
  -- PEND: PEND (R296)
  ⟨0x034, [], [⟨0, 31, .ro, 0⟩]⟩,
  -- SWI: SWI (R299)
  ⟨0x038, [], [⟨0, 15, .rw, 0⟩]⟩,
  -- TOP: SOURCE, NONE (R92)
  ⟨0x03A, [], [⟨0, 4, .ro, 0⟩, ⟨7, 7, .ro, 1⟩]⟩,
  -- ENTRIES: COUNT (R93)
  ⟨0xF08, [], [⟨0, 31, .rc, 0⟩]⟩]

/-- The registers of the INP page. -/
def rowsINP : List RegRow := [
  -- STATUS: PRESENT (R197)
  ⟨0x00C, [], [⟨0, 3, .ro, 0⟩]⟩,
  -- REPORTS: COUNT (R197)
  ⟨0xF08, [], [⟨0, 31, .rc, 0⟩]⟩,
  -- DROPPED: COUNT (R197)
  ⟨0xF0C, [], [⟨0, 31, .rc, 0⟩]⟩,
  -- OVERRUNS: COUNT (R198)
  ⟨0xF10, [], [⟨0, 31, .rc, 0⟩]⟩]

/-- The registers of the QDM page. -/
def rowsQDM : List RegRow := [
  -- STATUS: BUSY (R245)
  ⟨0x00C, [], [⟨0, 0, .ro, 0⟩]⟩,
  -- SRC: SRC (R245)
  ⟨0x024, [], [⟨0, 23, .rw, 0⟩]⟩,
  -- DST: DST (R245)
  ⟨0x028, [], [⟨0, 23, .rw, 0⟩]⟩,
  -- LEN: LEN (R245)
  ⟨0x02C, [], [⟨0, 15, .rw, 0⟩]⟩,
  -- GO: GO (R245)
  ⟨0x02E, [], [⟨0, 0, .wo, 0⟩]⟩,
  -- STAT: DONE, BAD_RANGE, BUSY_GO (R245)
  ⟨0x02F, [], [⟨0, 0, .w1c, 0⟩, ⟨1, 1, .w1c, 0⟩, ⟨2, 2, .w1c, 0⟩]⟩,
  -- STAT_IE: STAT_IE (R245)
  ⟨0x030, [], [⟨0, 2, .rw, 0⟩]⟩,
  -- TRANSFERS: COUNT (R245)
  ⟨0xF08, [], [⟨0, 31, .rc, 0⟩]⟩]

/-- The registers of the BLT page. -/
def rowsBLT : List RegRow := [
  -- STATUS: BUSY (R243)
  ⟨0x00C, [], [⟨0, 0, .ro, 0⟩]⟩,
  -- TRAIL: TRAIL (R243)
  ⟨0x024, [], [⟨0, 23, .rw, 0⟩]⟩,
  -- GO: GO (R243)
  ⟨0x027, [], [⟨0, 0, .wo, 0⟩]⟩,
  -- SIG: SIG (R244)
  ⟨0x028, [], [⟨0, 7, .w1c, 0⟩]⟩,
  -- SIG_IE: SIG_IE (R244)
  ⟨0x029, [], [⟨0, 7, .rw, 0⟩]⟩,
  -- STAT: DONE, OVERLAP_XFORM, OVERLAP_PITCH, BAD_OP, BAD_ENTRY, BUSY_GO (R244)
  ⟨0x02A, [], [⟨0, 0, .w1c, 0⟩, ⟨1, 1, .w1c, 0⟩, ⟨2, 2, .w1c, 0⟩, ⟨3, 3, .w1c, 0⟩, ⟨4, 4, .w1c, 0⟩, ⟨5, 5, .w1c, 0⟩]⟩,
  -- STAT_IE: STAT_IE (R244)
  ⟨0x02B, [], [⟨0, 5, .rw, 0⟩]⟩,
  -- ENTRY: ENTRY (R243)
  ⟨0x02C, [], [⟨0, 23, .ro, 0⟩]⟩,
  -- BAL: BAL (R242)
  ⟨0x030, [], [⟨0, 31, .ro, 2032⟩]⟩,
  -- QUOTA: MPIX, PPL (R242)
  ⟨0x0A0, [], [⟨0, 7, .rw, 64⟩, ⟨16, 31, .ro, 2032⟩]⟩,
  -- COMMANDS: COUNT (R242)
  ⟨0xF08, [], [⟨0, 31, .rc, 0⟩]⟩,
  -- PIXELS: COUNT (R242)
  ⟨0xF0C, [], [⟨0, 31, .rc, 0⟩]⟩,
  -- SKIPS: COUNT (R241)
  ⟨0xF10, [], [⟨0, 31, .rc, 0⟩]⟩,
  -- QUOTA_WAITS: COUNT (R242)
  ⟨0xF14, [], [⟨0, 31, .rc, 0⟩]⟩]

/-- The registers of the DMA page. -/
def rowsDMA : List RegRow := [
  -- STATUS: BUSY (R246)
  ⟨0x00C, [], [⟨0, 1, .ro, 0⟩]⟩,
  -- CFG: ESIZE, GATHER, IW24, REQ (R246)
  ⟨0x030, [(0x20, 2)], [⟨0, 1, .rw, 0⟩, ⟨2, 2, .rw, 0⟩, ⟨3, 3, .rw, 0⟩, ⟨4, 7, .rw, 0⟩]⟩,
  -- BURST: BURST (R247)
  ⟨0x031, [(0x20, 2)], [⟨0, 7, .rw, 1⟩]⟩,
  -- GO: GO (R246)
  ⟨0x032, [(0x20, 2)], [⟨0, 0, .wo, 0⟩]⟩,
  -- STAT: DONE, DMA_FAULT, BAD_REQ, OVERRUN, BUSY_GO (R247)
  ⟨0x033, [(0x20, 2)], [⟨0, 0, .w1c, 0⟩, ⟨1, 1, .w1c, 0⟩, ⟨2, 2, .w1c, 0⟩, ⟨3, 3, .w1c, 0⟩, ⟨4, 4, .w1c, 0⟩]⟩,
  -- STAT_IE: STAT_IE (R247)
  ⟨0x034, [(0x20, 2)], [⟨0, 4, .rw, 0⟩]⟩,
  -- PEND: PEND (R247)
  ⟨0x035, [(0x20, 2)], [⟨0, 3, .ro, 0⟩]⟩,
  -- COUNT: COUNT (R246)
  ⟨0x036, [(0x20, 2)], [⟨0, 15, .rw, 1⟩]⟩,
  -- SRC: SRC (R246)
  ⟨0x038, [(0x20, 2)], [⟨0, 23, .rw, 0⟩]⟩,
  -- DST: DST (R246)
  ⟨0x03C, [(0x20, 2)], [⟨0, 23, .rw, 0⟩]⟩,
  -- INDEX: INDEX (R246)
  ⟨0x040, [(0x20, 2)], [⟨0, 23, .rw, 0⟩]⟩,
  -- DONE_ELEMS: MOVED (R247)
  ⟨0x044, [(0x20, 2)], [⟨0, 15, .ro, 0⟩]⟩,
  -- ITEMS: COUNT (R246)
  ⟨0xF08, [], [⟨0, 31, .rc, 0⟩]⟩,
  -- BURSTS: COUNT (R247)
  ⟨0xF0C, [], [⟨0, 31, .rc, 0⟩]⟩,
  -- FAULTS: COUNT (R250)
  ⟨0xF10, [], [⟨0, 31, .rc, 0⟩]⟩]

/-- The registers of the SAV page. -/
def rowsSAV : List RegRow := [
  -- STATUS: BUSY (R358)
  ⟨0x00C, [], [⟨0, 0, .ro, 0⟩]⟩,
  -- MASK: MASK (R358)
  ⟨0x024, [], [⟨0, 31, .rw, 0⟩]⟩,
  -- GO: GO (R358)
  ⟨0x028, [], [⟨0, 0, .wo, 0⟩]⟩,
  -- FLAGS: DONE, ERR, BUSY_GO (R359)
  ⟨0x029, [], [⟨0, 0, .w1c, 0⟩, ⟨1, 1, .w1c, 0⟩, ⟨2, 2, .w1c, 0⟩]⟩,
  -- IE: IE (R359)
  ⟨0x02A, [], [⟨0, 1, .rw, 0⟩]⟩,
  -- COMMIT_NO: COUNT (R359)
  ⟨0x02C, [], [⟨0, 15, .ro, 0⟩]⟩,
  -- ERASE: ERASE (R361)
  ⟨0x0A0, [], [⟨0, 0, .wo, 0⟩]⟩,
  -- COMMITS: COUNT (R359)
  ⟨0xF08, [], [⟨0, 31, .rc, 0⟩]⟩,
  -- PAGES: COUNT (R359)
  ⟨0xF0C, [], [⟨0, 31, .rc, 0⟩]⟩]

/-- The registers of the CPU page. -/
def rowsCPU : List RegRow := [
  -- CTRL: BT_FREEZE, BT_FREEZE_ON_TRAP (R104)
  ⟨0x008, [], [⟨6, 6, .rw, 0⟩, ⟨7, 7, .rw, 0⟩]⟩,
  -- STATUS: T, WAIT, DOUBLE_TRAP (R97)
  ⟨0x00C, [], [⟨0, 0, .ro, 0⟩, ⟨1, 1, .ro, 0⟩, ⟨2, 2, .ro, 0⟩]⟩,
  -- VBR_L: VBR_L (R90)
  ⟨0x024, [], [⟨0, 7, .ro, 0⟩]⟩,
  -- VBR_M: VBR_M (R90)
  ⟨0x025, [], [⟨0, 7, .rw, 0⟩]⟩,
  -- VBR_H: VBR_H (R90)
  ⟨0x026, [], [⟨0, 7, .rw, 0x02⟩]⟩,
  -- CPL: CPL (R92)
  ⟨0x027, [], [⟨0, 2, .rw, 0⟩]⟩,
  -- RS_DEPTH: RS_DEPTH (R101)
  ⟨0x028, [], [⟨0, 4, .ro, 0⟩]⟩,
  -- BT_HEAD: BT_HEAD (R104)
  ⟨0x029, [], [⟨0, 4, .ro, 31⟩]⟩,
  -- BT_COUNT: BT_COUNT (R104)
  ⟨0x02A, [], [⟨0, 5, .ro, 0⟩]⟩,
  -- BT_CLR: BT_CLR (R104)
  ⟨0x02B, [], [⟨0, 0, .wo, 0⟩]⟩,
  -- BT: ADDR (R104)
  ⟨0x040, [(0x3, 32)], [⟨0, 23, .ro, 0⟩]⟩,
  -- RING_PC: PC (R107)
  ⟨0x0A0, [], [⟨0, 23, .ro, 0⟩]⟩,
  -- RING_STATE: F, CPL, WAIT, RS_DEPTH, FENCE (R107)
  ⟨0x0A4, [], [⟨0, 7, .ro, 0⟩, ⟨8, 10, .ro, 0⟩, ⟨11, 11, .ro, 0⟩, ⟨12, 16, .ro, 0⟩, ⟨17, 17, .ro, 0⟩]⟩,
  -- TRAPS: COUNT (R96)
  ⟨0xF08, [], [⟨0, 31, .rc, 0⟩]⟩,
  -- RS_SPILLS: COUNT (R101)
  ⟨0xF0C, [], [⟨0, 31, .rc, 0⟩]⟩]

/-- The BAR4 doorbell registers (R347). -/
def rowsBAR4 : List RegRow := [
  -- RING_CTRL: EN (R347)
  ⟨0x000, [], [⟨0, 0, .rw, 0⟩]⟩,
  -- SQ_BASE: BASE (R347)
  ⟨0x008, [], [⟨0, 63, .rw, 0⟩]⟩,
  -- SQ_SIZE: SIZE (R347)
  ⟨0x010, [], [⟨0, 12, .rw, 0⟩]⟩,
  -- SQ_TAIL: TAIL (R347)
  ⟨0x014, [], [⟨0, 11, .rw, 0⟩]⟩,
  -- SQ_HEAD: HEAD (R347)
  ⟨0x018, [], [⟨0, 11, .ro, 0⟩]⟩,
  -- CQ_BASE: BASE (R347)
  ⟨0x020, [], [⟨0, 63, .rw, 0⟩]⟩,
  -- CQ_SIZE: SIZE (R347)
  ⟨0x028, [], [⟨0, 12, .rw, 0⟩]⟩,
  -- CQ_HEAD: HEAD (R347)
  ⟨0x02C, [], [⟨0, 11, .rw, 0⟩]⟩,
  -- CQ_TAIL: TAIL (R347)
  ⟨0x030, [], [⟨0, 11, .ro, 0⟩]⟩,
  -- CQ_VECTOR: VECTOR (R347)
  ⟨0x034, [], [⟨0, 5, .rw, 0⟩]⟩]

/-- The registers of a page, beside the common layout (R29, R32). -/
def Blk.rows : Blk → List RegRow
  | .mod => rowsMOD
  | .pwr => rowsPWR
  | .clk => rowsCLK
  | .gte => rowsGTE
  | .nvs => rowsNVS
  | .rtc => rowsRTC
  | .fwu => rowsFWU
  | .lan => rowsLAN
  | .pnl => rowsPNL
  | .miq => rowsMIQ
  | .mtm => rowsMTM
  | .fio => rowsFIO
  | .pio => rowsPIO
  | .tbs => rowsTBS
  | .psh => rowsPSH
  | .ptp => rowsPTP
  | .stn => rowsSTN
  | .sec => rowsSEC
  | .sblt => rowsSBLT
  | .sdma => rowsSDMA
  | .cmp => rowsCMP
  | .eng => rowsENG
  | .bnk => rowsBNK
  | .rng => rowsRNG
  | .prt => rowsPRT
  | .ten => rowsTEN
  | .vid => rowsVID
  | .spr => rowsSPR
  | .pal => rowsPAL
  | .ras => rowsRAS
  | .snd => rowsSND
  | .mix => rowsMIX
  | .tmr => rowsTMR
  | .irq => rowsIRQ
  | .inp => rowsINP
  | .qdm => rowsQDM
  | .blt => rowsBLT
  | .dma => rowsDMA
  | .sav => rowsSAV
  | .cpu => rowsCPU

/-- The access masks and the reset value of one 32-bit register word. -/
structure WordDef where
  rw  : Nat
  ro  : Nat
  wo  : Nat
  w1c : Nat
  rc  : Nat
  rst : Nat
deriving DecidableEq, Repr

/-- A word that holds no field. -/
def WordDef.none : WordDef := ⟨0, 0, 0, 0, 0, 0⟩

/-- The bits of a word that belong to some field; all others are reserved (R8). -/
def WordDef.bits (d : WordDef) : Nat := d.rw ||| d.ro ||| d.wo ||| d.w1c ||| d.rc

/-- The mask of the bits `lo` to `hi` of a register at byte `start` within the word at byte `off`. -/
def maskIn (start lo hi off : Nat) : Nat :=
  let l := start * 8 + lo
  let h := start * 8 + hi
  let w := off * 8
  if h < w || w + 32 ≤ l then 0
  else 2 ^ (min h (w + 31) - w + 1) - 2 ^ (max l w - w)

/-- Adds one field of a register at byte `start` to the definition of the word at byte `off`. -/
def WordDef.addField (off start : Nat) (d : WordDef) (f : FieldRow) : WordDef :=
  let m := maskIn start f.lo f.hi off
  if m = 0 then d else
  let pos := start * 8 + f.lo
  let r := (if off * 8 ≤ pos then f.rst * 2 ^ (pos - off * 8) else f.rst / 2 ^ (off * 8 - pos)) &&& m
  let d := { d with rst := d.rst ||| r }
  match f.acc with
  | .rw  => { d with rw := d.rw ||| m }
  | .ro  => { d with ro := d.ro ||| m }
  | .wo  => { d with wo := d.wo ||| m }
  | .w1c => { d with w1c := d.w1c ||| m }
  | .rc  => { d with rc := d.rc ||| m }

/-- The instances of a repeated register that can reach into the word at byte `off`. -/
def startsNear (off : Nat) : Nat → List (Nat × Nat) → List Nat
  | base, [] => [base]
  | base, (stride, count) :: rest =>
    if off + 3 < base then []
    else
      let q := (off + 3 - base) / stride
      ([q, q - 1, q - 2, q - 3].eraseDups.filter (· < count)).flatMap
        fun i => startsNear off (base + stride * i) rest

/-- The word at byte `off` of a page with these registers. -/
def wordOf (rows : List RegRow) (off : Nat) : WordDef :=
  rows.foldl (fun d r =>
    (startsNear off r.off r.reps).foldl (fun d st => r.fields.foldl (WordDef.addField off st) d) d)
    WordDef.none

/-- The blocks whose pages are fixed, owned by SUP (R44). -/
def Blk.fixed : Blk → Bool
  | .sec | .eng | .bnk | .rng => true
  | _ => false

/-- The common registers of every module-view page (R29): CTRL, STATUS-less, WR_REJECT, VOID_ACCESS.
PAGE_ID, PAGE_VER and EXPERT_KEY are read by `pageWord`. -/
def commonRows (fixed : Bool) : List RegRow := [
  -- CTRL: EN, EXPERT, OWNER
  ⟨0x008, [], [⟨0, 0, .rw, 0⟩, ⟨1, 1, .rw, 0⟩,
    ⟨4, 5, if fixed then .ro else .rw, if fixed then 0 else 3⟩]⟩,
  -- WR_REJECT, VOID_ACCESS
  ⟨0xF00, [], [⟨0, 31, .rc, 0⟩]⟩,
  ⟨0xF04, [], [⟨0, 31, .rc, 0⟩]⟩]

/-- The registers of page instance `inst` of a block. The counters of the sector DMA pages exist on
page 0 of a sector only (R249); FALL and WIDTH of a module timer exist on MT0 only (R321). -/
def Blk.rowsAt (b : Blk) (inst : Nat) : List RegRow :=
  match b with
  | .sdma => if inst % 4 = 0 then b.rows else b.rows.filter (fun r => r.off < 0xF00)
  | .mtm => if inst = 0 then b.rows
            else b.rows.filter (fun r => !(0x110 ≤ r.off && r.off ≤ 0x11C))
  | _ => b.rows

/-- The word at byte `off` (a multiple of 4) of a page. -/
def Blk.word (b : Blk) (inst off : Nat) : WordDef := wordOf (commonRows b.fixed ++ b.rowsAt inst) off

/-- A page of the module register space (R50): its block, its instance (PAGE_ID.INSTANCE), its
address. -/
structure Page where
  blk  : Blk
  inst : Nat
  base : Nat
deriving DecidableEq, Repr

/-- The module pages of R51, by page number. -/
def modulePage (p : Nat) : Option (Blk × Nat) :=
  match p with
  | 0x00 => some (.mod, 0)
  | 0x01 => some (.pwr, 0)
  | 0x02 => some (.clk, 0)
  | 0x03 => some (.gte, 0)
  | 0x04 => some (.nvs, 0)
  | 0x05 => some (.rtc, 0)
  | 0x06 => some (.fwu, 0)
  | 0x07 => some (.lan, 0)
  | 0x08 => some (.pnl, 0)
  | 0x09 => some (.miq, 0)
  | 0x1A => some (.tbs, 0)
  | 0x1B => some (.psh, 0)
  | 0x1C => some (.ptp, 0)
  | _ =>
    if 0x0A ≤ p && p ≤ 0x11 then some (.mtm, p - 0x0A)
    else if 0x12 ≤ p && p ≤ 0x15 then some (.fio, p - 0x12)
    else if 0x16 ≤ p && p ≤ 0x19 then some (.pio, p - 0x16)
    else if 0x20 ≤ p && p ≤ 0x3F then some (.stn, p - 0x20)
    else none

/-- The tenant pages of R55, by page index. -/
def tenantBlk (k : Nat) : Option Blk :=
  match k with
  | 0 => some .ten
  | 1 => some .vid
  | 2 => some .spr
  | 3 => some .pal
  | 4 => some .ras
  | 5 => some .snd
  | 6 => some .mix
  | 7 => some .tmr
  | 8 => some .irq
  | 9 => some .inp
  | 10 => some .qdm
  | 11 => some .blt
  | 12 => some .dma
  | 13 => some .sav
  | 14 => some .cpu
  | _ => none

/-- The page that holds a module address; none for a reserved page (R50, R51, R54, R55). -/
def pageOf (a : Nat) : Option Page :=
  let base := a / 0x1000 * 0x1000
  if a < 0x40000 then (modulePage (a / 0x1000)).map fun (b, i) => ⟨b, i, base⟩
  else if a < 0x140000 then
    let s := (a - 0x40000) / 0x20000
    match (a - 0x40000) % 0x20000 / 0x1000 with
    | 0 => some ⟨.sec, s, base⟩
    | 1 => some ⟨.sblt, s, base⟩
    | 6 => some ⟨.cmp, s, base⟩
    | k => if 2 ≤ k && k ≤ 5 then some ⟨.sdma, 4 * s + (k - 2), base⟩ else none
  else if a < 0x5C0000 then
    let e := (a - 0x140000) / 0x10000
    match (a - 0x140000) % 0x10000 / 0x1000 with
    | 0 => some ⟨.eng, e, base⟩
    | 1 => some ⟨.bnk, e, base⟩
    | 2 => some ⟨.rng, e, base⟩
    | _ => none
  else if 0x600000 ≤ a && a < 0x700000 then
    match (a - 0x600000) % 0x10000 / 0x1000 with
    | 0 => some ⟨.prt, (a - 0x600000) / 0x10000, base⟩
    | _ => none
  else if 0x1000000 ≤ a && a < 0x5000000 then
    (tenantBlk ((a - 0x1000000) % 0x10000 / 0x1000)).map fun b =>
      ⟨b, (a - 0x1000000) / 0x10000, base⟩
  else none

/-- The tenant and the offset in its pages of a module address in the tenant pages (R55). -/
def tenantOf (a : Nat) : Option (Nat × Nat) :=
  if 0x1000000 ≤ a && a < 0x5000000 then
    some ((a - 0x1000000) / 0x10000, (a - 0x1000000) % 0x10000)
  else none

/-- The definition of the word that holds a module address; no field on a reserved page. -/
def moduleWord (a : Nat) : WordDef :=
  match pageOf a with
  | some p => p.blk.word p.inst (a % 0x1000 / 4 * 4)
  | none => WordDef.none

/-- Reset value of the module register word number `key` (address 4 × `key`). -/
def moduleRst (key : Nat) : Word := BitVec.ofNat 32 (moduleWord (4 * key)).rst

/-- The definition of word number `key` of a tenant's pages (byte offset 4 × `key`). -/
def tenantWord (key : Nat) : WordDef :=
  match tenantBlk (4 * key / 0x1000) with
  | some b => b.word 0 (4 * key % 0x1000)
  | none => WordDef.none

/-- Reset value of word number `key` of a tenant's pages. -/
def tenantRst (key : Nat) : Word := BitVec.ofNat 32 (tenantWord key).rst

/-- Whether a word of the tenant pages is part of the tenant's execution, which a ring captures
(R107, R162, R229, R251, R270, R273): the registers of the tenant view, the violation registers and
BLT.QUOTA. The module keeps the other words. -/
def isCoreWord (key : Nat) : Bool :=
  let k := 4 * key / 0x1000
  let off := 4 * key % 0x1000
  off < 0xA0 || (k != 0 && 0x100 ≤ off && off < 0x180) || (k == 0 && 0xC0 ≤ off && off ≤ 0xC8)
    || (k == 11 && off == 0xA0)

/-- A field of a register word: the word's number (byte address ÷ 4), its low bit, its width. -/
structure Fld where
  key : Nat
  lo  : Nat
  w   : Nat
deriving DecidableEq, Repr

/-- The field of width `w` at bit `lo` of the register that starts at byte `a`. -/
def Fld.ofByte (a lo w : Nat) : Fld := ⟨(a + lo / 8) / 4, 8 * ((a + lo / 8) % 4) + lo % 8, w⟩

/-! The fields by name, `<PAGE>_<REGISTER>_<FIELD>`. Fields of module, sector, engine and port pages
give module addresses; fields of tenant pages give offsets in the tenant's 64 KiB of pages; fields of
BAR4 give offsets in BAR4. `inst` is the instance of a page, `i` and `j` index a repeated register. -/
namespace F

def MOD_STATUS_READY : Fld := ⟨(0xC) / 4, 0, 1⟩
def MOD_STATUS_ENGINES_UP : Fld := ⟨(0xC) / 4, 1, 1⟩
def MOD_ENG_NOTICE_ENG (i : Nat) : Fld := ⟨(0x40 + 0x4 * i) / 4, 0, 32⟩
def MOD_ENG_NOTICE2_ENG : Fld := ⟨(0x48) / 4, 0, 8⟩
def MOD_SEC_NOTICE_SEC : Fld := ⟨(0x4C) / 4, 0, 8⟩
def MOD_CONT_CTRL_AUTO_READMIT : Fld := ⟨(0x60) / 4, 0, 1⟩
def MOD_CONT_CTRL_AUTO_REHOME : Fld := ⟨(0x60) / 4, 1, 1⟩
def MOD_CONT_CTRL_READMIT_LIMIT : Fld := ⟨(0x60) / 4, 8, 3⟩
def MOD_READMIT_ENGINE : Fld := ⟨(0x64) / 4, 0, 7⟩
def MOD_READMIT_GO : Fld := ⟨(0x64) / 4, 31, 1⟩
def MOD_CONT_STATUS_UNMIRRORED : Fld := ⟨(0x68) / 4, 0, 11⟩
def MOD_CONT_STATUS_ON_TAKEOVER : Fld := ⟨(0x68) / 4, 12, 9⟩
def MOD_CONT_STATUS_ACTIVE_SUP_B : Fld := ⟨(0x68) / 4, 24, 1⟩
def MOD_CONT_STATUS_SUP_TAKEOVER : Fld := ⟨(0x68) / 4, 25, 1⟩
def MOD_HBM_CORRECTED_COUNT : Fld := ⟨(0xF08) / 4, 0, 32⟩
def MOD_CREDIT_OVER_COUNT : Fld := ⟨(0xF0C) / 4, 0, 32⟩
def MOD_HBM_UNCORRECTED_COUNT : Fld := ⟨(0xF10) / 4, 0, 32⟩
def PWR_STATUS_STATE : Fld := ⟨(0x100C) / 4, 0, 3⟩
def PWR_STATUS_FEED_A : Fld := ⟨(0x100C) / 4, 3, 1⟩
def PWR_STATUS_FEED_B : Fld := ⟨(0x100C) / 4, 4, 1⟩
def PWR_STATUS_PFW : Fld := ⟨(0x100C) / 4, 5, 1⟩
def PWR_STATUS_FEED_A_CHG : Fld := ⟨(0x100C) / 4, 8, 1⟩
def PWR_STATUS_FEED_B_CHG : Fld := ⟨(0x100C) / 4, 9, 1⟩
def PWR_CMD_OP : Fld := ⟨(0x1020) / 4, 0, 2⟩
def PWR_REFUSE_CODE : Fld := ⟨(0x1024) / 4, 0, 8⟩
def PWR_REFUSE_REFUSED : Fld := ⟨(0x1024) / 4, 8, 1⟩
def PWR_FEED_A_VRMS : Fld := ⟨(0x1028) / 4, 0, 10⟩
def PWR_FEED_A_WATTS : Fld := ⟨(0x1028) / 4, 16, 10⟩
def PWR_FEED_B_VRMS : Fld := ⟨(0x102C) / 4, 0, 10⟩
def PWR_FEED_B_WATTS : Fld := ⟨(0x102C) / 4, 16, 10⟩
def PWR_LAST_START_CAUSE : Fld := ⟨(0x1030) / 4, 0, 2⟩
def PWR_LAST_START_DOMAIN : Fld := ⟨(0x1030) / 4, 8, 7⟩
def PWR_FEED_LOSSES_COUNT : Fld := ⟨(0x1F08) / 4, 0, 32⟩
def PWR_PFW_COUNT_COUNT : Fld := ⟨(0x1F0C) / 4, 0, 32⟩
def PWR_STARTS_COUNT : Fld := ⟨(0x1F10) / 4, 0, 32⟩
def CLK_STATUS_ALL_LOCKED : Fld := ⟨(0x200C) / 4, 0, 1⟩
def CLK_LOCK_LOCKED (i : Nat) : Fld := ⟨(0x2020 + 0x4 * i) / 4, 0, 32⟩
def CLK_LOCK3_LOCKED : Fld := ⟨(0x202C) / 4, 0, 12⟩
def CLK_RST_ENG_ENG (i : Nat) : Fld := ⟨(0x2030 + 0x4 * i) / 4, 0, 32⟩
def CLK_RST_ENG2_ENG : Fld := ⟨(0x2038) / 4, 0, 8⟩
def CLK_RST_SEC_SEC : Fld := ⟨(0x203C) / 4, 0, 8⟩
def CLK_RST_PORT_PORT : Fld := ⟨(0x2040) / 4, 0, 16⟩
def CLK_RST_SUP_SUP : Fld := ⟨(0x2044) / 4, 0, 2⟩
def CLK_LOCK_LOSSES_COUNT : Fld := ⟨(0x2F08) / 4, 0, 32⟩
def GTE_CTRL_EVT_A : Fld := ⟨(0x3008) / 4, 6, 1⟩
def GTE_CTRL_EVT_B : Fld := ⟨(0x3008) / 4, 7, 1⟩
def GTE_STATUS_LINK : Fld := ⟨(0x300C) / 4, 0, 2⟩
def GTE_STATUS_PCIE_UP : Fld := ⟨(0x300C) / 4, 2, 1⟩
def GTE_STATUS_HB_LINK : Fld := ⟨(0x300C) / 4, 3, 2⟩
def GTE_STATUS_DROP_SEEN : Fld := ⟨(0x300C) / 4, 5, 1⟩
def GTE_STATUS_WAKE_RX : Fld := ⟨(0x300C) / 4, 6, 1⟩
def GTE_CFG_HB_PORT : Fld := ⟨(0x3020) / 4, 0, 16⟩
def GTE_CFG_V4_EN : Fld := ⟨(0x3020) / 4, 16, 1⟩
def GTE_CFG_V6_EN : Fld := ⟨(0x3020) / 4, 17, 1⟩
def GTE_HB_IP4_ADDR : Fld := ⟨(0x3024) / 4, 0, 32⟩
def GTE_HB_IP6_ADDR (i : Nat) : Fld := ⟨(0x3028 + 0x4 * i) / 4, 0, 32⟩
def GTE_PEER_IP4_ADDR : Fld := ⟨(0x3038) / 4, 0, 32⟩
def GTE_PEER_IP6_ADDR (i : Nat) : Fld := ⟨(0x303C + 0x4 * i) / 4, 0, 32⟩
def GTE_PEER_PORT_PORT : Fld := ⟨(0x304C) / 4, 0, 16⟩
def GTE_PEER_PORT_V6 : Fld := ⟨(0x304C) / 4, 16, 1⟩
def GTE_HB_RATE_RATE : Fld := ⟨(0x3050) / 4, 0, 16⟩
def GTE_SUP_EVT_VECTOR : Fld := ⟨(0x3054) / 4, 0, 6⟩
def GTE_CNT_PERIOD_MS : Fld := ⟨(0x3058) / 4, 0, 16⟩
def GTE_CNT_LIST_EN (i : Nat) : Fld := ⟨(0x3060 + 0x4 * i) / 4, 0, 1⟩
def GTE_CNT_LIST_PAGE (i : Nat) : Fld := ⟨(0x3060 + 0x4 * i) / 4, 12, 16⟩
def GTE_DROP_CAUSE_CHECK : Fld := ⟨(0x3080) / 4, 0, 3⟩
def GTE_DROP_CAUSE_TYPE : Fld := ⟨(0x3080) / 4, 8, 8⟩
def GTE_HB_KEY_KEY (i : Nat) : Fld := ⟨(0x30A0 + 0x4 * i) / 4, 0, 32⟩
def GTE_KEY_CTRL_COMMIT : Fld := ⟨(0x30C0) / 4, 0, 1⟩
def GTE_KEY_CTRL_KEY_SET : Fld := ⟨(0x30C0) / 4, 1, 1⟩
def GTE_RX_SEQ_LO_SEQ : Fld := ⟨(0x30C4) / 4, 0, 32⟩
def GTE_RX_SEQ_HI_SEQ : Fld := ⟨(0x30C8) / 4, 0, 32⟩
def GTE_DROP_COUNT_COUNT : Fld := ⟨(0x3F08) / 4, 0, 32⟩
def GTE_CONFLICT_DROP_COUNT : Fld := ⟨(0x3F0C) / 4, 0, 32⟩
def GTE_AUTH_FAIL_COUNT : Fld := ⟨(0x3F10) / 4, 0, 32⟩
def GTE_REPLAY_DROP_COUNT : Fld := ⟨(0x3F14) / 4, 0, 32⟩
def GTE_RATE_DROP_COUNT : Fld := ⟨(0x3F18) / 4, 0, 32⟩
def GTE_IMAGE_REJECT_COUNT : Fld := ⟨(0x3F1C) / 4, 0, 32⟩
def GTE_STALE_NACKS_COUNT : Fld := ⟨(0x3F20) / 4, 0, 32⟩
def NVS_STATUS_PFW : Fld := ⟨(0x400C) / 4, 0, 1⟩
def NVS_STATUS_WRITE_FAIL : Fld := ⟨(0x400C) / 4, 1, 1⟩
def NVS_QUEUE_LEVEL : Fld := ⟨(0x4020) / 4, 0, 7⟩
def NVS_PAGE_WRITES_COUNT : Fld := ⟨(0x4F08) / 4, 0, 32⟩
def NVS_REFUSED_COUNT : Fld := ⟨(0x4F0C) / 4, 0, 32⟩
def NVS_BAD_PAGES_COUNT : Fld := ⟨(0x4F10) / 4, 0, 32⟩
def RTC_STATUS_VALID : Fld := ⟨(0x500C) / 4, 0, 1⟩
def RTC_STATUS_CAL_REJECT : Fld := ⟨(0x500C) / 4, 1, 1⟩
def RTC_STATUS_CENTURY_WRAP : Fld := ⟨(0x500C) / 4, 2, 1⟩
def RTC_STATUS_ALARM : Fld := ⟨(0x500C) / 4, 3, 1⟩
def RTC_TIME_HUND : Fld := ⟨(0x5020) / 4, 0, 8⟩
def RTC_TIME_SEC : Fld := ⟨(0x5020) / 4, 8, 8⟩
def RTC_TIME_MIN : Fld := ⟨(0x5020) / 4, 16, 8⟩
def RTC_TIME_HOUR : Fld := ⟨(0x5020) / 4, 24, 8⟩
def RTC_DATE_DAY : Fld := ⟨(0x5024) / 4, 0, 8⟩
def RTC_DATE_MONTH : Fld := ⟨(0x5024) / 4, 8, 5⟩
def RTC_DATE_WDAY : Fld := ⟨(0x5024) / 4, 13, 3⟩
def RTC_DATE_YEAR : Fld := ⟨(0x5024) / 4, 16, 16⟩
def RTC_SET_TIME_HUND : Fld := ⟨(0x5028) / 4, 0, 8⟩
def RTC_SET_TIME_SEC : Fld := ⟨(0x5028) / 4, 8, 8⟩
def RTC_SET_TIME_MIN : Fld := ⟨(0x5028) / 4, 16, 8⟩
def RTC_SET_TIME_HOUR : Fld := ⟨(0x5028) / 4, 24, 8⟩
def RTC_SET_DATE_DAY : Fld := ⟨(0x502C) / 4, 0, 8⟩
def RTC_SET_DATE_MONTH : Fld := ⟨(0x502C) / 4, 8, 5⟩
def RTC_SET_DATE_YEAR : Fld := ⟨(0x502C) / 4, 16, 16⟩
def RTC_CMD_COMMIT : Fld := ⟨(0x5030) / 4, 0, 1⟩
def RTC_ALARM_TIME : Fld := ⟨(0x5034) / 4, 0, 32⟩
def RTC_ALARM_CTRL_MATCH : Fld := ⟨(0x5038) / 4, 0, 4⟩
def RTC_ALARM_CTRL_IE_ALARM : Fld := ⟨(0x5038) / 4, 8, 1⟩
def RTC_ALARM_CTRL_IE_FLAGS : Fld := ⟨(0x5038) / 4, 9, 1⟩
def RTC_TRIM_TRIM : Fld := ⟨(0x503C) / 4, 0, 8⟩
def RTC_COMMITS_COUNT : Fld := ⟨(0x5F08) / 4, 0, 32⟩
def RTC_REJECTS_COUNT : Fld := ⟨(0x5F0C) / 4, 0, 32⟩
def FWU_STATUS_PHASE : Fld := ⟨(0x600C) / 4, 0, 4⟩
def FWU_STATUS_RESULT : Fld := ⟨(0x600C) / 4, 8, 8⟩
def FWU_STATUS_STANDBY_READY : Fld := ⟨(0x600C) / 4, 16, 1⟩
def FWU_STATUS_NOTICE : Fld := ⟨(0x600C) / 4, 17, 1⟩
def FWU_CMD_OP : Fld := ⟨(0x6020) / 4, 0, 4⟩
def FWU_STAGE_LEN_LEN : Fld := ⟨(0x6024) / 4, 0, 25⟩
def FWU_RECEIVED_BYTES : Fld := ⟨(0x6028) / 4, 0, 25⟩
def FWU_TRIAL_S_SECONDS : Fld := ⟨(0x602C) / 4, 0, 16⟩
def FWU_ACTIVE_VER_VERSION : Fld := ⟨(0x6030) / 4, 0, 32⟩
def FWU_PREVIOUS_VER_VERSION : Fld := ⟨(0x6034) / 4, 0, 32⟩
def FWU_STAGED_VER_VERSION : Fld := ⟨(0x6038) / 4, 0, 32⟩
def FWU_SLOTS_ACTIVE : Fld := ⟨(0x603C) / 4, 0, 2⟩
def FWU_SLOTS_PREVIOUS : Fld := ⟨(0x603C) / 4, 4, 2⟩
def FWU_SLOTS_STAGING : Fld := ⟨(0x603C) / 4, 8, 2⟩
def FWU_HW_REV_REV : Fld := ⟨(0x6040) / 4, 0, 16⟩
def FWU_SERIAL_LO_SERIAL : Fld := ⟨(0x6044) / 4, 0, 32⟩
def FWU_SERIAL_HI_SERIAL : Fld := ⟨(0x6048) / 4, 0, 32⟩
def FWU_CHUNK_REJECT_COUNT : Fld := ⟨(0x6F08) / 4, 0, 32⟩
def FWU_CMD_REJECT_COUNT : Fld := ⟨(0x6F0C) / 4, 0, 32⟩
def FWU_VERIFY_FAILS_COUNT : Fld := ⟨(0x6F10) / 4, 0, 32⟩
def FWU_SWAPS_COUNT : Fld := ⟨(0x6F14) / 4, 0, 32⟩
def FWU_ROLLBACKS_COUNT : Fld := ⟨(0x6F18) / 4, 0, 32⟩
def LAN_SEL_SOURCE (i : Nat) : Fld := ⟨(0x7020 + 0x4 * i) / 4, 0, 9⟩
def LAN_SEL_CAPABLE (i : Nat) : Fld := ⟨(0x7020 + 0x4 * i) / 4, 14, 1⟩
def LAN_SEL_EN (i : Nat) : Fld := ⟨(0x7020 + 0x4 * i) / 4, 15, 1⟩
def LAN_CAUSE_SOURCE : Fld := ⟨(0x70A0) / 4, 0, 9⟩
def LAN_CAUSE_VALID : Fld := ⟨(0x70A0) / 4, 15, 1⟩
def LAN_CAUSE_SEL : Fld := ⟨(0x70A0) / 4, 16, 5⟩
def LAN_HIT_HIT : Fld := ⟨(0x70A4) / 4, 0, 32⟩
def LAN_DORMANT_WAKES_COUNT : Fld := ⟨(0x70A8) / 4, 0, 16⟩
def PNL_STATUS_BUSY : Fld := ⟨(0x800C) / 4, 0, 1⟩
def PNL_STATUS_PENDING : Fld := ⟨(0x800C) / 4, 1, 1⟩
def PNL_STATUS_RECOVERING : Fld := ⟨(0x800C) / 4, 2, 1⟩
def PNL_STATUS_INTERRUPTED : Fld := ⟨(0x800C) / 4, 3, 1⟩
def PNL_CMD_UPDATE : Fld := ⟨(0x8020) / 4, 0, 1⟩
def PNL_UPDATES_COUNT : Fld := ⟨(0x8F08) / 4, 0, 32⟩
def PNL_INTERRUPTED_UPDATES_COUNT : Fld := ⟨(0x8F0C) / 4, 0, 32⟩
def MIQ_PEND_PEND (i : Nat) : Fld := ⟨(0x9020 + 0x4 * i) / 4, 0, 32⟩
def MIQ_TH_TH_SUPA : Fld := ⟨(0x9060) / 4, 0, 3⟩
def MIQ_TH_TH_SUPB : Fld := ⟨(0x9060) / 4, 4, 3⟩
def MIQ_TH_TH_EVENT : Fld := ⟨(0x9060) / 4, 8, 3⟩
def MIQ_SRC_PRIO (i : Nat) : Fld := ⟨(0x9100 + 0x4 * i) / 4, 0, 3⟩
def MIQ_SRC_TARGET (i : Nat) : Fld := ⟨(0x9100 + 0x4 * i) / 4, 4, 2⟩
def MIQ_SRC_VECTOR (i : Nat) : Fld := ⟨(0x9100 + 0x4 * i) / 4, 8, 6⟩
def MIQ_SRC_LEVEL (i : Nat) : Fld := ⟨(0x9100 + 0x4 * i) / 4, 31, 1⟩
def MIQ_EVENTS_SENT_COUNT : Fld := ⟨(0x9F08) / 4, 0, 32⟩
def MTM_CTRL_RESTART (inst : Nat) : Fld := ⟨(0xA008 + 0x1000 * inst) / 4, 6, 1⟩
def MTM_STATUS_CH_PEND (inst : Nat) : Fld := ⟨(0xA00C + 0x1000 * inst) / 4, 0, 8⟩
def MTM_STATUS_UPD_PENDING (inst : Nat) : Fld := ⟨(0xA00C + 0x1000 * inst) / 4, 8, 1⟩
def MTM_CLK_N (inst : Nat) : Fld := ⟨(0xA020 + 0x1000 * inst) / 4, 0, 16⟩
def MTM_CLK_F (inst : Nat) : Fld := ⟨(0xA020 + 0x1000 * inst) / 4, 16, 8⟩
def MTM_CLK_SRC (inst : Nat) : Fld := ⟨(0xA020 + 0x1000 * inst) / 4, 24, 4⟩
def MTM_PERIOD_LO_PERIOD (inst : Nat) : Fld := ⟨(0xA024 + 0x1000 * inst) / 4, 0, 32⟩
def MTM_PERIOD_HI_PERIOD (inst : Nat) : Fld := ⟨(0xA028 + 0x1000 * inst) / 4, 0, 16⟩
def MTM_COUNT_LO_COUNT (inst : Nat) : Fld := ⟨(0xA02C + 0x1000 * inst) / 4, 0, 32⟩
def MTM_COUNT_HI_COUNT (inst : Nat) : Fld := ⟨(0xA030 + 0x1000 * inst) / 4, 0, 16⟩
def MTM_CH_CTRL_MODE (inst i : Nat) : Fld := ⟨(0xA100 + 0x1000 * inst + 0x40 * i) / 4, 0, 2⟩
def MTM_CH_CTRL_EDGE (inst i : Nat) : Fld := ⟨(0xA100 + 0x1000 * inst + 0x40 * i) / 4, 2, 2⟩
def MTM_CH_CTRL_POL (inst i : Nat) : Fld := ⟨(0xA100 + 0x1000 * inst + 0x40 * i) / 4, 4, 1⟩
def MTM_CH_CTRL_IE (inst i : Nat) : Fld := ⟨(0xA100 + 0x1000 * inst + 0x40 * i) / 4, 8, 3⟩
def MTM_CH_CTRL_FILT (inst i : Nat) : Fld := ⟨(0xA100 + 0x1000 * inst + 0x40 * i) / 4, 16, 8⟩
def MTM_CH_CTRL_PRESC (inst i : Nat) : Fld := ⟨(0xA100 + 0x1000 * inst + 0x40 * i) / 4, 24, 8⟩
def MTM_FLAGS_CAP (inst i : Nat) : Fld := ⟨(0xA104 + 0x1000 * inst + 0x40 * i) / 4, 0, 1⟩
def MTM_FLAGS_OVR (inst i : Nat) : Fld := ⟨(0xA104 + 0x1000 * inst + 0x40 * i) / 4, 1, 1⟩
def MTM_FLAGS_CYC (inst i : Nat) : Fld := ⟨(0xA104 + 0x1000 * inst + 0x40 * i) / 4, 2, 1⟩
def MTM_CAP_LO_CAP (inst i : Nat) : Fld := ⟨(0xA108 + 0x1000 * inst + 0x40 * i) / 4, 0, 32⟩
def MTM_CAP_HI_CAP (inst i : Nat) : Fld := ⟨(0xA10C + 0x1000 * inst + 0x40 * i) / 4, 0, 16⟩
def MTM_FALL_LO_FALL (inst i : Nat) : Fld := ⟨(0xA110 + 0x1000 * inst + 0x40 * i) / 4, 0, 32⟩
def MTM_FALL_HI_FALL (inst i : Nat) : Fld := ⟨(0xA114 + 0x1000 * inst + 0x40 * i) / 4, 0, 16⟩
def MTM_WIDTH_LO_WIDTH (inst i : Nat) : Fld := ⟨(0xA118 + 0x1000 * inst + 0x40 * i) / 4, 0, 32⟩
def MTM_WIDTH_HI_WIDTH (inst i : Nat) : Fld := ⟨(0xA11C + 0x1000 * inst + 0x40 * i) / 4, 0, 16⟩
def MTM_DUTY_LO_DUTY (inst i : Nat) : Fld := ⟨(0xA120 + 0x1000 * inst + 0x40 * i) / 4, 0, 32⟩
def MTM_DUTY_HI_DUTY (inst i : Nat) : Fld := ⟨(0xA124 + 0x1000 * inst + 0x40 * i) / 4, 0, 16⟩
def MTM_PHASE_LO_PHASE (inst i : Nat) : Fld := ⟨(0xA128 + 0x1000 * inst + 0x40 * i) / 4, 0, 32⟩
def MTM_PHASE_HI_PHASE (inst i : Nat) : Fld := ⟨(0xA12C + 0x1000 * inst + 0x40 * i) / 4, 0, 16⟩
def MTM_CAPTURES_COUNT (inst : Nat) : Fld := ⟨(0xAF08 + 0x1000 * inst) / 4, 0, 32⟩
def MTM_OVERRUNS_COUNT (inst : Nat) : Fld := ⟨(0xAF0C + 0x1000 * inst) / 4, 0, 32⟩
def FIO_STATUS_MUX_CONFLICT (inst : Nat) : Fld := ⟨(0x1200C + 0x1000 * inst) / 4, 0, 1⟩
def FIO_STATUS_BAD_FUNC (inst : Nat) : Fld := ⟨(0x1200C + 0x1000 * inst) / 4, 1, 1⟩
def FIO_OUT_OUT (inst : Nat) : Fld := ⟨(0x12020 + 0x1000 * inst) / 4, 0, 32⟩
def FIO_OE_OE (inst : Nat) : Fld := ⟨(0x12024 + 0x1000 * inst) / 4, 0, 32⟩
def FIO_IN_IN (inst : Nat) : Fld := ⟨(0x12028 + 0x1000 * inst) / 4, 0, 32⟩
def FIO_IRQ_FLAG_FLAG (inst : Nat) : Fld := ⟨(0x1202C + 0x1000 * inst) / 4, 0, 32⟩
def FIO_CONFLICT_CONFLICT (inst : Nat) : Fld := ⟨(0x12030 + 0x1000 * inst) / 4, 0, 32⟩
def FIO_SLEEP_LO_SLEEP (inst : Nat) : Fld := ⟨(0x12034 + 0x1000 * inst) / 4, 0, 32⟩
def FIO_SLEEP_HI_SLEEP (inst : Nat) : Fld := ⟨(0x12038 + 0x1000 * inst) / 4, 0, 32⟩
def FIO_PINCFG_FUNC (inst i : Nat) : Fld := ⟨(0x12100 + 0x1000 * inst + 0x4 * i) / 4, 0, 4⟩
def FIO_PINCFG_SEL (inst i : Nat) : Fld := ⟨(0x12100 + 0x1000 * inst + 0x4 * i) / 4, 4, 9⟩
def FIO_PINCFG_PULL (inst i : Nat) : Fld := ⟨(0x12100 + 0x1000 * inst + 0x4 * i) / 4, 14, 2⟩
def FIO_PINCFG_DRIVE (inst i : Nat) : Fld := ⟨(0x12100 + 0x1000 * inst + 0x4 * i) / 4, 16, 2⟩
def FIO_PINCFG_OD (inst i : Nat) : Fld := ⟨(0x12100 + 0x1000 * inst + 0x4 * i) / 4, 18, 1⟩
def FIO_PINCFG_SLOW (inst i : Nat) : Fld := ⟨(0x12100 + 0x1000 * inst + 0x4 * i) / 4, 19, 1⟩
def FIO_PINCFG_IRQ (inst i : Nat) : Fld := ⟨(0x12100 + 0x1000 * inst + 0x4 * i) / 4, 20, 3⟩
def FIO_EDGES_COUNT (inst : Nat) : Fld := ⟨(0x12F08 + 0x1000 * inst) / 4, 0, 32⟩
def PIO_STATUS_ANY_RUN (inst : Nat) : Fld := ⟨(0x1600C + 0x1000 * inst) / 4, 0, 1⟩
def PIO_GROUP_START_START (inst : Nat) : Fld := ⟨(0x16020 + 0x1000 * inst) / 4, 0, 32⟩
def PIO_GROUP_STOP_STOP (inst : Nat) : Fld := ⟨(0x16024 + 0x1000 * inst) / 4, 0, 32⟩
def PIO_CLK_RESTART_RESTART (inst : Nat) : Fld := ⟨(0x16028 + 0x1000 * inst) / 4, 0, 32⟩
def PIO_RUN_RUN (inst : Nat) : Fld := ⟨(0x1602C + 0x1000 * inst) / 4, 0, 32⟩
def PIO_IMEM_ENTRY (inst i : Nat) : Fld := ⟨(0x16100 + 0x1000 * inst + 0x4 * i) / 4, 0, 32⟩
def PIO_CH_CFG_BASE (inst i : Nat) : Fld := ⟨(0x16900 + 0x1000 * inst + 0x30 * i) / 4, 0, 10⟩
def PIO_CH_CFG_LEN_M1 (inst i : Nat) : Fld := ⟨(0x16900 + 0x1000 * inst + 0x30 * i) / 4, 10, 5⟩
def PIO_DIV_N (inst i : Nat) : Fld := ⟨(0x16904 + 0x1000 * inst + 0x30 * i) / 4, 0, 16⟩
def PIO_DIV_F (inst i : Nat) : Fld := ⟨(0x16904 + 0x1000 * inst + 0x30 * i) / 4, 16, 8⟩
def PIO_TXF_DATA (inst i : Nat) : Fld := ⟨(0x16908 + 0x1000 * inst + 0x30 * i) / 4, 0, 32⟩
def PIO_RXF_DATA (inst i : Nat) : Fld := ⟨(0x1690C + 0x1000 * inst + 0x30 * i) / 4, 0, 32⟩
def PIO_FSTAT_TX_LEVEL (inst i : Nat) : Fld := ⟨(0x16910 + 0x1000 * inst + 0x30 * i) / 4, 0, 3⟩
def PIO_FSTAT_RX_LEVEL (inst i : Nat) : Fld := ⟨(0x16910 + 0x1000 * inst + 0x30 * i) / 4, 4, 3⟩
def PIO_FLAGS_STALE (inst i : Nat) : Fld := ⟨(0x16914 + 0x1000 * inst + 0x30 * i) / 4, 0, 1⟩
def PIO_FLAGS_DROP (inst i : Nat) : Fld := ⟨(0x16914 + 0x1000 * inst + 0x30 * i) / 4, 1, 1⟩
def PIO_FLAGS_TX_OVF (inst i : Nat) : Fld := ⟨(0x16914 + 0x1000 * inst + 0x30 * i) / 4, 2, 1⟩
def PIO_FLAGS_RX_EMPTY (inst i : Nat) : Fld := ⟨(0x16914 + 0x1000 * inst + 0x30 * i) / 4, 3, 1⟩
def PIO_FLAGS_BAD_INSTR (inst i : Nat) : Fld := ⟨(0x16914 + 0x1000 * inst + 0x30 * i) / 4, 4, 1⟩
def PIO_IE_FLAGS_IE (inst i : Nat) : Fld := ⟨(0x16918 + 0x1000 * inst + 0x30 * i) / 4, 0, 5⟩
def PIO_IE_TX_ROOM_IE (inst i : Nat) : Fld := ⟨(0x16918 + 0x1000 * inst + 0x30 * i) / 4, 5, 1⟩
def PIO_IE_RX_DATA_IE (inst i : Nat) : Fld := ⟨(0x16918 + 0x1000 * inst + 0x30 * i) / 4, 6, 1⟩
def PIO_PC_OFFSET (inst i : Nat) : Fld := ⟨(0x1691C + 0x1000 * inst + 0x30 * i) / 4, 0, 5⟩
def PIO_PC_WAITING (inst i : Nat) : Fld := ⟨(0x1691C + 0x1000 * inst + 0x30 * i) / 4, 8, 1⟩
def PIO_K0_COUNT (inst i : Nat) : Fld := ⟨(0x16920 + 0x1000 * inst + 0x30 * i) / 4, 0, 16⟩
def PIO_K1_COUNT (inst i : Nat) : Fld := ⟨(0x16924 + 0x1000 * inst + 0x30 * i) / 4, 0, 16⟩
def PIO_SHIFT_TX_COUNT (inst i : Nat) : Fld := ⟨(0x16928 + 0x1000 * inst + 0x30 * i) / 4, 0, 6⟩
def PIO_SHIFT_RX_COUNT (inst i : Nat) : Fld := ⟨(0x16928 + 0x1000 * inst + 0x30 * i) / 4, 8, 6⟩
def PIO_STALE_PULLS_COUNT (inst : Nat) : Fld := ⟨(0x16F08 + 0x1000 * inst) / 4, 0, 32⟩
def PIO_DROPPED_PUSHES_COUNT (inst : Nat) : Fld := ⟨(0x16F0C + 0x1000 * inst) / 4, 0, 32⟩
def PIO_TX_OVERFLOWS_COUNT (inst : Nat) : Fld := ⟨(0x16F10 + 0x1000 * inst) / 4, 0, 32⟩
def TBS_TB_LINE_LINE_TICKS (i : Nat) : Fld := ⟨(0x1A020 + 0x20 * i) / 4, 0, 13⟩
def TBS_TB_FMT_LINES (i : Nat) : Fld := ⟨(0x1A024 + 0x20 * i) / 4, 0, 10⟩
def TBS_TB_FMT_VIS_LINES (i : Nat) : Fld := ⟨(0x1A024 + 0x20 * i) / 4, 16, 10⟩
def TBS_TB_VBLANK_VBLANK_START (i : Nat) : Fld := ⟨(0x1A028 + 0x20 * i) / 4, 0, 10⟩
def TBS_TB_ORIGIN_LO_ORIGIN (i : Nat) : Fld := ⟨(0x1A02C + 0x20 * i) / 4, 0, 32⟩
def TBS_TB_ORIGIN_HI_ORIGIN (i : Nat) : Fld := ⟨(0x1A030 + 0x20 * i) / 4, 0, 32⟩
def TBS_TB_CTL_RUN (i : Nat) : Fld := ⟨(0x1A034 + 0x20 * i) / 4, 0, 1⟩
def TBS_TB_CTL_COMMIT (i : Nat) : Fld := ⟨(0x1A034 + 0x20 * i) / 4, 1, 1⟩
def TBS_TB_STAT_RUNNING (i : Nat) : Fld := ⟨(0x1A038 + 0x20 * i) / 4, 0, 1⟩
def TBS_TB_STAT_LOCKED (i : Nat) : Fld := ⟨(0x1A038 + 0x20 * i) / 4, 1, 1⟩
def TBS_TB_STAT_REJECT (i : Nat) : Fld := ⟨(0x1A038 + 0x20 * i) / 4, 2, 1⟩
def TBS_TB_STAT_REJECT_CODE (i : Nat) : Fld := ⟨(0x1A038 + 0x20 * i) / 4, 4, 3⟩
def TBS_TB_STAT_BOUND (i : Nat) : Fld := ⟨(0x1A038 + 0x20 * i) / 4, 16, 11⟩
def TBS_TB_FRAME_NO_FRAME (i : Nat) : Fld := ⟨(0x1A03C + 0x20 * i) / 4, 0, 32⟩
def PSH_STATUS_BUSY : Fld := ⟨(0x1B00C) / 4, 0, 1⟩
def PSH_STATUS_STACK0_SR : Fld := ⟨(0x1B00C) / 4, 1, 1⟩
def PSH_STATUS_STACK1_SR : Fld := ⟨(0x1B00C) / 4, 2, 1⟩
def PSH_CFG_ETHERTYPE : Fld := ⟨(0x1B020) / 4, 0, 16⟩
def PSH_TX_MARGIN_MARGIN : Fld := ⟨(0x1B024) / 4, 0, 16⟩
def PSH_SR_CTRL_SR_EN : Fld := ⟨(0x1B028) / 4, 0, 1⟩
def PSH_SR_CTRL_SR_MARGIN : Fld := ⟨(0x1B028) / 4, 16, 16⟩
def PSH_MIN_SLACK_SLACK : Fld := ⟨(0x1B02C) / 4, 0, 24⟩
def PSH_SINK_CTRL_EN (i : Nat) : Fld := ⟨(0x1B100 + 0x100 * i) / 4, 0, 1⟩
def PSH_SINK_CTRL_SWAP (i : Nat) : Fld := ⟨(0x1B100 + 0x100 * i) / 4, 1, 1⟩
def PSH_SINK_CTRL_FMT (i : Nat) : Fld := ⟨(0x1B100 + 0x100 * i) / 4, 2, 2⟩
def PSH_SINK_CTRL_TDM_PAIR (i : Nat) : Fld := ⟨(0x1B100 + 0x100 * i) / 4, 4, 3⟩
def PSH_SINK_CTRL_LOOKAHEAD (i : Nat) : Fld := ⟨(0x1B100 + 0x100 * i) / 4, 7, 1⟩
def PSH_SINK_CTRL_DELAY_MS (i : Nat) : Fld := ⟨(0x1B100 + 0x100 * i) / 4, 8, 4⟩
def PSH_SINK_CTRL_ACTIVE_B (i : Nat) : Fld := ⟨(0x1B100 + 0x100 * i) / 4, 16, 1⟩
def PSH_SINK_CTRL_SWAP_PENDING (i : Nat) : Fld := ⟨(0x1B100 + 0x100 * i) / 4, 17, 1⟩
def PSH_SET_A_HEADROOM (i : Nat) : Fld := ⟨(0x1B104 + 0x100 * i) / 4, 0, 3⟩
def PSH_SET_A_LIM_TH (i : Nat) : Fld := ⟨(0x1B104 + 0x100 * i) / 4, 8, 8⟩
def PSH_SET_A_LIM_REL (i : Nat) : Fld := ⟨(0x1B104 + 0x100 * i) / 4, 16, 3⟩
def PSH_SET_B_HEADROOM (i : Nat) : Fld := ⟨(0x1B108 + 0x100 * i) / 4, 0, 3⟩
def PSH_SET_B_LIM_TH (i : Nat) : Fld := ⟨(0x1B108 + 0x100 * i) / 4, 8, 8⟩
def PSH_SET_B_LIM_REL (i : Nat) : Fld := ⟨(0x1B108 + 0x100 * i) / 4, 16, 3⟩
def PSH_SRC_A_TENANT (i j : Nat) : Fld := ⟨(0x1B110 + 0x100 * i + 0x4 * j) / 4, 0, 10⟩
def PSH_SRC_A_PATH (i j : Nat) : Fld := ⟨(0x1B110 + 0x100 * i + 0x4 * j) / 4, 10, 1⟩
def PSH_SRC_A_GAIN (i j : Nat) : Fld := ⟨(0x1B110 + 0x100 * i + 0x4 * j) / 4, 16, 8⟩
def PSH_SRC_A_SRC_EN (i j : Nat) : Fld := ⟨(0x1B110 + 0x100 * i + 0x4 * j) / 4, 31, 1⟩
def PSH_SRC_B_TENANT (i j : Nat) : Fld := ⟨(0x1B150 + 0x100 * i + 0x4 * j) / 4, 0, 10⟩
def PSH_SRC_B_PATH (i j : Nat) : Fld := ⟨(0x1B150 + 0x100 * i + 0x4 * j) / 4, 10, 1⟩
def PSH_SRC_B_GAIN (i j : Nat) : Fld := ⟨(0x1B150 + 0x100 * i + 0x4 * j) / 4, 16, 8⟩
def PSH_SRC_B_SRC_EN (i j : Nat) : Fld := ⟨(0x1B150 + 0x100 * i + 0x4 * j) / 4, 31, 1⟩
def PSH_REGIONS_SENT_COUNT : Fld := ⟨(0x1BF08) / 4, 0, 32⟩
def PSH_SWEEP_REGIONS_COUNT : Fld := ⟨(0x1BF0C) / 4, 0, 32⟩
def PSH_STALE_DISCARDS_COUNT : Fld := ⟨(0x1BF10) / 4, 0, 32⟩
def PSH_ABSENT_DISCARDS_COUNT : Fld := ⟨(0x1BF14) / 4, 0, 32⟩
def PSH_PORT_DOWN_DISCARDS_COUNT : Fld := ⟨(0x1BF18) / 4, 0, 32⟩
def PSH_LATE_AUDIO_COUNT : Fld := ⟨(0x1BF1C) / 4, 0, 32⟩
def PSH_RESYNC_REQS_COUNT : Fld := ⟨(0x1BF20) / 4, 0, 32⟩
def PSH_BAD_RX_COUNT : Fld := ⟨(0x1BF24) / 4, 0, 32⟩
def PSH_DUP_RX_COUNT : Fld := ⟨(0x1BF28) / 4, 0, 32⟩
def PSH_SINK_SLIPS_COUNT (i : Nat) : Fld := ⟨(0x1BF2C + 0x4 * i) / 4, 0, 32⟩
def PSH_SINK_SET_REJECT_COUNT : Fld := ⟨(0x1BF4C) / 4, 0, 32⟩
def PTP_CFG_DOMAIN : Fld := ⟨(0x1C020) / 4, 0, 8⟩
def PTP_CFG_PRIORITY1 : Fld := ⟨(0x1C020) / 4, 8, 8⟩
def PTP_CFG_PRIORITY2 : Fld := ⟨(0x1C020) / 4, 16, 8⟩
def PTP_CFG_LOG_SYNC : Fld := ⟨(0x1C020) / 4, 24, 4⟩
def PTP_CFG_LOG_ANNOUNCE : Fld := ⟨(0x1C020) / 4, 28, 4⟩
def PTP_TIME_LO_TIME : Fld := ⟨(0x1C024) / 4, 0, 32⟩
def PTP_TIME_HI_TIME : Fld := ⟨(0x1C028) / 4, 0, 32⟩
def PTP_SYNC_SENT_COUNT : Fld := ⟨(0x1CF08) / 4, 0, 32⟩
def PTP_DELAY_RESP_SENT_COUNT : Fld := ⟨(0x1CF0C) / 4, 0, 32⟩
def PTP_FOREIGN_ANNOUNCE_COUNT : Fld := ⟨(0x1CF10) / 4, 0, 32⟩
def STN_STATUS_CHG (inst : Nat) : Fld := ⟨(0x2000C + 0x1000 * inst) / 4, 0, 1⟩
def STN_ENT_CTRL_EN (inst i : Nat) : Fld := ⟨(0x20100 + 0x1000 * inst + 0x38 * i) / 4, 0, 1⟩
def STN_ENT_CTRL_DUAL (inst i : Nat) : Fld := ⟨(0x20100 + 0x1000 * inst + 0x38 * i) / 4, 1, 1⟩
def STN_ENT_CTRL_HOLD_POLICY (inst i : Nat) : Fld := ⟨(0x20100 + 0x1000 * inst + 0x38 * i) / 4, 2, 1⟩
def STN_ENT_CTRL_SLOT (inst i : Nat) : Fld := ⟨(0x20100 + 0x1000 * inst + 0x38 * i) / 4, 4, 2⟩
def STN_ENT_CTRL_PRESENT_DELAY (inst i : Nat) : Fld := ⟨(0x20100 + 0x1000 * inst + 0x38 * i) / 4, 6, 2⟩
def STN_ENT_CTRL_FORCE_RESYNC (inst i : Nat) : Fld := ⟨(0x20100 + 0x1000 * inst + 0x38 * i) / 4, 8, 1⟩
def STN_ENT_CTRL_TENANT (inst i : Nat) : Fld := ⟨(0x20100 + 0x1000 * inst + 0x38 * i) / 4, 16, 10⟩
def STN_PORTS_PORT_A (inst i : Nat) : Fld := ⟨(0x20104 + 0x1000 * inst + 0x38 * i) / 4, 0, 4⟩
def STN_PORTS_PORT_B (inst i : Nat) : Fld := ⟨(0x20104 + 0x1000 * inst + 0x38 * i) / 4, 4, 4⟩
def STN_PORTS_ACTIVE_B (inst i : Nat) : Fld := ⟨(0x20104 + 0x1000 * inst + 0x38 * i) / 4, 8, 1⟩
def STN_PORTS_VID (inst i : Nat) : Fld := ⟨(0x20104 + 0x1000 * inst + 0x38 * i) / 4, 16, 12⟩
def STN_MAC_LO_MAC (inst i : Nat) : Fld := ⟨(0x20108 + 0x1000 * inst + 0x38 * i) / 4, 0, 32⟩
def STN_MAC_HI_MAC (inst i : Nat) : Fld := ⟨(0x2010C + 0x1000 * inst + 0x38 * i) / 4, 0, 16⟩
def STN_REFRESH_REFRESH_PERIOD (inst i : Nat) : Fld := ⟨(0x20110 + 0x1000 * inst + 0x38 * i) / 4, 0, 16⟩
def STN_REFRESH_SWEEP_PTR (inst i : Nat) : Fld := ⟨(0x20110 + 0x1000 * inst + 0x38 * i) / 4, 16, 16⟩
def STN_STATE_STATE (inst i : Nat) : Fld := ⟨(0x20114 + 0x1000 * inst + 0x38 * i) / 4, 0, 2⟩
def STN_STATE_FULL_PENDING (inst i : Nat) : Fld := ⟨(0x20114 + 0x1000 * inst + 0x38 * i) / 4, 2, 1⟩
def STN_STATE_LINK_RX (inst i : Nat) : Fld := ⟨(0x20114 + 0x1000 * inst + 0x38 * i) / 4, 3, 2⟩
def STN_TX_SEQ_SEQ (inst i : Nat) : Fld := ⟨(0x20118 + 0x1000 * inst + 0x38 * i) / 4, 0, 32⟩
def STN_RX_SEQ_SEQ (inst i : Nat) : Fld := ⟨(0x2011C + 0x1000 * inst + 0x38 * i) / 4, 0, 32⟩
def STN_LAST_PRESENTED_FRAME (inst i : Nat) : Fld := ⟨(0x20120 + 0x1000 * inst + 0x38 * i) / 4, 0, 32⟩
def STN_RESYNCS_COUNT (inst i : Nat) : Fld := ⟨(0x20124 + 0x1000 * inst + 0x38 * i) / 4, 0, 32⟩
def STN_STALE_RX_COUNT (inst i : Nat) : Fld := ⟨(0x20128 + 0x1000 * inst + 0x38 * i) / 4, 0, 32⟩
def STN_LATE_PRESENTS_COUNT (inst i : Nat) : Fld := ⟨(0x2012C + 0x1000 * inst + 0x38 * i) / 4, 0, 32⟩
def STN_GAPS_COUNT (inst i : Nat) : Fld := ⟨(0x20130 + 0x1000 * inst + 0x38 * i) / 4, 0, 32⟩
def STN_ENT_REJECT_COUNT (inst : Nat) : Fld := ⟨(0x20F08 + 0x1000 * inst) / 4, 0, 32⟩
def SEC_STATUS_RING_A_UP (inst : Nat) : Fld := ⟨(0x4000C + 0x20000 * inst) / 4, 0, 1⟩
def SEC_STATUS_RING_B_UP (inst : Nat) : Fld := ⟨(0x4000C + 0x20000 * inst) / 4, 1, 1⟩
def SEC_STATUS_DMA_STOPPED (inst : Nat) : Fld := ⟨(0x4000C + 0x20000 * inst) / 4, 2, 1⟩
def SEC_STATUS_ENG_SERVICE (inst : Nat) : Fld := ⟨(0x4000C + 0x20000 * inst) / 4, 8, 9⟩
def SEC_RING_A_STATE (inst : Nat) : Fld := ⟨(0x40020 + 0x20000 * inst) / 4, 0, 2⟩
def SEC_RING_A_LAST_CAUSE (inst : Nat) : Fld := ⟨(0x40020 + 0x20000 * inst) / 4, 8, 8⟩
def SEC_RING_A_FAULT_COUNT (inst : Nat) : Fld := ⟨(0x40020 + 0x20000 * inst) / 4, 16, 8⟩
def SEC_RING_B_STATE (inst : Nat) : Fld := ⟨(0x40024 + 0x20000 * inst) / 4, 0, 2⟩
def SEC_RING_B_LAST_CAUSE (inst : Nat) : Fld := ⟨(0x40024 + 0x20000 * inst) / 4, 8, 8⟩
def SEC_RING_B_FAULT_COUNT (inst : Nat) : Fld := ⟨(0x40024 + 0x20000 * inst) / 4, 16, 8⟩
def SEC_CREDIT_OVER_COUNT (inst : Nat) : Fld := ⟨(0x40F08 + 0x20000 * inst) / 4, 0, 32⟩
def SEC_RING_FAULTS_COUNT (inst : Nat) : Fld := ⟨(0x40F0C + 0x20000 * inst) / 4, 0, 32⟩
def SEC_FLITS_A_COUNT (inst : Nat) : Fld := ⟨(0x40F10 + 0x20000 * inst) / 4, 0, 32⟩
def SEC_FLITS_B_COUNT (inst : Nat) : Fld := ⟨(0x40F14 + 0x20000 * inst) / 4, 0, 32⟩
def SBLT_STATUS_IDLE (inst : Nat) : Fld := ⟨(0x4100C + 0x20000 * inst) / 4, 0, 1⟩
def SBLT_STATUS_STAGING (inst : Nat) : Fld := ⟨(0x4100C + 0x20000 * inst) / 4, 1, 1⟩
def SBLT_ACTIVE_TRAILS (inst : Nat) : Fld := ⟨(0x41020 + 0x20000 * inst) / 4, 0, 8⟩
def SBLT_PIXELS_COUNT (inst : Nat) : Fld := ⟨(0x41F08 + 0x20000 * inst) / 4, 0, 32⟩
def SBLT_STAGED_COUNT (inst : Nat) : Fld := ⟨(0x41F0C + 0x20000 * inst) / 4, 0, 32⟩
def SBLT_WRITE_STALLS_COUNT (inst : Nat) : Fld := ⟨(0x41F10 + 0x20000 * inst) / 4, 0, 32⟩
def SDMA_STATUS_STOPPED (inst : Nat) : Fld := ⟨(0x42000 + 0x20000 * (inst / 4) + 0x1000 * (inst % 4) + 0xC) / 4, 0, 1⟩
def SDMA_STATUS_RESTARTING (inst : Nat) : Fld := ⟨(0x42000 + 0x20000 * (inst / 4) + 0x1000 * (inst % 4) + 0xC) / 4, 1, 1⟩
def SDMA_CH_TENANT (inst i : Nat) : Fld := ⟨(0x42000 + 0x20000 * (inst / 4) + 0x1000 * (inst % 4) + 0x20 + 0x4 * i) / 4, 0, 10⟩
def SDMA_CH_TCH (inst i : Nat) : Fld := ⟨(0x42000 + 0x20000 * (inst / 4) + 0x1000 * (inst % 4) + 0x20 + 0x4 * i) / 4, 10, 1⟩
def SDMA_CH_BUSY (inst i : Nat) : Fld := ⟨(0x42000 + 0x20000 * (inst / 4) + 0x1000 * (inst % 4) + 0x20 + 0x4 * i) / 4, 11, 1⟩
def SDMA_CH_TERMINATED (inst i : Nat) : Fld := ⟨(0x42000 + 0x20000 * (inst / 4) + 0x1000 * (inst % 4) + 0x20 + 0x4 * i) / 4, 12, 1⟩
def SDMA_BUS_ERRORS_COUNT (inst : Nat) : Fld := ⟨(0x42000 + 0x20000 * (inst / 4) + 0x1000 * (inst % 4) + 0xF08) / 4, 0, 32⟩
def SDMA_RESTARTS_COUNT (inst : Nat) : Fld := ⟨(0x42000 + 0x20000 * (inst / 4) + 0x1000 * (inst % 4) + 0xF0C) / 4, 0, 32⟩
def SDMA_TERMINATIONS_COUNT (inst : Nat) : Fld := ⟨(0x42000 + 0x20000 * (inst / 4) + 0x1000 * (inst % 4) + 0xF10) / 4, 0, 32⟩
def CMP_STATUS_IDLE (inst : Nat) : Fld := ⟨(0x4600C + 0x20000 * inst) / 4, 0, 1⟩
def CMP_STATUS_RELEASE_WAIT (inst : Nat) : Fld := ⟨(0x4600C + 0x20000 * inst) / 4, 1, 1⟩
def CMP_STATUS_PUSH_FULL (inst : Nat) : Fld := ⟨(0x4600C + 0x20000 * inst) / 4, 2, 1⟩
def CMP_LINES_QUEUED_LINES (inst : Nat) : Fld := ⟨(0x46020 + 0x20000 * inst) / 4, 0, 10⟩
def CMP_LINES_COUNT (inst : Nat) : Fld := ⟨(0x46F08 + 0x20000 * inst) / 4, 0, 32⟩
def CMP_RELEASE_STALLS_COUNT (inst : Nat) : Fld := ⟨(0x46F0C + 0x20000 * inst) / 4, 0, 32⟩
def CMP_OVL_ERRORS_COUNT (inst : Nat) : Fld := ⟨(0x46F10 + 0x20000 * inst) / 4, 0, 32⟩
def ENG_STATUS_LOCKED (inst : Nat) : Fld := ⟨(0x14000C + 0x10000 * inst) / 4, 0, 1⟩
def ENG_STATUS_INTERNAL_ERR (inst : Nat) : Fld := ⟨(0x14000C + 0x10000 * inst) / 4, 1, 1⟩
def ENG_STATUS_HB_IDLE (inst : Nat) : Fld := ⟨(0x14000C + 0x10000 * inst) / 4, 2, 1⟩
def ENG_STATUS_READY_CTX (inst : Nat) : Fld := ⟨(0x14000C + 0x10000 * inst) / 4, 8, 5⟩
def ENG_CTX_TENANT (inst i : Nat) : Fld := ⟨(0x140020 + 0x10000 * inst + 0x4 * i) / 4, 0, 10⟩
def ENG_CTX_OCC (inst i : Nat) : Fld := ⟨(0x140020 + 0x10000 * inst + 0x4 * i) / 4, 10, 1⟩
def ENG_CTX_WAITING_ON (inst i : Nat) : Fld := ⟨(0x140020 + 0x10000 * inst + 0x4 * i) / 4, 12, 3⟩
def ENG_LOAD_VIDEO_PCT (inst : Nat) : Fld := ⟨(0x140070 + 0x10000 * inst) / 4, 0, 8⟩
def ENG_LOAD_SOUND_PCT (inst : Nat) : Fld := ⟨(0x140070 + 0x10000 * inst) / 4, 8, 8⟩
def ENG_LOAD_BARREL_PCT (inst : Nat) : Fld := ⟨(0x140070 + 0x10000 * inst) / 4, 16, 8⟩
def ENG_ISSUED_COUNT (inst : Nat) : Fld := ⟨(0x140F08 + 0x10000 * inst) / 4, 0, 32⟩
def ENG_LATE_LINES_COUNT (inst : Nat) : Fld := ⟨(0x140F0C + 0x10000 * inst) / 4, 0, 32⟩
def ENG_CACHE_MISSES_COUNT (inst : Nat) : Fld := ⟨(0x140F10 + 0x10000 * inst) / 4, 0, 32⟩
def ENG_HEARTBEATS_COUNT (inst : Nat) : Fld := ⟨(0x140F14 + 0x10000 * inst) / 4, 0, 32⟩
def BNK_STATUS_SCRUBBING (inst : Nat) : Fld := ⟨(0x14100C + 0x10000 * inst) / 4, 0, 1⟩
def BNK_STATUS_RETAINED (inst : Nat) : Fld := ⟨(0x14100C + 0x10000 * inst) / 4, 1, 1⟩
def BNK_STATUS_CLEARING (inst : Nat) : Fld := ⟨(0x14100C + 0x10000 * inst) / 4, 2, 1⟩
def BNK_STATUS_CLEAR_DONE (inst : Nat) : Fld := ⟨(0x14100C + 0x10000 * inst) / 4, 3, 1⟩
def BNK_SCRUB_CTRL_SCRUB_EN (inst : Nat) : Fld := ⟨(0x141020 + 0x10000 * inst) / 4, 0, 1⟩
def BNK_SCRUB_CTRL_SCRUB_MS (inst : Nat) : Fld := ⟨(0x141020 + 0x10000 * inst) / 4, 8, 8⟩
def BNK_GRAFT_LEFT_LO_LEFT (inst : Nat) : Fld := ⟨(0x141024 + 0x10000 * inst) / 4, 0, 32⟩
def BNK_GRAFT_LEFT_HI_LEFT (inst : Nat) : Fld := ⟨(0x141028 + 0x10000 * inst) / 4, 0, 32⟩
def BNK_CE_ADDR_ADDR (inst : Nat) : Fld := ⟨(0x14102C + 0x10000 * inst) / 4, 0, 22⟩
def BNK_UE_ADDR_ADDR (inst : Nat) : Fld := ⟨(0x141030 + 0x10000 * inst) / 4, 0, 22⟩
def BNK_UE_ADDR_VALID (inst : Nat) : Fld := ⟨(0x141030 + 0x10000 * inst) / 4, 31, 1⟩
def BNK_CE_COUNT_COUNT (inst : Nat) : Fld := ⟨(0x141F08 + 0x10000 * inst) / 4, 0, 32⟩
def BNK_UE_COUNT_COUNT (inst : Nat) : Fld := ⟨(0x141F0C + 0x10000 * inst) / 4, 0, 32⟩
def BNK_CONF_VIDEO_COUNT (inst : Nat) : Fld := ⟨(0x141F10 + 0x10000 * inst) / 4, 0, 32⟩
def BNK_CONF_SOUND_COUNT (inst : Nat) : Fld := ⟨(0x141F14 + 0x10000 * inst) / 4, 0, 32⟩
def BNK_CONF_MIRROR_COUNT (inst : Nat) : Fld := ⟨(0x141F18 + 0x10000 * inst) / 4, 0, 32⟩
def BNK_CONF_FABRIC_COUNT (inst : Nat) : Fld := ⟨(0x141F1C + 0x10000 * inst) / 4, 0, 32⟩
def BNK_CONF_CPU_COUNT (inst : Nat) : Fld := ⟨(0x141F20 + 0x10000 * inst) / 4, 0, 32⟩
def BNK_CONF_DMA_COUNT (inst : Nat) : Fld := ⟨(0x141F24 + 0x10000 * inst) / 4, 0, 32⟩
def BNK_CONF_BLITTER_COUNT (inst : Nat) : Fld := ⟨(0x141F28 + 0x10000 * inst) / 4, 0, 32⟩
def BNK_SCRUB_PASSES_COUNT (inst : Nat) : Fld := ⟨(0x141F2C + 0x10000 * inst) / 4, 0, 32⟩
def RNG_STATUS_ESTATE (inst : Nat) : Fld := ⟨(0x14200C + 0x10000 * inst) / 4, 0, 3⟩
def RNG_STATUS_HOME_USED (inst : Nat) : Fld := ⟨(0x14200C + 0x10000 * inst) / 4, 8, 5⟩
def RNG_STATUS_MIRRORS_USED (inst : Nat) : Fld := ⟨(0x14200C + 0x10000 * inst) / 4, 16, 5⟩
def RNG_STATUS_TAKEOVER_USED (inst : Nat) : Fld := ⟨(0x14200C + 0x10000 * inst) / 4, 24, 3⟩
def RNG_FAULT_CAUSE (inst : Nat) : Fld := ⟨(0x142020 + 0x10000 * inst) / 4, 0, 4⟩
def RNG_FAULT_COUNT (inst : Nat) : Fld := ⟨(0x142020 + 0x10000 * inst) / 4, 8, 8⟩
def RNG_HOME_TENANT (inst i : Nat) : Fld := ⟨(0x142040 + 0x10000 * inst + 0x4 * i) / 4, 0, 10⟩
def RNG_HOME_OCC (inst i : Nat) : Fld := ⟨(0x142040 + 0x10000 * inst + 0x4 * i) / 4, 10, 1⟩
def RNG_HOME_MSLOT (inst i : Nat) : Fld := ⟨(0x142040 + 0x10000 * inst + 0x4 * i) / 4, 16, 11⟩
def RNG_HOME_MWARM (inst i : Nat) : Fld := ⟨(0x142040 + 0x10000 * inst + 0x4 * i) / 4, 27, 1⟩
def RNG_MIRROR_TENANT (inst i : Nat) : Fld := ⟨(0x142080 + 0x10000 * inst + 0x4 * i) / 4, 0, 10⟩
def RNG_MIRROR_OCC (inst i : Nat) : Fld := ⟨(0x142080 + 0x10000 * inst + 0x4 * i) / 4, 10, 1⟩
def RNG_MIRROR_MSTATE (inst i : Nat) : Fld := ⟨(0x142080 + 0x10000 * inst + 0x4 * i) / 4, 11, 2⟩
def RNG_MIRROR_HSLOT (inst i : Nat) : Fld := ⟨(0x142080 + 0x10000 * inst + 0x4 * i) / 4, 16, 11⟩
def RNG_TAKEOVER_TENANT (inst i : Nat) : Fld := ⟨(0x1420C0 + 0x10000 * inst + 0x4 * i) / 4, 0, 10⟩
def RNG_TAKEOVER_BUSY (inst i : Nat) : Fld := ⟨(0x1420C0 + 0x10000 * inst + 0x4 * i) / 4, 10, 1⟩
def RNG_TAKEOVER_MIRROR (inst i : Nat) : Fld := ⟨(0x1420C0 + 0x10000 * inst + 0x4 * i) / 4, 16, 4⟩
def RNG_RINGS_COUNT (inst : Nat) : Fld := ⟨(0x142F08 + 0x10000 * inst) / 4, 0, 32⟩
def RNG_PRESSURE_RINGS_COUNT (inst : Nat) : Fld := ⟨(0x142F0C + 0x10000 * inst) / 4, 0, 32⟩
def RNG_SUPPRESSED_COUNT (inst : Nat) : Fld := ⟨(0x142F10 + 0x10000 * inst) / 4, 0, 32⟩
def RNG_PROMOTIONS_COUNT (inst : Nat) : Fld := ⟨(0x142F14 + 0x10000 * inst) / 4, 0, 32⟩
def RNG_COLD_MIRRORS_COUNT (inst : Nat) : Fld := ⟨(0x142F18 + 0x10000 * inst) / 4, 0, 32⟩
def PRT_STATUS_LINK_UP (inst : Nat) : Fld := ⟨(0x60000C + 0x10000 * inst) / 4, 0, 1⟩
def PRT_STATUS_SFP_PRESENT (inst : Nat) : Fld := ⟨(0x60000C + 0x10000 * inst) / 4, 1, 1⟩
def PRT_STATUS_SFP_LOS (inst : Nat) : Fld := ⟨(0x60000C + 0x10000 * inst) / 4, 2, 1⟩
def PRT_STATUS_FEC_LOCK (inst : Nat) : Fld := ⟨(0x60000C + 0x10000 * inst) / 4, 3, 1⟩
def PRT_STATUS_TX_FAULT (inst : Nat) : Fld := ⟨(0x60000C + 0x10000 * inst) / 4, 4, 1⟩
def PRT_STATUS_CHG (inst : Nat) : Fld := ⟨(0x60000C + 0x10000 * inst) / 4, 8, 1⟩
def PRT_CFG_SPEED25 (inst : Nat) : Fld := ⟨(0x600020 + 0x10000 * inst) / 4, 0, 1⟩
def PRT_CFG_RSFEC (inst : Nat) : Fld := ⟨(0x600020 + 0x10000 * inst) / 4, 1, 1⟩
def PRT_CFG_TX_ON (inst : Nat) : Fld := ⟨(0x600020 + 0x10000 * inst) / 4, 2, 1⟩
def PRT_CFG_PTP_EN (inst : Nat) : Fld := ⟨(0x600020 + 0x10000 * inst) / 4, 3, 1⟩
def PRT_CFG_PCP (inst : Nat) : Fld := ⟨(0x600020 + 0x10000 * inst) / 4, 4, 3⟩
def PRT_CFG_PTP_VID (inst : Nat) : Fld := ⟨(0x600020 + 0x10000 * inst) / 4, 16, 12⟩
def PRT_MAC_LO_MAC (inst : Nat) : Fld := ⟨(0x600024 + 0x10000 * inst) / 4, 0, 32⟩
def PRT_MAC_HI_MAC (inst : Nat) : Fld := ⟨(0x600028 + 0x10000 * inst) / 4, 0, 16⟩
def PRT_TX_FRAMES_COUNT (inst : Nat) : Fld := ⟨(0x600F08 + 0x10000 * inst) / 4, 0, 32⟩
def PRT_RX_FRAMES_COUNT (inst : Nat) : Fld := ⟨(0x600F0C + 0x10000 * inst) / 4, 0, 32⟩
def PRT_RX_FCS_ERR_COUNT (inst : Nat) : Fld := ⟨(0x600F10 + 0x10000 * inst) / 4, 0, 32⟩
def PRT_RX_PAUSE_COUNT (inst : Nat) : Fld := ⟨(0x600F14 + 0x10000 * inst) / 4, 0, 32⟩
def PRT_TX_PAUSE_COUNT (inst : Nat) : Fld := ⟨(0x600F18 + 0x10000 * inst) / 4, 0, 32⟩
def PRT_RX_UNKNOWN_COUNT (inst : Nat) : Fld := ⟨(0x600F1C + 0x10000 * inst) / 4, 0, 32⟩
def PRT_LINK_DOWNS_COUNT (inst : Nat) : Fld := ⟨(0x600F20 + 0x10000 * inst) / 4, 0, 32⟩
def PRT_FEC_CORRECTED_COUNT (inst : Nat) : Fld := ⟨(0x600F24 + 0x10000 * inst) / 4, 0, 32⟩
def PRT_FEC_UNCORRECTED_COUNT (inst : Nat) : Fld := ⟨(0x600F28 + 0x10000 * inst) / 4, 0, 32⟩
def TEN_GEOM_WIDTH16 : Fld := ⟨(0xA0) / 4, 0, 6⟩
def TEN_GEOM_HEIGHT16 : Fld := ⟨(0xA0) / 4, 8, 6⟩
def TEN_GEOM_TB : Fld := ⟨(0xA0) / 4, 16, 2⟩
def TEN_CYC_CYC_PER_LINE : Fld := ⟨(0xA4) / 4, 0, 12⟩
def TEN_CYC_VIS_CYC : Fld := ⟨(0xA4) / 4, 16, 12⟩
def TEN_PACE_INPUT_LINE : Fld := ⟨(0xA8) / 4, 0, 10⟩
def TEN_PACE_LEAD : Fld := ⟨(0xA8) / 4, 16, 3⟩
def TEN_PACE_LAG_WARN : Fld := ⟨(0xA8) / 4, 20, 12⟩
def TEN_BEAM_LINE : Fld := ⟨(0xB0) / 4, 0, 10⟩
def TEN_BEAM_FRAME : Fld := ⟨(0xB0) / 4, 10, 22⟩
def TEN_LAG_LAG_LINES : Fld := ⟨(0xB4) / 4, 0, 16⟩
def TEN_VIOLATIONS_COUNT : Fld := ⟨(0xC0) / 4, 0, 32⟩
def TEN_VIOL_ADDR_ADDR : Fld := ⟨(0xC4) / 4, 0, 24⟩
def TEN_VIOL_INFO_WRITE : Fld := ⟨(0xC8) / 4, 0, 1⟩
def TEN_VIOL_INFO_MASTER : Fld := ⟨(0xC8) / 4, 1, 3⟩
def TEN_CONT_STATE : Fld := ⟨(0xD0) / 4, 0, 3⟩
def TEN_CONT_LOST : Fld := ⟨(0xD0) / 4, 3, 1⟩
def TEN_CONT_MOVING : Fld := ⟨(0xD0) / 4, 4, 1⟩
def TEN_CONT_EPOCH : Fld := ⟨(0xD0) / 4, 16, 16⟩
def TEN_PLACE_SLOT : Fld := ⟨(0xD4) / 4, 0, 11⟩
def TEN_PLACE_TAKEOVER : Fld := ⟨(0xD4) / 4, 11, 1⟩
def TEN_PLACE_TCTX : Fld := ⟨(0xD4) / 4, 12, 2⟩
def TEN_PLACE_PLACEMENT : Fld := ⟨(0xD4) / 4, 16, 16⟩
def TEN_MIRROR_MSLOT : Fld := ⟨(0xD8) / 4, 0, 11⟩
def TEN_MIRROR_MSTATE : Fld := ⟨(0xD8) / 4, 12, 2⟩
def TEN_OVL_CTRL_RESERVE : Fld := ⟨(0x200) / 4, 0, 1⟩
def TEN_OVL_CTRL_PROG_ORDER : Fld := ⟨(0x200) / 4, 1, 1⟩
def TEN_OVL_CTRL_ORDER : Fld := ⟨(0x200) / 4, 8, 8⟩
def TEN_OVL_CTRL_BATCH : Fld := ⟨(0x200) / 4, 16, 8⟩
def TEN_OVL_CTRL_COMMIT : Fld := ⟨(0x200) / 4, 24, 1⟩
def TEN_OVL_CTRL_PENDING : Fld := ⟨(0x200) / 4, 25, 1⟩
def TEN_OVL_MODE_MODE (i : Nat) : Fld := ⟨(0x210 + 0x10 * i) / 4, 0, 2⟩
def TEN_OVL_MODE_KEY (i : Nat) : Fld := ⟨(0x210 + 0x10 * i) / 4, 8, 8⟩
def TEN_OVL_MODE_WLO (i : Nat) : Fld := ⟨(0x210 + 0x10 * i) / 4, 16, 8⟩
def TEN_OVL_MODE_WHI (i : Nat) : Fld := ⟨(0x210 + 0x10 * i) / 4, 24, 8⟩
def TEN_OVL_POS_X (i : Nat) : Fld := ⟨(0x214 + 0x10 * i) / 4, 0, 11⟩
def TEN_OVL_POS_Y (i : Nat) : Fld := ⟨(0x214 + 0x10 * i) / 4, 16, 11⟩
def TEN_OVL_SIZE_WIDTH (i : Nat) : Fld := ⟨(0x218 + 0x10 * i) / 4, 0, 10⟩
def TEN_OVL_SIZE_HEIGHT (i : Nat) : Fld := ⟨(0x218 + 0x10 * i) / 4, 16, 10⟩
def TEN_OVL_IMAGE_OFFSET16 (i : Nat) : Fld := ⟨(0x21C + 0x10 * i) / 4, 0, 16⟩
def TEN_MBOX_LEN_LEN : Fld := Fld.ofByte (0x7F) 0 8
def TEN_LATE_LINES_COUNT : Fld := ⟨(0xF10) / 4, 0, 32⟩
def TEN_MAX_LAG_COUNT : Fld := ⟨(0xF14) / 4, 0, 32⟩
def TEN_OVL_DEFERRED_COUNT : Fld := ⟨(0xF18) / 4, 0, 32⟩
def TEN_PROMOTIONS_COUNT : Fld := ⟨(0xF1C) / 4, 0, 32⟩
def TEN_MOVES_COUNT : Fld := ⟨(0xF20) / 4, 0, 32⟩
def VID_STATUS_ZERO : Fld := ⟨(0x100C) / 4, 0, 8⟩
def VID_MODE_DEPTH (i : Nat) : Fld := ⟨(0x1030 + 0x10 * i) / 4, 0, 2⟩
def VID_MODE_PRIO (i : Nat) : Fld := ⟨(0x1030 + 0x10 * i) / 4, 2, 2⟩
def VID_MODE_MAPW (i : Nat) : Fld := ⟨(0x1030 + 0x10 * i) / 4, 4, 2⟩
def VID_MODE_MAPH (i : Nat) : Fld := ⟨(0x1030 + 0x10 * i) / 4, 6, 2⟩
def VID_SCROLLX_SCROLL (i : Nat) : Fld := Fld.ofByte (0x1032 + 0x10 * i) 0 11
def VID_SCROLLY_SCROLL (i : Nat) : Fld := ⟨(0x1034 + 0x10 * i) / 4, 0, 11⟩
def VID_MAPBASE_MAPBASE (i : Nat) : Fld := Fld.ofByte (0x1036 + 0x10 * i) 1 14
def VID_PATBASE_PATBASE (i : Nat) : Fld := ⟨(0x1038 + 0x10 * i) / 4, 5, 10⟩
def VID_ORDER_LAYER (i : Nat) : Fld := Fld.ofByte (0x1100 + 0x1 * i) 0 3
def VID_ORDER_SKIP (i : Nat) : Fld := Fld.ofByte (0x1100 + 0x1 * i) 7 1
def VID_NOWRAP_NOWRAP : Fld := ⟨(0x1108) / 4, 0, 4⟩
def SPR_STATUS_LINE_OVF : Fld := ⟨(0x200C) / 4, 0, 1⟩
def SPR_LIMIT_LIMIT : Fld := ⟨(0x2024) / 4, 0, 7⟩
def SPR_PATBASE_PATBASE : Fld := Fld.ofByte (0x2026) 5 10
def SPR_FIRST_FIRST : Fld := ⟨(0x2028) / 4, 0, 8⟩
def SPR_LINE_COUNT_LINE_COUNT : Fld := Fld.ofByte (0x2029) 0 7
def SPR_DROP_LAST_DROP_LAST : Fld := Fld.ofByte (0x202A) 0 8
def SPR_OVF_ANY_OVF : Fld := Fld.ofByte (0x202B) 0 1
def SPR_DROPS_COUNT : Fld := ⟨(0x2F08) / 4, 0, 32⟩
def SPR_OVF_LINES_COUNT : Fld := ⟨(0x2F0C) / 4, 0, 32⟩
def PAL_STATUS_PENDING : Fld := ⟨(0x300C) / 4, 0, 1⟩
def PAL_BACKDROP_BACKDROP : Fld := ⟨(0x3024) / 4, 0, 8⟩
def PAL_OFS_OFS (i : Nat) : Fld := Fld.ofByte (0x3025 + 0x1 * i) 0 8
def PAL_OFS_SPR_OFS : Fld := Fld.ofByte (0x3029) 0 8
def PAL_SNAPSHOTS_COUNT : Fld := ⟨(0x3F08) / 4, 0, 32⟩
def RAS_STATUS_ACTIVE : Fld := ⟨(0x400C) / 4, 0, 1⟩
def RAS_LIST_BASE_LIST_BASE : Fld := ⟨(0x4024) / 4, 3, 12⟩
def RAS_LIST_LEN_LIST_LEN : Fld := Fld.ofByte (0x4026) 0 11
def RAS_PTR_PTR : Fld := ⟨(0x4028) / 4, 0, 11⟩
def RAS_VLINE_VLINE : Fld := Fld.ofByte (0x402A) 0 10
def RAS_HCYC_HCYC : Fld := ⟨(0x402C) / 4, 0, 11⟩
def RAS_HPOS_HPOS : Fld := Fld.ofByte (0x402E) 0 10
def RAS_BFLAGS_BFLAGS : Fld := ⟨(0x4030) / 4, 0, 3⟩
def RAS_LM_PEND_PEND : Fld := Fld.ofByte (0x4031) 0 4
def RAS_ERR_ORDER_SKIP : Fld := Fld.ofByte (0x4032) 0 1
def RAS_ERR_BAD_TARGET : Fld := Fld.ofByte (0x4032) 1 1
def RAS_ERR_RANGE_SKIP : Fld := Fld.ofByte (0x4032) 2 1
def RAS_LM_LINE_LINE (i : Nat) : Fld := ⟨(0x4034 + 0x4 * i) / 4, 0, 10⟩
def RAS_LM_LINE_EVERY (i : Nat) : Fld := ⟨(0x4034 + 0x4 * i) / 4, 14, 1⟩
def RAS_LM_LINE_EN (i : Nat) : Fld := ⟨(0x4034 + 0x4 * i) / 4, 15, 1⟩
def RAS_LM_CYC_CYC (i : Nat) : Fld := Fld.ofByte (0x4036 + 0x4 * i) 0 11
def RAS_ENTRIES_COUNT : Fld := ⟨(0x4F08) / 4, 0, 32⟩
def RAS_SKIPS_COUNT : Fld := ⟨(0x4F0C) / 4, 0, 32⟩
def SND_STATUS_SRC8 : Fld := ⟨(0x500C) / 4, 0, 1⟩
def SND_KEYON_KEYON : Fld := ⟨(0x5024) / 4, 0, 16⟩
def SND_KEYOFF_KEYOFF : Fld := Fld.ofByte (0x5026) 0 16
def SND_ACTIVE_ACTIVE : Fld := ⟨(0x5028) / 4, 0, 16⟩
def SND_VEND_VEND : Fld := Fld.ofByte (0x502A) 0 16
def SND_VEND_IE_VEND_IE : Fld := ⟨(0x502C) / 4, 0, 16⟩
def SND_VTAB_VTAB : Fld := Fld.ofByte (0x502E) 0 5
def SND_TICK_TICK : Fld := ⟨(0x5030) / 4, 0, 32⟩
def SND_VOICE_ENDS_COUNT : Fld := ⟨(0x5F08) / 4, 0, 32⟩
def SND_PCM_VOID_COUNT : Fld := ⟨(0x5F0C) / 4, 0, 32⟩
def MIX_CTRL_SWAP : Fld := ⟨(0x6008) / 4, 6, 1⟩
def MIX_STATUS_ACTIVE_B : Fld := ⟨(0x600C) / 4, 0, 1⟩
def MIX_STATUS_SWAP_PENDING : Fld := ⟨(0x600C) / 4, 1, 1⟩
def MIX_STATUS_LIMITING : Fld := ⟨(0x600C) / 4, 2, 1⟩
def MIX_MAIN_GAIN_GAIN : Fld := ⟨(0x6024) / 4, 0, 16⟩
def MIX_FAST_GAIN_GAIN : Fld := Fld.ofByte (0x6026) 0 16
def MIX_MAIN_VOL_MAIN_VOL (i : Nat) : Fld := ⟨(0x6030 + 0x10 * i) / 4, 0, 8⟩
def MIX_FAST_VOL_FAST_VOL (i : Nat) : Fld := Fld.ofByte (0x6031 + 0x10 * i) 0 8
def MIX_RESO_RESO (i : Nat) : Fld := Fld.ofByte (0x6032 + 0x10 * i) 0 4
def MIX_RESO_FILT_ON (i : Nat) : Fld := Fld.ofByte (0x6032 + 0x10 * i) 7 1
def MIX_FILT_CUT_FILT_CUT (i : Nat) : Fld := Fld.ofByte (0x6033 + 0x10 * i) 0 8
def MIX_DLY_LEN_DLY_LEN (i : Nat) : Fld := ⟨(0x6034 + 0x10 * i) / 4, 0, 12⟩
def MIX_DLY_BASE_DLY_BASE (i : Nat) : Fld := Fld.ofByte (0x6036 + 0x10 * i) 2 11
def MIX_DLY_FB_DLY_FB (i : Nat) : Fld := ⟨(0x6038 + 0x10 * i) / 4, 0, 8⟩
def MIX_DLY_WET_DLY_WET (i : Nat) : Fld := Fld.ofByte (0x6039 + 0x10 * i) 0 8
def MIX_LIM_TH_LIM_TH (i : Nat) : Fld := Fld.ofByte (0x603A + 0x10 * i) 0 8
def MIX_LIM_REL_LIM_REL (i : Nat) : Fld := Fld.ofByte (0x603B + 0x10 * i) 0 3
def MIX_FILT_K_FILT_K (i : Nat) : Fld := ⟨(0x6100 + 0x8 * i) / 4, 0, 16⟩
def MIX_FILT_Q_FILT_Q (i : Nat) : Fld := Fld.ofByte (0x6102 + 0x8 * i) 0 8
def MIX_ATTACK_ATTACK (i : Nat) : Fld := ⟨(0x6104 + 0x8 * i) / 4, 0, 16⟩
def MIX_RELEASE_RELEASE (i : Nat) : Fld := Fld.ofByte (0x6106 + 0x8 * i) 0 16
def MIX_ROUTE_STN_PATH : Fld := ⟨(0x60A0) / 4, 0, 1⟩
def MIX_ROUTE_PREVIEW_PATH : Fld := ⟨(0x60A0) / 4, 1, 1⟩
def MIX_LIM_SAMPLES_COUNT : Fld := ⟨(0x6F08) / 4, 0, 32⟩
def MIX_ACTIVE_WRITES_COUNT : Fld := ⟨(0x6F0C) / 4, 0, 32⟩
def MIX_SAT_SAMPLES_COUNT : Fld := ⟨(0x6F10) / 4, 0, 32⟩
def TMR_STATUS_WRAP : Fld := ⟨(0x700C) / 4, 0, 4⟩
def TMR_CFG_SRC (i : Nat) : Fld := ⟨(0x7030 + 0x10 * i) / 4, 0, 2⟩
def TMR_CFG_RUN (i : Nat) : Fld := ⟨(0x7030 + 0x10 * i) / 4, 2, 1⟩
def TMR_CFG_IE (i : Nat) : Fld := ⟨(0x7030 + 0x10 * i) / 4, 3, 1⟩
def TMR_CFG_CLR (i : Nat) : Fld := ⟨(0x7030 + 0x10 * i) / 4, 4, 1⟩
def TMR_FLAG_WRAP (i : Nat) : Fld := Fld.ofByte (0x7031 + 0x10 * i) 0 1
def TMR_DIV_N_N (i : Nat) : Fld := Fld.ofByte (0x7032 + 0x10 * i) 0 16
def TMR_DIV_F_F (i : Nat) : Fld := ⟨(0x7034 + 0x10 * i) / 4, 0, 8⟩
def TMR_RELOAD_RELOAD (i : Nat) : Fld := Fld.ofByte (0x7036 + 0x10 * i) 0 16
def TMR_COUNT_LO_COUNT_LO (i : Nat) : Fld := ⟨(0x7038 + 0x10 * i) / 4, 0, 8⟩
def TMR_COUNT_HI_COUNT_HI (i : Nat) : Fld := Fld.ofByte (0x7039 + 0x10 * i) 0 8
def TMR_WRAPS_COUNT : Fld := ⟨(0x7F08) / 4, 0, 32⟩
def IRQ_CTRL_WAKE_ANY : Fld := ⟨(0x8008) / 4, 6, 1⟩
def IRQ_STATUS_ANY : Fld := ⟨(0x800C) / 4, 0, 1⟩
def IRQ_PRIO_PRIO_LO (i : Nat) : Fld := Fld.ofByte (0x8024 + 0x1 * i) 0 3
def IRQ_PRIO_PRIO_HI (i : Nat) : Fld := Fld.ofByte (0x8024 + 0x1 * i) 4 3
def IRQ_PEND_PEND : Fld := ⟨(0x8034) / 4, 0, 32⟩
def IRQ_SWI_SWI : Fld := ⟨(0x8038) / 4, 0, 16⟩
def IRQ_TOP_SOURCE : Fld := Fld.ofByte (0x803A) 0 5
def IRQ_TOP_NONE : Fld := Fld.ofByte (0x803A) 7 1
def IRQ_ENTRIES_COUNT : Fld := ⟨(0x8F08) / 4, 0, 32⟩
def INP_STATUS_PRESENT : Fld := ⟨(0x900C) / 4, 0, 4⟩
def INP_REPORTS_COUNT : Fld := ⟨(0x9F08) / 4, 0, 32⟩
def INP_DROPPED_COUNT : Fld := ⟨(0x9F0C) / 4, 0, 32⟩
def INP_OVERRUNS_COUNT : Fld := ⟨(0x9F10) / 4, 0, 32⟩
def QDM_STATUS_BUSY : Fld := ⟨(0xA00C) / 4, 0, 1⟩
def QDM_SRC_SRC : Fld := ⟨(0xA024) / 4, 0, 24⟩
def QDM_DST_DST : Fld := ⟨(0xA028) / 4, 0, 24⟩
def QDM_LEN_LEN : Fld := ⟨(0xA02C) / 4, 0, 16⟩
def QDM_GO_GO : Fld := Fld.ofByte (0xA02E) 0 1
def QDM_STAT_DONE : Fld := Fld.ofByte (0xA02F) 0 1
def QDM_STAT_BAD_RANGE : Fld := Fld.ofByte (0xA02F) 1 1
def QDM_STAT_BUSY_GO : Fld := Fld.ofByte (0xA02F) 2 1
def QDM_STAT_IE_STAT_IE : Fld := ⟨(0xA030) / 4, 0, 3⟩
def QDM_TRANSFERS_COUNT : Fld := ⟨(0xAF08) / 4, 0, 32⟩
def BLT_STATUS_BUSY : Fld := ⟨(0xB00C) / 4, 0, 1⟩
def BLT_TRAIL_TRAIL : Fld := ⟨(0xB024) / 4, 0, 24⟩
def BLT_GO_GO : Fld := Fld.ofByte (0xB027) 0 1
def BLT_SIG_SIG : Fld := ⟨(0xB028) / 4, 0, 8⟩
def BLT_SIG_IE_SIG_IE : Fld := Fld.ofByte (0xB029) 0 8
def BLT_STAT_DONE : Fld := Fld.ofByte (0xB02A) 0 1
def BLT_STAT_OVERLAP_XFORM : Fld := Fld.ofByte (0xB02A) 1 1
def BLT_STAT_OVERLAP_PITCH : Fld := Fld.ofByte (0xB02A) 2 1
def BLT_STAT_BAD_OP : Fld := Fld.ofByte (0xB02A) 3 1
def BLT_STAT_BAD_ENTRY : Fld := Fld.ofByte (0xB02A) 4 1
def BLT_STAT_BUSY_GO : Fld := Fld.ofByte (0xB02A) 5 1
def BLT_STAT_IE_STAT_IE : Fld := Fld.ofByte (0xB02B) 0 6
def BLT_ENTRY_ENTRY : Fld := ⟨(0xB02C) / 4, 0, 24⟩
def BLT_BAL_BAL : Fld := ⟨(0xB030) / 4, 0, 32⟩
def BLT_QUOTA_MPIX : Fld := ⟨(0xB0A0) / 4, 0, 8⟩
def BLT_QUOTA_PPL : Fld := ⟨(0xB0A0) / 4, 16, 16⟩
def BLT_COMMANDS_COUNT : Fld := ⟨(0xBF08) / 4, 0, 32⟩
def BLT_PIXELS_COUNT : Fld := ⟨(0xBF0C) / 4, 0, 32⟩
def BLT_SKIPS_COUNT : Fld := ⟨(0xBF10) / 4, 0, 32⟩
def BLT_QUOTA_WAITS_COUNT : Fld := ⟨(0xBF14) / 4, 0, 32⟩
def DMA_STATUS_BUSY : Fld := ⟨(0xC00C) / 4, 0, 2⟩
def DMA_CFG_ESIZE (i : Nat) : Fld := ⟨(0xC030 + 0x20 * i) / 4, 0, 2⟩
def DMA_CFG_GATHER (i : Nat) : Fld := ⟨(0xC030 + 0x20 * i) / 4, 2, 1⟩
def DMA_CFG_IW24 (i : Nat) : Fld := ⟨(0xC030 + 0x20 * i) / 4, 3, 1⟩
def DMA_CFG_REQ (i : Nat) : Fld := ⟨(0xC030 + 0x20 * i) / 4, 4, 4⟩
def DMA_BURST_BURST (i : Nat) : Fld := Fld.ofByte (0xC031 + 0x20 * i) 0 8
def DMA_GO_GO (i : Nat) : Fld := Fld.ofByte (0xC032 + 0x20 * i) 0 1
def DMA_STAT_DONE (i : Nat) : Fld := Fld.ofByte (0xC033 + 0x20 * i) 0 1
def DMA_STAT_DMA_FAULT (i : Nat) : Fld := Fld.ofByte (0xC033 + 0x20 * i) 1 1
def DMA_STAT_BAD_REQ (i : Nat) : Fld := Fld.ofByte (0xC033 + 0x20 * i) 2 1
def DMA_STAT_OVERRUN (i : Nat) : Fld := Fld.ofByte (0xC033 + 0x20 * i) 3 1
def DMA_STAT_BUSY_GO (i : Nat) : Fld := Fld.ofByte (0xC033 + 0x20 * i) 4 1
def DMA_STAT_IE_STAT_IE (i : Nat) : Fld := ⟨(0xC034 + 0x20 * i) / 4, 0, 5⟩
def DMA_PEND_PEND (i : Nat) : Fld := Fld.ofByte (0xC035 + 0x20 * i) 0 4
def DMA_COUNT_COUNT (i : Nat) : Fld := Fld.ofByte (0xC036 + 0x20 * i) 0 16
def DMA_SRC_SRC (i : Nat) : Fld := ⟨(0xC038 + 0x20 * i) / 4, 0, 24⟩
def DMA_DST_DST (i : Nat) : Fld := ⟨(0xC03C + 0x20 * i) / 4, 0, 24⟩
def DMA_INDEX_INDEX (i : Nat) : Fld := ⟨(0xC040 + 0x20 * i) / 4, 0, 24⟩
def DMA_DONE_ELEMS_MOVED (i : Nat) : Fld := ⟨(0xC044 + 0x20 * i) / 4, 0, 16⟩
def DMA_ITEMS_COUNT : Fld := ⟨(0xCF08) / 4, 0, 32⟩
def DMA_BURSTS_COUNT : Fld := ⟨(0xCF0C) / 4, 0, 32⟩
def DMA_FAULTS_COUNT : Fld := ⟨(0xCF10) / 4, 0, 32⟩
def SAV_STATUS_BUSY : Fld := ⟨(0xD00C) / 4, 0, 1⟩
def SAV_MASK_MASK : Fld := ⟨(0xD024) / 4, 0, 32⟩
def SAV_GO_GO : Fld := ⟨(0xD028) / 4, 0, 1⟩
def SAV_FLAGS_DONE : Fld := Fld.ofByte (0xD029) 0 1
def SAV_FLAGS_ERR : Fld := Fld.ofByte (0xD029) 1 1
def SAV_FLAGS_BUSY_GO : Fld := Fld.ofByte (0xD029) 2 1
def SAV_IE_IE : Fld := Fld.ofByte (0xD02A) 0 2
def SAV_COMMIT_NO_COUNT : Fld := ⟨(0xD02C) / 4, 0, 16⟩
def SAV_ERASE_ERASE : Fld := ⟨(0xD0A0) / 4, 0, 1⟩
def SAV_COMMITS_COUNT : Fld := ⟨(0xDF08) / 4, 0, 32⟩
def SAV_PAGES_COUNT : Fld := ⟨(0xDF0C) / 4, 0, 32⟩
def CPU_CTRL_BT_FREEZE : Fld := ⟨(0xE008) / 4, 6, 1⟩
def CPU_CTRL_BT_FREEZE_ON_TRAP : Fld := ⟨(0xE008) / 4, 7, 1⟩
def CPU_STATUS_T : Fld := ⟨(0xE00C) / 4, 0, 1⟩
def CPU_STATUS_WAIT : Fld := ⟨(0xE00C) / 4, 1, 1⟩
def CPU_STATUS_DOUBLE_TRAP : Fld := ⟨(0xE00C) / 4, 2, 1⟩
def CPU_VBR_L_VBR_L : Fld := ⟨(0xE024) / 4, 0, 8⟩
def CPU_VBR_M_VBR_M : Fld := Fld.ofByte (0xE025) 0 8
def CPU_VBR_H_VBR_H : Fld := Fld.ofByte (0xE026) 0 8
def CPU_CPL_CPL : Fld := Fld.ofByte (0xE027) 0 3
def CPU_RS_DEPTH_RS_DEPTH : Fld := ⟨(0xE028) / 4, 0, 5⟩
def CPU_BT_HEAD_BT_HEAD : Fld := Fld.ofByte (0xE029) 0 5
def CPU_BT_COUNT_BT_COUNT : Fld := Fld.ofByte (0xE02A) 0 6
def CPU_BT_CLR_BT_CLR : Fld := Fld.ofByte (0xE02B) 0 1
def CPU_BT_ADDR (i : Nat) : Fld := Fld.ofByte (0xE040 + 0x3 * i) 0 24
def CPU_RING_PC_PC : Fld := ⟨(0xE0A0) / 4, 0, 24⟩
def CPU_RING_STATE_F : Fld := ⟨(0xE0A4) / 4, 0, 8⟩
def CPU_RING_STATE_CPL : Fld := ⟨(0xE0A4) / 4, 8, 3⟩
def CPU_RING_STATE_WAIT : Fld := ⟨(0xE0A4) / 4, 11, 1⟩
def CPU_RING_STATE_RS_DEPTH : Fld := ⟨(0xE0A4) / 4, 12, 5⟩
def CPU_RING_STATE_FENCE : Fld := ⟨(0xE0A4) / 4, 17, 1⟩
def CPU_TRAPS_COUNT : Fld := ⟨(0xEF08) / 4, 0, 32⟩
def CPU_RS_SPILLS_COUNT : Fld := ⟨(0xEF0C) / 4, 0, 32⟩
def BAR4_RING_CTRL_EN : Fld := ⟨(0x0) / 4, 0, 1⟩
def BAR4_SQ_SIZE_SIZE : Fld := ⟨(0x10) / 4, 0, 13⟩
def BAR4_SQ_TAIL_TAIL : Fld := ⟨(0x14) / 4, 0, 12⟩
def BAR4_SQ_HEAD_HEAD : Fld := ⟨(0x18) / 4, 0, 12⟩
def BAR4_CQ_SIZE_SIZE : Fld := ⟨(0x28) / 4, 0, 13⟩
def BAR4_CQ_HEAD_HEAD : Fld := ⟨(0x2C) / 4, 0, 12⟩
def BAR4_CQ_TAIL_TAIL : Fld := ⟨(0x30) / 4, 0, 12⟩
def BAR4_CQ_VECTOR_VECTOR : Fld := ⟨(0x34) / 4, 0, 6⟩

end F


end Sys2Proof.Machine
end

