-- ==== Sys2Proof/Machine/BlockState.lean ====
section
/-! DEFINITION. The plain data of the blocks outside the tenants. A register is the home of its own
state; these structures hold what the spec gives a block beside its registers. -/

namespace Sys2Proof.Machine

/-! The gate. -/

/-- A gate message from the module to a host (R341, R342, R347). -/
inductive HostMsg where
  /-- READ_REPLY: TAG, TENANT and STATUS, the current EPOCH, DATA. -/
  | readReply (tag tenant : Half) (status : Byte) (epoch : Half) (data : Word)
  /-- EVENT: CODE, SOURCE, VECTOR, items (number, value). -/
  | event (code source : Half) (vector : Byte) (items : List (Half × Half))
  /-- PREVIEW_DATA: TENANT, KIND, LINE, FRAME, DATA. -/
  | preview (tenant : Half) (kind : Byte) (line : Half) (frame : Word) (data : List Byte)
  /-- COUNTERS: page base and the words at offsets 0xF00 to 0xFFF. -/
  | counters (page : Word) (data : List Word)
  /-- LOG: SEVERITY, TIME and the number of its text, which the firmware words (R341). -/
  | log (severity : Byte) (time : BitVec 64) (text : Nat)
deriving DecidableEq, Repr

/-- A message in a slot of the completion ring with the MSI-X vector it sent (R347). -/
structure CqSlot where
  slot : Nat
  msg : HostMsg
  vector : Nat
deriving DecidableEq, Repr

/-- A datagram sent on HOST-B (R348): its destination, the port that it comes from, its SEQ, its message, its TAG. -/
structure Datagram where
  dest : NetAddr
  sport : Half
  seq : BitVec 64
  msg : HostMsg
  tag : BitVec 128
deriving DecidableEq, Repr

/-- The gate (R338 to R351). `bar4` holds the BAR4 registers; `cq` the messages in the completion ring
that HOST-A has not freed; `held` those that wait for room; `missed` the MIQ sources whose EVENT was not
queued; `pcie` the completions of BAR0 reads; `wireB` the datagrams sent on HOST-B, and `pauses` counts its PAUSE
frames (R17). The key and the
sequence series are those of R349 and R350; `seqWindow` lists the accepted SEQs of the last 64; `rate`
counts the datagrams accepted in the millisecond that began at tick `rateFrom`; `waiting` holds the
messages that the gate keeps back (R13, R396, R422), oldest first; `blocked` those that a link without credits has not
taken yet (R17). -/
structure Gate where
  bar4 : Store Word
  cq : List CqSlot
  held : List HostMsg
  missed : List Nat
  pcie : List HostMsg
  wireB : List Datagram
  pauses : Nat
  key : BitVec 256
  rxTop : BitVec 64
  seqWindow : List (BitVec 64)
  txSeq : BitVec 64
  rate : Nat
  rateFrom : Nat
  waiting : List Instr
  blocked : List Instr
deriving DecidableEq, Repr

/-- The gate at reset. -/
def Gate.reset : Gate := ⟨[], [], [], [], [], [], 0, 0, 0, [], 0, 0, 0, [], []⟩

/-- A preview in force (R344): the host, the tenant, KIND, PATH, frames left. -/
structure Preview where
  host : HostId
  tenant : Nat
  kind : Byte
  path : Byte
  left : Nat
deriving DecidableEq, Repr

/-- A write of the gate cycle in progress (R48, R49): the word, its master, what a read returned and what the register
held before it, and the write's bits and data. -/
structure BusWrite where
  key : Nat
  who : Master
  shown : Word
  stored : Word
  mask : Word
  data : Word
deriving DecidableEq, Repr

/-- The page bus: the gate cycle in progress, the writes accepted in it (R48, R49), the arms of expert control (R38),
the owner changes of this cycle (R45), the read latches by master and word (R318, R363), the register words as they
stood when the cycle began (R6, R7, R303), and the counters that accesses of this cycle have counted in, beside what
`before` shows of those outside the tenants, with whether the count was below its greatest value (R7). A page and a word
are named by module address / 4. -/
structure Bus where
  cycle : Nat
  wrote : List BusWrite
  arms : List (Master × Nat)
  owners : List (Nat × Nat)
  latches : List (Master × Nat × Word)
  before : Store Word
  counts : List (Nat × Bool)
deriving DecidableEq, Repr

/-- The page bus at reset. -/
def Bus.reset : Bus := ⟨0, [], [], [], [], [], []⟩

/-! Sectors. -/

/-- A stopped sector DMA unit (R249): the channels restarted so far, the number terminated, and the
tenants affected. -/
structure SecDma where
  running : List Nat
  dead : Nat
  faulted : List Nat
deriving DecidableEq, Repr

/-- A sector DMA unit that runs. -/
def SecDma.reset : SecDma := ⟨[], 0, []⟩

/-- The round-robin state of a compositor (R19): the engine served last, and the context served last
of each engine of the sector. -/
structure Cmp where
  engine : Nat
  ctx : Store Nat
deriving DecidableEq, Repr

/-- A compositor at reset. -/
def Cmp.reset : Cmp := ⟨0, []⟩

/-! Region push. -/

/-- A push item (R181, R184): the sector of its compositor, tenant, epoch, entry, frame and region, and
whether the sweep chose it. -/
structure PushItem where
  sec : Nat
  tenant : Nat
  epoch : Half
  ent : Nat
  frame : Nat
  region : Nat
  swept : Bool
deriving DecidableEq, Repr

/-- A tenant frame on its way to an entry (R185 to R191): its number, whether it is sent in full, the
REGION records handed to the port, the regions the sweep chose, whether its last band has been
composed, and the tick of its wall-clock end. -/
structure FrameTx where
  frame : Nat
  full : Bool
  records : Nat
  sweep : List Nat
  done : Bool
  endTick : Nat
deriving DecidableEq, Repr

/-- What the module keeps about a station entry beside its registers: the signatures last sent and the
regions not marked dirty (R181), whether the next frame is to be sent in full, the frames on their way,
whether a message has been accepted since EN was set (R196), the station's last LATE_PRESENTS (R206),
the successive STATUS messages that report the active link not received, and whether a STATUS has come
over the other port since the last one over the active port (R195). -/
structure Entry where
  sigs : Store Word
  clean : List Nat
  fullReq : Bool
  frames : List FrameTx
  heard : Bool
  late : Option Half
  linkBad : Nat
  other : Bool
deriving DecidableEq, Repr

/-- An entry that has never been enabled. -/
def Entry.reset : Entry := ⟨[], [], false, [], false, none, 0, false⟩

/-- An RSP message queued on a field port (R187, R188): entry, tenant, epoch, type, payload, the frame
and regions it carries, and its present time where it has one. -/
structure RspMsg where
  ent : Nat
  tenant : Nat
  epoch : Half
  typ : BitVec 4
  payload : List Byte
  frame : Nat
  full : Bool
  regions : List Nat
  present : Nat
deriving DecidableEq, Repr

/-- An IEEE 802.1Q C-tag: priority and VLAN (R202). -/
structure VlanTag where
  pcp : BitVec 3
  vid : BitVec 12
deriving DecidableEq, Repr

/-- What a PTP message carries beside its header (R203): the egress time of a Sync, in itself and in its Follow_Up; the
ingress time of a Delay_Req and the MAC address that it came from; priorities, clockClass, clockAccuracy and whether the
timescale is ARB. -/
inductive PtpBody where
  | egress (time : Nat)
  | delay (ingress : Nat) (requester : BitVec 48)
  | announce (priority1 priority2 clockClass clockAccuracy : Byte) (arb : Bool)
deriving DecidableEq, Repr

/-- A frame that a field port has sent, with its destination and its tag: an RSP message (R187, R202), a PTP message with
its type, domainNumber and port sequence number (R203), or a PAUSE frame. -/
inductive WireFrame where
  | rsp (mac : BitVec 48) (tag : Option VlanTag) (ethertype : Half) (bytes : List Byte)
  | ptp (mac : BitVec 48) (tag : Option VlanTag) (ethertype : Half) (type : BitVec 4) (domain : Byte) (seqId : Half)
      (body : PtpBody)
  | pause
deriving DecidableEq, Repr

/-- A field port beside its registers: its queues (R185), its PTP sequence numbers, what it has sent, and the received
messages that it holds until the input distributor has room (R17). -/
structure Port where
  audio : List RspMsg
  queue : List RspMsg
  syncSeq : Half
  announceSeq : Half
  sent : List WireFrame
  inbox : List Instr
deriving DecidableEq, Repr

/-- A field port at reset. -/
def Port.reset : Port := ⟨[], [], 0, 0, [], []⟩

/-- A field-side sink beside its descriptor (R225, R226): the number of its next sample, its limiter
gain, its pre-limiter window oldest first, the samples played by tenant and path as (epoch, next), and
the sample on its pins. -/
structure Sink where
  next : Nat
  gain : Nat
  pre : List Pair
  played : Store (Half × Nat)
  out : Pair
deriving DecidableEq, Repr

/-- A sink at reset. -/
def Sink.reset : Sink := ⟨0, 32768, [], [], ⟨0, 0⟩⟩

/-! NVS and what stands on it. -/

/-- A physical slot of an NVS page with its commit word (R352). -/
structure NvsSlot where
  data : Memory
  gen : Word
  chk : Word
deriving DecidableEq, Repr

/-- The two slots of a logical page. -/
structure NvsPage where
  s0 : NvsSlot
  s1 : NvsSlot
deriving DecidableEq, Repr

/-- Who asked for a page write. -/
inductive NvsWho where
  | save (tenant : Nat) (epoch : Half) (point : Nat)
  | erase (tenant : Nat)
  | panel (inProgress : Bool)
  | record
  | image
deriving DecidableEq, Repr

/-- A page write (R355): page, data, requester. -/
structure NvsWrite where
  page : Nat
  data : Memory
  who : NvsWho
deriving DecidableEq, Repr

/-- NVS: the pages that differ from their factory state, the queue, the writes that wait for room
or, refused at PFW, for its end (R355, R356, R360), and the schema versions of the settings groups, by page, that differ
from the factory's (R384). -/
structure Nvs where
  pages : Store NvsPage
  queue : List NvsWrite
  waiting : List NvsWrite
  schemas : Store Nat
deriving DecidableEq, Repr

/-- The status panel (R369 to R371): the eight lines of the update in progress, whether its IN_PROGRESS
record is asked for, whether that record is written, what the panel shows, and whether it shows a mixed
image. -/
structure Panel where
  snapshot : List Byte
  starting : Bool
  ready : Bool
  shown : List Byte
  mixed : Bool
deriving DecidableEq, Repr

/-- A panel as the factory leaves it. -/
def Panel.reset : Panel := ⟨[], false, false, [], false⟩

/-- The firmware update beside its registers (R373 to R383): the issuer, whether a handover is a rollback, whether the
active image is confirmed, the bytes staged, the rejected slots, whether the standby reboots after a trial, whether the
active supervisor has failed before the standby has booted (R380), whether
the start in progress has abandoned an unconfirmed image, and the tick of the last swap. -/
structure Fwu where
  issuer : Option Master
  rollback : Bool
  confirmed : Bool
  staged : Memory
  rejected : List Nat
  reboot : Bool
  failed : Bool
  abandoned : Bool
  swapTick : Nat
deriving DecidableEq, Repr

/-- The firmware update at reset. -/
def Fwu.reset : Fwu := ⟨none, false, true, [], [], false, false, false, 0⟩

/-- The calendar's LANTERN clock (R362, R364): the ticks counted since TRIM was last applied, the ticks that TRIM has
added (or skipped) and no hundredth has used, and the set, as time and date words, that waits for the next tick. -/
structure Rtc where
  ticks : Nat
  extra : Int
  set : Option (Word × Word)
deriving DecidableEq, Repr

/-- The calendar's clock when the domain powers up. -/
def Rtc.reset : Rtc := ⟨0, 0, none⟩

/-! Timers, pins, PIO. -/

/-- A channel of a module timer beside its registers (R319 to R322): the accepted level, the edges counted
since the last capture, whether a rise has been captured, whether the compare phase has become 0 at a count
that FLAGS.CYC does not show yet, the LO halves held and the values pending. -/
structure MtCh where
  level : Bool
  edges : Nat
  rise : Bool
  cyc : Bool
  dutyLo : Option Word
  phaseLo : Option Word
  duty : Option (BitVec 48)
  phase : Option (BitVec 48)
deriving DecidableEq, Repr

/-- A channel at reset. -/
def MtCh.reset : MtCh := ⟨false, 0, false, false, none, none, none, none⟩

/-- A module timer beside its registers: count, accumulator, the ticks of its prescaler that the count has not taken, the
tick up to which the events of a clock source have been counted, the PERIOD half held and the PERIOD pending, and its
channels. -/
structure Mt where
  count : BitVec 48
  acc : Nat
  owed : Nat
  upTo : Nat
  periodLo : Option Word
  period : Option (BitVec 48)
  ch : Store MtCh
deriving DecidableEq, Repr

/-- A module timer at reset. -/
def Mt.reset : Mt := ⟨0, 0, 0, 0, none, none, []⟩

/-- What a PIO channel waits in (R334): a DELAY with ticks left, an edge WAIT with whether its edge has come since it
began, or a WAIT for a level, a PULL or a PUSH. -/
inductive PioWait where
  | none
  | delay (left : Nat)
  | edge (seen : Bool)
  | stall
deriving DecidableEq, Repr

/-- A PIO channel beside its registers (R332 to R335): the prescaler accumulator, the prescaler ticks that no step has
taken and the rotation up to which its turns have been counted, the shifters, the word last pulled, the FIFOs, the lane
levels and directions, those before the last rotation `rot` that changed them, and what it waits in. A TX word carries the
rotation in which it came. -/
structure PioCh where
  acc : Nat
  owed : Nat
  turns : Nat
  txs : Word
  rxs : Word
  last : Word
  tx : List (Word × Nat)
  rx : List Word
  lanes : BitVec 4
  dirs : BitVec 4
  oldLanes : BitVec 4
  oldDirs : BitVec 4
  rot : Nat
  wait : PioWait
deriving DecidableEq, Repr

/-- A PIO channel at reset. -/
def PioCh.reset : PioCh := ⟨0, 0, 0, 0, 0, 0, [], [], 0, 0, 0, 0, 0, .none⟩

/-- What a write to a group register of PE`i` does to channel `j` when the next rotation begins (R336). -/
inductive PioAct where
  | start (i j : Nat)
  | stop (i j : Nat)
  | restart (i j : Nat)
deriving DecidableEq, Repr

/-- The field pins and the field I/O clock: the levels that the venue puts on the pins, the pins that it leaves open, the
ticks at which a capture input, by number 8`i` + `j`, last changed (R320), the synchronised levels at the last edges seen
(R329); the PIO lanes
whose input was high when the rotation in progress began, and those of the rotation before (R332, R334); what happens when
the next rotation begins, and the words of instruction memory written in this one, as they stood before (R333, R336); the
banks whose pins still hold the states that they took in DORMANT, and those states: level, drive and pulls (R330). -/
structure Pins where
  venue : BitVec 128
  loose : BitVec 128
  since : Store Nat
  seen : BitVec 128
  high : List Nat
  was : List Nat
  acts : List PioAct
  imem : Store Word
  asleep : BitVec 4
  sleepLevel : BitVec 128
  sleepDrive : BitVec 128
  sleepUp : BitVec 128
  sleepDown : BitVec 128
deriving DecidableEq, Repr

/-- The pins after power-up from OFF. DESIGN CHOICE: the venue holds every pin low until the first PIN_EDGE. -/
def Pins.reset : Pins := ⟨0, 0, [], 0, [], [], [], [], 0, 0, 0, 0, 0⟩

/-! Power and continuity. -/

/-- The work of an engine in one TB0 frame or interval of wall time `win` (R25): issue slots taken, lines rendered, audio
ticks done. -/
structure EngWork where
  win : Nat
  slots : Nat
  lines : Nat
  samples : Nat
deriving DecidableEq, Repr

/-- An engine without work. -/
def EngWork.reset : EngWork := ⟨0, 0, 0, 0⟩

/-- The work of an engine in the interval that it worked in last, and in the one that it worked in before that; the
tick at which it worked last. -/
structure EngLoad where
  cur : EngWork
  last : EngWork
  tick : Nat
deriving DecidableEq, Repr

/-- An engine that has not worked. -/
def EngLoad.reset : EngLoad := ⟨EngWork.reset, EngWork.reset, 0⟩

/-- Whether the module is OFF, starts, runs or sleeps (R386). -/
inductive PowerMode where
  | off | start | on | dormant
deriving DecidableEq, Repr

/-- Power beside its registers (R386 to R407): the mode, whether mains stands at inlet A and at inlet B, whether the heat
trip has disconnected the stages, the baseplate temperature last warned of, whether the always-on domain has
charge, and the LANTERN samples for which an accepted WAKE still drives source 364 in DORMANT (R351). -/
structure Power where
  mode : PowerMode
  inletA : Bool
  inletB : Bool
  tripped : Bool
  warned : Nat
  charged : Bool
  wakeDrive : Nat
deriving DecidableEq, Repr

/-- A declared failure whose event is to come (R284): its CODE, the tenants that have no new placement yet,
and the items of the others. -/
structure Failure where
  code : Nat
  waiting : List Nat
  placed : List (Nat × Nat)
deriving DecidableEq, Repr

/-- Continuity beside its registers (R284, R287, R293, R294, R422, R266): failures that wait for the end of a
supervisor takeover, failures whose event is to come, the fabric rings that wait for their credits, whether
the engine start of MOD.CTRL.EN runs and on which engines, whether engines have been started since START, the fenced
HBM stacks, the fabric rings whose last test failed, and the tick of the last supervisor heartbeat. -/
structure Cont where
  heldFailures : List Instr
  failing : List Failure
  readmitting : List UnitId
  starting : Bool
  startSet : List Nat
  startedOnce : Bool
  fencedStacks : List Nat
  failedTests : List UnitId
  lastHb : Nat
deriving DecidableEq, Repr

/-- Nothing in progress. -/
def Cont.reset : Cont := ⟨[], [], [], false, [], false, [], [], 0⟩

/-- A word that the ECC has corrected on a read and that is to be written back (R258): engine and
engine-local address. -/
structure WriteBack where
  engine : Nat
  addr : Nat
deriving DecidableEq, Repr

/-- Credits held by the senders of the paths that are not at their full count (R16, R17, R22): the path
and the credits held. -/
structure Credit where
  path : Path
  held : Nat
  last : Nat
deriving DecidableEq, Repr

end Sys2Proof.Machine
end

