-- ==== Sys2Proof/Machine/State.lean ====
section
/-! DEFINITION. The state of the whole block, the reasons for which it stops, and the state after reset:
a module fresh from the factory, powered off, with no feed present (R386, R387). -/

namespace Sys2Proof.Machine

/-- Why the machine stops with a fault. The spec gives every command an effect, so no meaning faults;
the type has one constructor, which nothing raises. -/
inductive Fault where
  /-- Raised by nobody. Safe: it would only stop the machine. -/
  | none
deriving DecidableEq, Repr

/-- Why a command is refused. -/
inductive Refusal where
  /-- Raised by an arm of exec whose command has no meaning yet. Safe: the machine stops. -/
  | notModelled (mnemonic : String)
deriving DecidableEq, Repr

/-- Settings of a timebase in use (R56). -/
structure TbSet where
  lineTicks : Nat
  lines : Nat
  visLines : Nat
  vblank : Nat
  origin : Nat
deriving DecidableEq, Repr

/-- The default timebase (R57). -/
def TbSet.reset : TbSet := ⟨3175, 525, 480, 480, 0⟩

/-- The block. `pending` holds the waiting commands, first in first out. `tick` counts the 10 ns ticks of
the beam reference since the last start-up (R203). `regs` holds the register words of the module, sector,
engine and port pages by address / 4. `hbm` holds the HBM bytes: the critical region once, by its offset
(R263, R265); the rest of stack s by s × 2³⁴ + offset. `scrub` holds by engine the address that the scrubber reads next
in a pass (R259), `accrued` by word number the tick up to which a counter of what happens in wall time has been brought
up to date (R7), `ready` by engine the ready contexts at the last sample and `loads` its work (R25). -/
structure State where
  pending : List Instr
  tick : Nat
  regs : Store Word
  tenants : Store Tenant
  tb : Store TbSet
  hbm : Memory
  gate : Gate
  bus : Bus
  previews : List Preview
  secDma : Store SecDma
  cmp : Store Cmp
  push : List PushItem
  pushNext : Nat
  entries : Store Entry
  ports : Store Port
  sinks : Store Sink
  nvs : Nvs
  panel : Panel
  rtc : Rtc
  fwu : Fwu
  mt : Store Mt
  pio : Store PioCh
  pins : Pins
  power : Power
  cont : Cont
  ecc : List WriteBack
  credits : List Credit
  miq : List Nat
  lan : Store Nat
  scrub : Store Nat
  accrued : Store Nat
  ready : Store Nat
  loads : Store EngLoad
deriving DecidableEq, Repr

/-- The module as it leaves the factory: OFF, nothing recorded. -/
def State.reset : State :=
  { pending := [], tick := 0, regs := [], tenants := [], tb := [], hbm := [], gate := Gate.reset
    bus := Bus.reset, previews := [], secDma := [], cmp := [], push := [], pushNext := 0, entries := []
    ports := [], sinks := [], nvs := ⟨[], [], [], []⟩, panel := Panel.reset
    rtc := Rtc.reset
    fwu := Fwu.reset, mt := [], pio := [], pins := Pins.reset
    power := ⟨.off, false, false, false, 0, false, 0⟩, cont := Cont.reset, ecc := [], credits := [], miq := [], lan := []
    scrub := [], accrued := [], ready := [], loads := [] }

end Sys2Proof.Machine
end

