-- ==== Sys2Proof/Machine/Ops.lean ====
section
/-! DEFINITION. The named operations over the tables, the memories and the registers. -/

namespace Sys2Proof.Machine

/-- What a meaning answers. -/
abbrev Out := Host.Outcome State Fault Refusal

/-! Tables by number. -/

/-- What the table holds at `k`; `d` is what an unlisted key holds. -/
def Store.get {α : Type} (d : α) (s : Store α) (k : Nat) : α :=
  match s with
  | [] => d
  | e :: r => if e.1 = k then e.2 else Store.get d r k

/-- The value listed at a key, if one is. -/
def Store.find? {α : Type} (s : Store α) (k : Nat) : Option α :=
  match s with
  | [] => none
  | e :: r => if e.1 = k then some e.2 else Store.find? r k

/-- The table without an entry at `k`. -/
def Store.erase {α : Type} (s : Store α) (k : Nat) : Store α := s.filter fun e => e.1 != k

/-- The table with an entry put in order of its key; `k` is not listed before. -/
def Store.insert {α : Type} (s : Store α) (k : Nat) (v : α) : Store α :=
  match s with
  | [] => [(k, v)]
  | e :: r => if k < e.1 then (k, v) :: e :: r else e :: Store.insert r k v

/-- The table with `v` listed at `k`. -/
def Store.put {α : Type} (s : Store α) (k : Nat) (v : α) : Store α := (s.erase k).insert k v

/-- The table with `v` at `k`, in canonical form: a value equal to the unlisted one is not listed. -/
def Store.set {α : Type} [DecidableEq α] (d : α) (s : Store α) (k : Nat) (v : α) : Store α :=
  if v = d then s.erase k else s.put k v

/-- The canonical form: keys strictly rising, no entry equal to what an unlisted key holds. -/
def Store.wf {α : Type} [DecidableEq α] (d : Nat → α) (s : Store α) : Bool :=
  match s with
  | [] => true
  | [e] => decide (e.2 ≠ d e.1)
  | e :: e' :: r => decide (e.2 ≠ d e.1) && decide (e.1 < e'.1) && Store.wf d (e' :: r)

/-! Byte memories: an unlisted byte holds 0. -/

/-- The canonical form of a memory. -/
def Memory.wf (m : Memory) : Bool := Store.wf (fun _ => (0 : Byte)) m

/-- The byte at an address. -/
def memGet (m : Memory) (a : Nat) : Byte := Store.get 0 m a

/-- The memory with one byte written. -/
def memSet (m : Memory) (a : Nat) (v : Byte) : Memory := Store.set 0 m a v

/-- The memory with bytes written from an address up. -/
def memPut (m : Memory) (a : Nat) : List Byte → Memory
  | [] => m
  | b :: bs => memPut (memSet m a b) (a + 1) bs

/-- `n` bytes from an address up. -/
def memBytes (m : Memory) (a n : Nat) : List Byte := (List.range n).map fun i => memGet m (a + i)

/-- The memory without the bytes of a range. -/
def memClear (m : Memory) (lo n : Nat) : Memory := m.filter fun e => !(lo ≤ e.1 && e.1 < lo + n)

/-! Fields of 32-bit words. -/

/-- The mask of `len` bits from bit `lo`. -/
def maskOf (lo len : Nat) : Word := BitVec.ofNat 32 ((2 ^ len - 1) * 2 ^ lo)

/-- The field of `len` bits at bit `lo`. -/
def getBits (w : Word) (lo len : Nat) : Nat := w.toNat / 2 ^ lo % 2 ^ len

/-- The word with the masked bits taken from `v`. -/
def blend (mask v w : Word) : Word := (w &&& ~~~mask) ||| (v &&& mask)

/-- The word with the field of `len` bits at bit `lo` set to `v`. -/
def setBits (w : Word) (lo len v : Nat) : Word :=
  blend (maskOf lo len) (BitVec.ofNat 32 (v % 2 ^ len * 2 ^ lo)) w

/-- Whether `b` is newer than `a` in serial arithmetic (R192). -/
def newer (a b : Word) : Bool := decide (0 < (b - a).toNat ∧ (b - a).toNat < 2 ^ 31)

/-- An RC counter one higher, saturating at 0xFFFF_FFFF (R7, R23). -/
def satInc (w : Word) : Word := if w = 0xFFFFFFFF then w else w + 1

/-- The bits enabled by a 4-bit byte mask (R30). -/
def byteMask (m : BitVec 4) : Word :=
  (if m.getLsbD 0 then 0xFF else 0) ||| (if m.getLsbD 1 then 0xFF00 else 0)
    ||| (if m.getLsbD 2 then 0xFF0000 else 0) ||| (if m.getLsbD 3 then 0xFF000000 else 0)

/-! Registers of the module, sector, engine and port pages. -/

/-- A register word of the module space. -/
def State.word (s : State) (key : Nat) : Word := Store.get (moduleRst key) s.regs key

/-- The state with a register word set. -/
def State.setWord (s : State) (key : Nat) (v : Word) : State :=
  { s with regs := Store.set (moduleRst key) s.regs key v }

/-- The value of a field. -/
def State.fld (s : State) (f : Fld) : Nat := getBits (s.word f.key) f.lo f.w

/-- Whether a one-bit field is 1. -/
def State.bit (s : State) (f : Fld) : Bool := s.fld f == 1

/-- The state with a field set. -/
def State.setFld (s : State) (f : Fld) (v : Nat) : State :=
  s.setWord f.key (setBits (s.word f.key) f.lo f.w v)

/-- The state with a one-bit field set to a truth value. -/
def State.setBit (s : State) (f : Fld) (b : Bool) : State := s.setFld f b.toNat

/-- The state with an RC counter one higher. -/
def State.count (s : State) (f : Fld) : State := s.setWord f.key (satInc (s.word f.key))

/-- A register word as it stood when the gate cycle began. -/
def State.wordBefore (s : State) (key : Nat) : Word := Store.get (moduleRst key) s.bus.before key

/-- An RC counter one higher by an access of this gate cycle (R7): a count beyond its greatest value stays for the next
read all the same. -/
def State.countNow (s : State) (f : Fld) : State :=
  let full := s.word f.key == 0xFFFFFFFF
  (if full then { s with bus := { s.bus with counts := s.bus.counts ++ [(f.key, false)] } } else s).count f

/-- A W1C bit that an access of this gate cycle sets: a write of this cycle that clears it leaves it set (R6). -/
def State.raiseNow (s : State) (f : Fld) : State :=
  let w := setBits (s.wordBefore f.key) f.lo f.w 0
  { s.setBit f true with bus := { s.bus with before := Store.set (moduleRst f.key) s.bus.before f.key w } }

/-- The state with an RC counter `n` higher. -/
def State.countN (s : State) (f : Fld) (n : Nat) : State :=
  s.setWord f.key (BitVec.ofNat 32 (min 0xFFFFFFFF ((s.word f.key).toNat + n)))

/-! Registers of a tenant's pages. -/

/-- A register word of a tenant's pages as the tenant or the module stores it. -/
def Tenant.word (t : Tenant) (key : Nat) : Word :=
  Store.get (tenantRst key) (if isCoreWord key then t.core.regs else t.mregs) key

/-- The tenant with a register word set. -/
def Tenant.setWord (t : Tenant) (key : Nat) (v : Word) : Tenant :=
  if isCoreWord key then
    { t with core := { t.core with regs := Store.set (tenantRst key) t.core.regs key v } }
  else { t with mregs := Store.set (tenantRst key) t.mregs key v }

/-- The value of a field of a tenant's pages. -/
def Tenant.fld (t : Tenant) (f : Fld) : Nat := getBits (t.word f.key) f.lo f.w

/-- Whether a one-bit field is 1. -/
def Tenant.bit (t : Tenant) (f : Fld) : Bool := t.fld f == 1

/-- The tenant with a field set. -/
def Tenant.setFld (t : Tenant) (f : Fld) (v : Nat) : Tenant :=
  t.setWord f.key (setBits (t.word f.key) f.lo f.w v)

/-- The tenant with a one-bit field set to a truth value. -/
def Tenant.setBit (t : Tenant) (f : Fld) (b : Bool) : Tenant := t.setFld f b.toNat

/-- The tenant with an RC counter one higher. -/
def Tenant.count (t : Tenant) (f : Fld) : Tenant := t.setWord f.key (satInc (t.word f.key))

/-- The tenant with an RC counter `n` higher. -/
def Tenant.countN (t : Tenant) (f : Fld) (n : Nat) : Tenant :=
  t.setWord f.key (BitVec.ofNat 32 (min 0xFFFFFFFF ((t.word f.key).toNat + n)))

/-- OWNER of a tenant's page `k` (R33, R41), which the module keeps. -/
def Tenant.owner (t : Tenant) (k : Nat) : Nat :=
  getBits (Store.get (tenantRst (0x400 * k + 2)) t.mregs (0x400 * k + 2)) 4 2

/-- A tenant by number. -/
def State.tenant (s : State) (t : Nat) : Tenant := Store.get Tenant.reset s.tenants t

/-- The state with a tenant replaced. -/
def State.setTenant (s : State) (t : Nat) (x : Tenant) : State :=
  { s with tenants := Store.put s.tenants t x }

/-- The state with a tenant changed. -/
def State.onTenant (s : State) (t : Nat) (g : Tenant → Tenant) : State := s.setTenant t (g (s.tenant t))

/-! The blocks by number. -/

/-- A sector DMA unit. -/
def State.sdma (s : State) (sec : Nat) : SecDma := Store.get SecDma.reset s.secDma sec

/-- The state with a sector DMA unit replaced. -/
def State.setSdma (s : State) (sec : Nat) (x : SecDma) : State :=
  { s with secDma := Store.set SecDma.reset s.secDma sec x }

/-- A station entry's own data. -/
def State.entry (s : State) (e : Nat) : Entry := Store.get Entry.reset s.entries e

/-- The state with a station entry's own data replaced. -/
def State.setEntry (s : State) (e : Nat) (x : Entry) : State :=
  { s with entries := Store.set Entry.reset s.entries e x }

/-- A field port's own data. -/
def State.port (s : State) (p : Nat) : Port := Store.get Port.reset s.ports p

/-- The state with a field port's own data replaced. -/
def State.setPort (s : State) (p : Nat) (x : Port) : State :=
  { s with ports := Store.set Port.reset s.ports p x }

/-! The tenant's geometry: its profile, its timebase, its image. -/

/-- What a tenant's meaning needs from outside the tenant: the profile (R60), the settings of its
timebase (R56) and the cartridge image (R85). -/
structure Geo where
  w : Nat
  h : Nat
  tb : Nat
  cpl : Nat
  vis : Nat
  inputLine : Nat
  lead : Nat
  lagWarn : Nat
  lines : Nat
  visLines : Nat
  vblank : Nat
  lineTicks : Nat
  imgBase : Nat
  imgLen : Nat
  hbm : Memory
deriving DecidableEq, Repr

/-- The geometry of a tenant. -/
def State.geo (s : State) (t : Nat) : Geo :=
  let x := s.tenant t
  let b := Store.get TbSet.reset s.tb (x.fld F.TEN_GEOM_TB)
  { w := 16 * x.fld F.TEN_GEOM_WIDTH16, h := 16 * x.fld F.TEN_GEOM_HEIGHT16
    tb := x.fld F.TEN_GEOM_TB, cpl := x.fld F.TEN_CYC_CYC_PER_LINE, vis := x.fld F.TEN_CYC_VIS_CYC
    inputLine := x.fld F.TEN_PACE_INPUT_LINE, lead := x.fld F.TEN_PACE_LEAD
    lagWarn := x.fld F.TEN_PACE_LAG_WARN
    lines := b.lines, visLines := b.visLines, vblank := b.vblank, lineTicks := b.lineTicks
    imgBase := x.image.base, imgLen := x.image.len, hbm := s.hbm }

/-! Byte order. -/

/-- The value of a list of bytes, least significant first, as a bit vector (R4). -/
def leVec (w : Nat) (bs : List Byte) : BitVec w := BitVec.ofNat w (leNat bs)

end Sys2Proof.Machine
end

