-- ==== Sys2Proof/Machine/NvsPages.lean ====
section
/-! DEFINITION. The pages of the non-volatile store (R352 to R354) and the records that the supervisor makes in them. -/

namespace Sys2Proof.Machine

/-! Pages. -/

/-- The bytes of a slot. -/
def NvsSlot.bytes (x : NvsSlot) : List Byte := memBytes x.data 0 256

/-- CHK of 256 bytes and a GEN (R352). -/
def nvsChk (bs : List Byte) (gen : Word) : Word := crc32 (bs ++ leBytes 4 gen)

/-- Whether a slot is valid. -/
def NvsSlot.valid (x : NvsSlot) : Bool := x.chk == nvsChk x.bytes x.gen

/-- A page as it leaves the factory (R353): slot 0 valid with GEN 0 and zero data, slot 1 not valid. -/
def NvsPage.factory : NvsPage :=
  let c := nvsChk (List.replicate 256 0) 0
  ⟨⟨[], 0, c⟩, ⟨[], 0, ~~~c⟩⟩

/-- The slot with the current value: none when neither is valid (R353). -/
def NvsPage.current (p : NvsPage) : Option Bool :=
  match p.s0.valid, p.s1.valid with
  | true, true => some (newer p.s0.gen p.s1.gen)
  | true, false => some false
  | false, true => some true
  | false, false => none

/-- A slot by its number. -/
def NvsPage.slot (p : NvsPage) (one : Bool) : NvsSlot := if one then p.s1 else p.s0

/-- The page after a write of `bs` (R352): into the slot that does not hold the current value, with GEN one
above. A write that fails its verification leaves that slot invalid (R354, R359). -/
def NvsPage.write (p : NvsPage) (bs : List Byte) (ok : Bool) : NvsPage :=
  let cur := p.current
  let gen := match cur with
    | some c => (p.slot c).gen + 1
    | none => 0
  let chk := nvsChk bs gen
  let new : NvsSlot := ⟨memPut [] 0 bs, gen, if ok then chk else ~~~chk⟩
  match cur with
  | some false => { p with s1 := new }
  | _ => { p with s0 := new }

/-- A page of NVS. -/
def State.nvsPage (s : State) (n : Nat) : NvsPage :=
  match Store.find? s.nvs.pages n with
  | some p => p
  | none => NvsPage.factory

/-- A page whose write has been performed. -/
def State.writePage (s : State) (n : Nat) (bs : List Byte) (ok : Bool) : State :=
  { s with nvs := { s.nvs with pages := Store.put s.nvs.pages n ((s.nvsPage n).write bs ok) } }

/-- The current value of a page, zero bytes where it has none (R353). -/
def State.pageBytes (s : State) (n : Nat) : List Byte :=
  match (s.nvsPage n).current with
  | some c => ((s.nvsPage n).slot c).bytes
  | none => List.replicate 256 0

/-- The value that a page has once the writes that are queued or wait have been performed. -/
def State.pageLatest (s : State) (n : Nat) : List Byte :=
  match (s.nvs.queue ++ s.nvs.waiting).reverse.find? fun w => w.page == n with
  | some w => memBytes w.data 0 256
  | none => s.pageBytes n

/-! The queue (R355). -/

/-- NVS.QUEUE.LEVEL follows the queue. -/
def State.nvsLevel (s : State) : State := s.setFld F.NVS_QUEUE_LEVEL s.nvs.queue.length

/-- Page writes that wait enter the queue while there is room and PFW is 0 (R355, R360). -/
def State.nvsAdmit (s : State) : State :=
  if s.bit F.NVS_STATUS_PFW then s
  else
    let n := 64 - s.nvs.queue.length
    { s with nvs := { s.nvs with queue := s.nvs.queue ++ s.nvs.waiting.take n
                                 waiting := s.nvs.waiting.drop n } }.nvsLevel

/-- A page write asked for (R355, R356): queued, or held while the queue is full. During PFW it is refused
and counted; `keep` says that its requester holds it until PFW clears (R360). -/
def State.nvsAsk (s : State) (w : NvsWrite) (keep : Bool) : State :=
  if s.bit F.NVS_STATUS_PFW then
    let s := s.count F.NVS_REFUSED_COUNT
    if keep then { s with nvs := { s.nvs with waiting := s.nvs.waiting ++ [w] } } else s
  else { s with nvs := { s.nvs with waiting := s.nvs.waiting ++ [w] } }.nvsAdmit

/-- Whether a page write would have to wait for room (R355). -/
def State.nvsFull (s : State) : Bool := decide (64 ≤ s.nvs.queue.length) || s.nvs.waiting != []

/-- A record that the supervisor makes (R290, R349, R381), or holds during PFW. DESIGN CHOICE: it goes on as soon as NVS
has accepted the write, which is then performed whatever happens (R356). -/
def State.nvsRecord (s : State) (n : Nat) (bs : List Byte) : State := s.nvsAsk ⟨n, memPut [] 0 bs, .record⟩ true

/-- The pages of the HOST-B key and of the sequence series. -/
def keyPage : Nat := 36864
def seqPage : Nat := 36865

end Sys2Proof.Machine
end

