-- ==== Sys2Proof/Machine/Sha256.lean ====
section
/-! DEFINITION. SHA-256 (FIPS 180-4) and HMAC-SHA-256 (RFC 2104), which R348 and R373 cite. PRESUMED: the spec names the
two standards and does not repeat them. -/

namespace Sys2Proof.Machine

/-- The constants of the 64 rounds. -/
def shaK : List Word :=
  [0x428A2F98, 0x71374491, 0xB5C0FBCF, 0xE9B5DBA5, 0x3956C25B, 0x59F111F1, 0x923F82A4, 0xAB1C5ED5] ++
  [0xD807AA98, 0x12835B01, 0x243185BE, 0x550C7DC3, 0x72BE5D74, 0x80DEB1FE, 0x9BDC06A7, 0xC19BF174] ++
  [0xE49B69C1, 0xEFBE4786, 0x0FC19DC6, 0x240CA1CC, 0x2DE92C6F, 0x4A7484AA, 0x5CB0A9DC, 0x76F988DA] ++
  [0x983E5152, 0xA831C66D, 0xB00327C8, 0xBF597FC7, 0xC6E00BF3, 0xD5A79147, 0x06CA6351, 0x14292967] ++
  [0x27B70A85, 0x2E1B2138, 0x4D2C6DFC, 0x53380D13, 0x650A7354, 0x766A0ABB, 0x81C2C92E, 0x92722C85] ++
  [0xA2BFE8A1, 0xA81A664B, 0xC24B8B70, 0xC76C51A3, 0xD192E819, 0xD6990624, 0xF40E3585, 0x106AA070] ++
  [0x19A4C116, 0x1E376C08, 0x2748774C, 0x34B0BCB5, 0x391C0CB3, 0x4ED8AA4A, 0x5B9CCA4F, 0x682E6FF3] ++
  [0x748F82EE, 0x78A5636F, 0x84C87814, 0x8CC70208, 0x90BEFFFA, 0xA4506CEB, 0xBEF9A3F7, 0xC67178F2]

/-- The eight working words. -/
structure Sha where
  a : Word
  b : Word
  c : Word
  d : Word
  e : Word
  f : Word
  g : Word
  h : Word
deriving DecidableEq, Repr

/-- The hash value before the first block. -/
def Sha.init : Sha :=
  ⟨0x6A09E667, 0xBB67AE85, 0x3C6EF372, 0xA54FF53A, 0x510E527F, 0x9B05688C, 0x1F83D9AB, 0x5BE0CD19⟩

/-- The sum of two hash values, word by word. -/
def Sha.add (x y : Sha) : Sha :=
  ⟨x.a + y.a, x.b + y.b, x.c + y.c, x.d + y.d, x.e + y.e, x.f + y.f, x.g + y.g, x.h + y.h⟩

/-- One round, with the sum of its constant and its schedule word. -/
def Sha.round (x : Sha) (kw : Word) : Sha :=
  let s1 := x.e.rotateRight 6 ^^^ x.e.rotateRight 11 ^^^ x.e.rotateRight 25
  let ch := (x.e &&& x.f) ^^^ (~~~x.e &&& x.g)
  let t1 := x.h + s1 + ch + kw
  let s0 := x.a.rotateRight 2 ^^^ x.a.rotateRight 13 ^^^ x.a.rotateRight 22
  let maj := (x.a &&& x.b) ^^^ (x.a &&& x.c) ^^^ (x.b &&& x.c)
  ⟨t1 + (s0 + maj), x.a, x.b, x.c, x.d + t1, x.e, x.f, x.g⟩

/-- The next word of the message schedule; `w` holds those before it, the last one first. -/
def shaNext (w : List Word) : Word :=
  let s0 (x : Word) : Word := x.rotateRight 7 ^^^ x.rotateRight 18 ^^^ (x >>> 3)
  let s1 (x : Word) : Word := x.rotateRight 17 ^^^ x.rotateRight 19 ^^^ (x >>> 10)
  s1 (w.getD 1 0) + w.getD 6 0 + s0 (w.getD 14 0) + w.getD 15 0

/-- `n` more words of the message schedule. -/
def shaSchedule : Nat → List Word → List Word
  | 0, w => w
  | n + 1, w => shaSchedule n (shaNext w :: w)

/-- The big-endian words of a list of bytes, at most `n`. -/
def beWords : Nat → List Byte → List Word
  | n + 1, a :: b :: c :: d :: r => (a ++ b ++ c ++ d) :: beWords n r
  | _, _ => []

/-- The hash value after a block of 64 bytes. -/
def Sha.block (x : Sha) (bs : List Byte) : Sha :=
  let w := (shaSchedule 48 (beWords 16 bs).reverse).reverse
  x.add ((shaK.zip w).foldl (fun y p => y.round (p.1 + p.2)) x)

/-- The hash value after `n` blocks. -/
def Sha.blocks : Nat → Sha → List Byte → Sha
  | 0, x, _ => x
  | n + 1, x, bs => Sha.blocks n (x.block (bs.take 64)) (bs.drop 64)

/-- The 32 bytes of the SHA-256 of a list of bytes. -/
@[irreducible] def sha256 (bs : List Byte) : List Byte :=
  let pad := (119 - bs.length % 64) % 64
  let m := bs ++ [0x80] ++ List.replicate pad 0 ++ beBytes 8 (BitVec.ofNat 64 (8 * bs.length))
  let x := Sha.blocks (m.length / 64) Sha.init m
  [x.a, x.b, x.c, x.d, x.e, x.f, x.g, x.h].flatMap fun w => beBytes 4 w

/-- HMAC-SHA-256 under a key of 32 bytes. -/
@[irreducible] def hmacSha256 (key bs : List Byte) : List Byte :=
  let pad (v : Byte) : List Byte := (key ++ List.replicate 32 0).map fun b => b ^^^ v
  sha256 (pad 0x5C ++ sha256 (pad 0x36 ++ bs))

/-- TAG of a datagram (R348): the leftmost 128 bits of HMAC-SHA-256, the first byte the lowest. DEDUCED: the key's bytes
stand as HB_KEY0 to HB_KEY7 hold them, lowest first (R4). -/
def hbTag (key : BitVec 256) (bs : List Byte) : BitVec 128 :=
  BitVec.ofNat 128 (leNat ((hmacSha256 (leBytes 32 key) bs).take 16))

end Sys2Proof.Machine
end

