-- ==== Sys2Proof/Machine/HostOut.lean ====
section
/-! DEFINITION. What the module sends to the hosts: the completion ring of HOST-A and the datagrams of
HOST-B (R342, R347, R348). -/

namespace Sys2Proof.Machine

/-- A register word of BAR4 (R347). -/
def Gate.bar4Word (g : Gate) (key : Nat) : Word := Store.get 0 g.bar4 key

/-- A field of BAR4. -/
def Gate.fld (g : Gate) (f : Fld) : Nat := getBits (g.bar4Word f.key) f.lo f.w

/-- BAR4 with a field set. -/
def Gate.setFld (g : Gate) (f : Fld) (v : Nat) : Gate :=
  { g with bar4 := Store.set 0 g.bar4 f.key (setBits (g.bar4Word f.key) f.lo f.w v) }

/-- The vector that a completion entry sends (R347). -/
def Gate.vectorOf (g : Gate) : HostMsg → Nat
  | .event _ _ v _ => v.toNat
  | _ => g.fld F.BAR4_CQ_VECTOR_VECTOR

/-- Whether the completion ring runs and has room: one slot stays free, so that a full ring is not an
empty one. -/
def Gate.cqRoom (g : Gate) : Bool :=
  let size := g.fld F.BAR4_CQ_SIZE_SIZE
  g.fld F.BAR4_RING_CTRL_EN = 1 && size != 0
    && (g.fld F.BAR4_CQ_TAIL_TAIL + 1) % size != g.fld F.BAR4_CQ_HEAD_HEAD % size

/-- A message written into the completion ring. -/
def Gate.cqWrite (g : Gate) (m : HostMsg) : Gate :=
  let tail := g.fld F.BAR4_CQ_TAIL_TAIL
  let g := { g with cq := g.cq ++ [({ slot := tail, msg := m, vector := g.vectorOf m } : CqSlot)] }
  g.setFld F.BAR4_CQ_TAIL_TAIL ((tail + 1) % g.fld F.BAR4_CQ_SIZE_SIZE)

/-- A message for HOST-A: written into the completion ring in order, or held while it is full. -/
def Gate.toA (g : Gate) (m : HostMsg) : Gate :=
  if g.held = [] && g.cqRoom then g.cqWrite m else { g with held := g.held ++ [m] }

/-- The 1 to 240 bytes of a LOG's TEXT (R341), by the number of the text. -/
def logBytes (text : Nat) : List Byte := (Config.logText text).1 :: (Config.logText text).2.take 239

/-- The bytes of a module-to-host message (R341). -/
def HostMsg.bytes : HostMsg → List Byte
  | .readReply tag tenant st ep d =>
    header 0x81 tag tenant ep 8 ++ [st, 0] ++ leBytes 2 ep ++ leBytes 4 d
  | .event code src v items =>
    header 0x82 0 0xFFFF 0xFFFF (8 + 4 * items.length) ++ leBytes 2 code ++ leBytes 2 src ++ [v, 0]
      ++ leBytes 2 (BitVec.ofNat 16 items.length) ++ items.flatMap fun i => leBytes 2 i.1 ++ leBytes 2 i.2
  | .preview t kind line frame data =>
    header 0x83 0 t 0xFFFF (8 + data.length) ++ [kind, 0] ++ leBytes 2 line ++ leBytes 4 frame ++ data
  | .counters page data =>
    header 0x84 0 0xFFFF 0xFFFF 264 ++ leBytes 4 page ++ [0, 0, 0, 0] ++ data.flatMap (leBytes 4)
  | .log sev time text =>
    let bs := logBytes text
    header 0x85 0 0xFFFF 0xFFFF (12 + bs.length) ++ [sev, 0, 0, 0] ++ leBytes 8 time ++ bs
where
  /-- The 16-byte header (R341). -/
  header (type : Byte) (tag tenant epoch : Half) (len : Nat) : List Byte :=
    [type, 0] ++ leBytes 2 tag ++ leBytes 2 tenant ++ leBytes 2 epoch
      ++ leBytes 2 (BitVec.ofNat 16 len) ++ [0, 0, 0, 0, 0, 0]

/-- A message for HOST-B: a datagram of the module's own series, from one of its ports (R348, R349). -/
def Gate.toB (g : Gate) (dest : NetAddr) (port : Half) (m : HostMsg) : Gate :=
  let seq := g.txSeq + 1
  { g with txSeq := seq
           wireB := g.wireB ++ [⟨dest, port, seq, m, hbTag g.key (leBytes 8 seq ++ m.bytes)⟩] }

/-- HB_PEER (R348). -/
def State.hbPeer (s : State) : NetAddr :=
  let v6 := s.bit F.GTE_PEER_PORT_V6
  let ip := if v6 then (List.range 4).foldl (fun n k => n * 2 ^ 32 + s.fld (F.GTE_PEER_IP6_ADDR k)) 0
    else s.fld F.GTE_PEER_IP4_ADDR
  ⟨v6, BitVec.ofNat 128 ip, BitVec.ofNat 16 (s.fld F.GTE_PEER_PORT_PORT)⟩

/-- The module's own port (GTE.CFG). -/
def State.hbPort (s : State) : Half := BitVec.ofNat 16 (s.fld F.GTE_CFG_HB_PORT)

/-- Whether HOST-B exchanges datagrams of an address family (GTE.CFG). -/
def State.familyOn (s : State) (v6 : Bool) : Bool := s.bit (if v6 then F.GTE_CFG_V6_EN else F.GTE_CFG_V4_EN)

/-- The sequence series recorded in NVS before 65,536 datagrams have passed since the last record (R349): once one of
them has come 65,472 above it, since 64 datagrams below its highest SEQ may have been accepted too. -/
def State.recordSeq (s : State) : State :=
  let bs := s.pageLatest seqPage
  let due (i : Nat) (v : BitVec 64) : Bool := decide (leNat ((bs.drop i).take 8) + 65472 ≤ v.toNat)
  if s.bit F.GTE_KEY_CTRL_KEY_SET && (due 0 s.gate.rxTop || due 8 s.gate.txSeq) then
    s.nvsRecord seqPage (leBytes 8 s.gate.rxTop ++ leBytes 8 s.gate.txSeq ++ List.replicate 240 0)
  else s

/-- A message sent on HOST-B (R348, R349). Nothing is sent before a key is set. DEDUCED: or in an address family that
GTE.CFG does not enable. -/
def State.sendB (s : State) (dest : NetAddr) (m : HostMsg) : State :=
  if s.bit F.GTE_KEY_CTRL_KEY_SET && s.familyOn dest.v6 then { s with gate := s.gate.toB dest s.hbPort m }.recordSeq else s

/-- A message to one host: to HOST-B's HB_PEER (R348). -/
def State.toHost (s : State) (h : HostId) (m : HostMsg) : State :=
  match h with
  | .a => { s with gate := s.gate.toA m }
  | .b => s.sendB s.hbPeer m

/-- A reply to a message of a host: on HOST-B to the request's source (R348). -/
def State.answer (s : State) (r : Msg) (m : HostMsg) : State :=
  match r.host with
  | .a => { s with gate := s.gate.toA m }
  | .b => s.sendB r.src m

/-- A message to both hosts. -/
def State.toHosts (s : State) (m : HostMsg) : State := (s.toHost .a m).toHost .b m

/-- An EVENT to each host that GTE.CTRL enables (EVT_A, EVT_B). -/
def State.sendEvent (s : State) (m : HostMsg) : State :=
  let s := if s.bit F.GTE_CTRL_EVT_A then s.toHost .a m else s
  if s.bit F.GTE_CTRL_EVT_B then s.toHost .b m else s

/-- A supervisor event: SOURCE 0xFFFF and the vector of GTE.SUP_EVT (R347). Items are pairs of a
number and a value; beyond 16 they go into further EVENTs. -/
def State.notify (s : State) (code : Nat) (items : List (Nat × Nat)) : State :=
  let ev (is : List (Nat × Nat)) : HostMsg :=
    .event (BitVec.ofNat 16 code) 0xFFFF (BitVec.ofNat 8 (s.fld F.GTE_SUP_EVT_VECTOR))
      (is.map fun i => (BitVec.ofNat 16 i.1, BitVec.ofNat 16 i.2))
  (List.range (max 1 (ceilDiv items.length 16))).foldl
    (fun s k => s.sendEvent (ev ((items.drop (16 * k)).take 16))) s

/-- A supervisor event with one item whose value the spec does not state. -/
def State.tell (s : State) (code n : Nat) : State := s.notify code [(n, Config.eventValue code n)]

end Sys2Proof.Machine
end

