-- ==== Sys2Proof/Machine/Notice.lean ====
section
/-! DEFINITION. The notice registers of engines and sectors (R23) and the engine state that drives
them. -/

namespace Sys2Proof.Machine

/-- MOD.ENG_NOTICE set for an engine (R23). -/
def State.engNotice (s : State) (e : Nat) : State :=
  s.setBit ⟨(0x40 + 4 * (e / 32)) / 4, e % 32, 1⟩ true

/-- MOD.SEC_NOTICE set for a sector (R23). -/
def State.secNotice (s : State) (sec : Nat) : State := s.setBit ⟨0x4C / 4, sec, 1⟩ true

/-- The state of an engine: 0 SERVICE, 1 FENCED, 2 CLEARING, 3 SELFTEST, 4 GRANTING, 5 RETIRED,
6 PARKED, 7 OFF. -/
def State.estate (s : State) (e : Nat) : Nat := s.fld (F.RNG_STATUS_ESTATE e)

/-- RNG.STATUS.ESTATE set; a change is noticed (R23), and SEC.STATUS shows the service bit. -/
def State.setEState (s : State) (e v : Nat) : State :=
  if s.estate e = v then s
  else
    let s := s.setFld (F.RNG_STATUS_ESTATE e) v
    (s.engNotice e).setBit ⟨(0x4000C + 0x20000 * (e / 9)) / 4, 8 + e % 9, 1⟩ (v == 0)

/-- An engine in retention is awake (R261): its banks are no longer RETAINED. -/
def State.wakeEngine (s : State) (e : Nat) : State :=
  if s.estate e = 6 then (s.setEState e 0).setBit (F.BNK_STATUS_RETAINED e) false else s

/-- Whether the module is PARKED: the blitters, the DMA units and the compositors of the sectors are gated (R386). -/
def State.gated (s : State) : Bool := s.fld F.PWR_STATUS_STATE == 4

/-- Counter `key` of what happens in wall time brought up to the current tick (R7): the spec does not say how often it
counts, so what it has counted since it was last brought up is a free value. -/
def State.grow (s : State) (key : Nat) : State :=
  let from_ := Store.get 0 s.accrued key
  if from_ < s.tick then
    let n := Config.timingCount key from_ s.tick
    let grown (w : Word) : Word := BitVec.ofNat 32 (min 0xFFFFFFFF (w.toNat + n))
    let b := Store.get (moduleRst key) s.bus.before key
    { s.setWord key (grown (s.word key)) with
      bus := { s.bus with before := Store.set (moduleRst key) s.bus.before key (grown b) }
      accrued := Store.set 0 s.accrued key s.tick }
  else s

/-- The lock bit of a clock domain (R398); ALL_LOCKED follows. -/
def State.setLock (s : State) (d : Nat) (b : Bool) : State :=
  let s := s.setBit ⟨(0x2020 + 4 * (d / 32)) / 4, d % 32, 1⟩ b
  s.setBit F.CLK_STATUS_ALL_LOCKED ((List.range 108).all fun d => s.bit ⟨(0x2020 + 4 * (d / 32)) / 4, d % 32, 1⟩)

end Sys2Proof.Machine
end

