-- ==== Sys2Proof/Machine/Credits.lean ====
section
/-! DEFINITION. Credits (R16 to R22, R339). A sender that holds its full count is not listed. A flit of a
fabric ring or gate link that is out of service goes over the other one (R11, R339). -/

namespace Sys2Proof.Machine

/-- The credits of a path that is full and idle (R17); those of HBM read data are its length, reserved at issue. -/
def creditMax : Path → Nat
  | .engRing _ _ => 32
  | .ringStop _ _ _ _ => 8
  | .gateway _ _ => 64
  | .spineHbm _ _ => 128
  | .hbmRead _ _ flits => flits
  | .trailLaunch _ => 4
  | .blitWrite _ => 32
  | .dmaBurst _ _ => 4
  | .mirror _ _ => 64
  | .handoff _ => 48
  | .audio _ => 32
  | .pushItem _ => 256
  | .egress _ => 512
  | .ingress _ => 64
  | .gateLink _ _ => 128

/-- The sector of a path of a sector: one whose sender stands in it (R21). -/
def pathSector : Path → Option Nat
  | .engRing e _ => some (e / 9)
  | .ringStop s _ _ _ => some s
  | .gateway s _ => some s
  | .spineHbm _ _ => none
  | .hbmRead _ _ _ => none
  | .trailLaunch e => some (e / 9)
  | .blitWrite e => some (e / 9)
  | .dmaBurst e _ => some (e / 9)
  | .mirror src _ => some (src / 9)
  | .handoff e => some (e / 9)
  | .audio e => some (e / 9)
  | .pushItem s => some s
  | .egress _ => none
  | .ingress _ => none
  | .gateLink _ _ => none

/-- The engine of stop `n` of a sector's rings; the stops from 9 on are those of shared units and of the gateway. -/
def stopEngine (s : Sec) (n : Nat) : Option Eng := if h : n < 9 then some ⟨9 * s + n, by omega⟩ else none

/-- The engines on a path (R22). -/
def pathEngines : Path → List Eng
  | .engRing e _ => [e]
  | .ringStop _ _ _ _ => []
  | .gateway _ _ => []
  | .spineHbm _ _ => []
  | .hbmRead s n _ => (stopEngine s n).toList
  | .trailLaunch e => [e]
  | .blitWrite e => [e]
  | .dmaBurst e _ => [e]
  | .mirror src dst => [src, dst]
  | .handoff e => [e]
  | .audio e => [e]
  | .pushItem _ => []
  | .egress _ => []
  | .ingress _ => []
  | .gateLink _ _ => []

/-- The stops of a fabric ring: those of the nine engines, then those of the shared units (blitter, sector DMA,
compositor) and of the gateway. DEDUCED: the spec gives every engine and shared unit a stop, and each ring a gateway. -/
def ringStops : Nat := 13

/-- The state of a fabric ring: 0 service, 1 faulted, 2 testing, 3 off. -/
def State.ringState (s : State) (sec : Nat) (b : Bool) : Nat :=
  if b then s.fld (F.SEC_RING_B_STATE sec) else s.fld (F.SEC_RING_A_STATE sec)

/-- The fabric ring that carries what is meant for ring `b` (R11). -/
def State.ringFor (s : State) (sec : Nat) (b : Bool) : Bool :=
  if s.ringState sec b != 0 && s.ringState sec (!b) == 0 then !b else b

/-- The gate link that carries what is meant for link `l` (R339). -/
def State.linkFor (s : State) (l : Fin 2) : Fin 2 :=
  let up := s.fld F.GTE_STATUS_LINK
  if !up.testBit l.val && up.testBit (1 - l.val) then 1 - l else l

/-- The path that a flit takes. -/
def State.route (s : State) : Path → Path
  | .engRing e b => .engRing e (s.ringFor (e / 9) b)
  | .ringStop c b n r => .ringStop c (s.ringFor c b) n r
  | .gateway c b => .gateway c (s.ringFor c b)
  | .spineHbm c b => .spineHbm c (s.ringFor c b)
  | .gateLink l f => .gateLink (s.linkFor l) f
  | p => p

/-- CLK.RST_ENG of an engine (R404). -/
def State.setRstEng (s : State) (e : Nat) (b : Bool) : State := s.setBit ⟨(0x2030 + 4 * (e / 32)) / 4, e % 32, 1⟩ b

/-- Whether the reset scope of an engine, with that of its sector, is asserted (R402, R404). -/
def State.engHeld (s : State) (e : Nat) : Bool :=
  s.bit ⟨(0x2030 + 4 * (e / 32)) / 4, e % 32, 1⟩ || s.bit ⟨F.CLK_RST_SEC_SEC.key, e / 9, 1⟩

/-- Whether the ring, the link and the engines of a path are in service, and no reset scope holds a side of it (R402). -/
def State.pathOpen (s : State) (p : Path) : Bool :=
  ((pathEngines p).all fun e => s.estate e == 0 && !s.engHeld e)
    && ((pathSector p).all fun c => !s.bit ⟨F.CLK_RST_SEC_SEC.key, c, 1⟩) &&
  match p with
  | .engRing e b => s.ringState (e / 9) b == 0
  | .ringStop c b _ _ => s.ringState c b == 0
  | .gateway c b => s.ringState c b == 0
  | .spineHbm c b => s.ringState c b == 0
  | .gateLink l _ => (s.fld F.GTE_STATUS_LINK).testBit l.val
  | .egress p => !s.bit ⟨F.CLK_RST_PORT_PORT.key, p, 1⟩
  | .ingress p => !s.bit ⟨F.CLK_RST_PORT_PORT.key, p, 1⟩
  | .hbmRead c _ _ => !s.bit ⟨F.CLK_RST_SEC_SEC.key, c, 1⟩
  | _ => true

/-- The credits of a path and the source that it served last. -/
def State.credit (s : State) (p : Path) : Credit :=
  match s.credits.find? fun c => c.path == p with
  | some c => c
  | none => ⟨p, creditMax p, 0⟩

/-- The state with the credits of a path replaced; a sender with its full count that has served no source
is not listed. -/
def State.setCredit (s : State) (c : Credit) : State :=
  let rest := s.credits.filter fun x => x.path != c.path
  { s with credits := if c.held = creditMax c.path && c.last = 0 then rest else rest ++ [c] }

/-- The source that a sender serves next (R19): the first after the last one, in rising order and round. -/
def nextSource (last : Nat) (ready : List Nat) : Option Nat :=
  match (ready.filter fun n => last < n).min? with
  | some n => some n
  | none => ready.min?

/-- What a sender does when its credits have reached zero (R17): a port pauses its link partner, a blitter
pauses its trail, the gate pauses HOST-B; any other waits. -/
def State.atZero (s : State) : Path → State
  | .ingress p =>
    let q := s.port p
    (s.setPort p { q with sent := q.sent ++ [.pause] }).count (F.PRT_TX_PAUSE_COUNT p)
  | .blitWrite e => s.count (F.SBLT_WRITE_STALLS_COUNT (e / 9))
  | .gateLink _ true => { s with gate := { s.gate with pauses := s.gate.pauses + 1 } }
  | _ => s

/-- A flit of a shared unit or of the gateway placed on a fabric ring (R24): one that its stop sends from source 1 or
more. DESIGN CHOICE: source 0 of a stop is what the stop before it sends on. -/
def State.countPlaced (s : State) (p : Path) (n : Nat) : State :=
  match p with
  | .ringStop c b stop _ =>
    if 9 ≤ stop && n != 0 then s.count (if b then F.SEC_FLITS_B_COUNT c else F.SEC_FLITS_A_COUNT c) else s
  | _ => s

/-- A sender sends one flit (R16, R18, R19). `ready` are the sources with a flit ready. -/
def execFlitSend (p : Path) (ready : List Nat) (s : State) : Out :=
  let p := s.route p
  if !s.pathOpen p then .next s
  else
    match nextSource (s.credit p).last ready with
    | none => .next s
    | some n =>
      if (s.credit p).held = 0 then .next (s.atZero p)
      else .next ((s.setCredit ⟨p, (s.credit p).held - 1, n⟩).countPlaced p n)

/-- A credit return above the count of its path (R21): discarded, counted, noticed, told. -/
def State.creditOver (s : State) (p : Path) : State :=
  match pathSector p with
  | some c => ((s.count (F.SEC_CREDIT_OVER_COUNT c)).secNotice c).tell 0x020A c
  | none => (s.count F.MOD_CREDIT_OVER_COUNT).tell 0x020A 0xFFFF

/-- A flit of an engine placed on a fabric ring (R24), which returns the credit of the engine's port. -/
def State.countFlit (s : State) : Path → State
  | .engRing e b => s.count (if b then F.SEC_FLITS_B_COUNT (e / 9) else F.SEC_FLITS_A_COUNT (e / 9))
  | _ => s

/-- Whether the sender of a path has no credit, so that it stalls (R17, R18). -/
def State.stalled (s : State) (p : Path) : Bool := (s.credit (s.route p)).held == 0

/-- Whether the sender of the path that `f` gives for an engine has no credit. -/
def State.stalledAt (s : State) (e : Nat) (f : Eng → Path) : Bool := if h : e < 72 then s.stalled (f ⟨e, h⟩) else false

/-- Whether an engine's fabric port has no credit for either ring, so that it stalls the master that issues a flit: the
mirror stream or the line hand-off (R17). A stalled cartridge cache fill takes wall time only (R20). -/
def State.portStalled (s : State) (e : Nat) : Bool :=
  (s.stalledAt e fun a => .engRing a false) && s.stalledAt e fun a => .engRing a true

/-- All mirror-stream paths from and to an engine. -/
def mirrorPaths (e : Eng) : List Path :=
  (List.finRange 72).flatMap fun x => if x = e then [] else [.mirror e x, .mirror x e]

/-- Every path into and out of an engine (R22). -/
def engPaths (e : Eng) : List Path :=
  [.engRing e false, .engRing e true, .trailLaunch e, .blitWrite e, .handoff e, .audio e]
    ++ ((List.range 64).map fun ch => .dmaBurst e ch) ++ mirrorPaths e

/-- The paths of read data to a requester that satisfies `f` on which flits have gone. -/
def State.readPaths (s : State) (f : Sec → Nat → Bool) : List Path :=
  s.credits.filterMap fun c => match c.path with
    | .hbmRead sec n k => if f sec n then some (.hbmRead sec n k) else none
    | _ => none

/-- Every path into and out of an engine, those of its reads among them (R22). -/
def State.allEngPaths (s : State) (e : Eng) : List Path := engPaths e ++ s.readPaths fun sec n => stopEngine sec n == some e

/-- Every path of a fabric ring. -/
def ringPaths (c : Sec) (b : Bool) : List Path :=
  [.gateway c b, .spineHbm c b] ++
  ((List.range ringStops).flatMap fun n => [.ringStop c b n false, .ringStop c b n true]) ++
  ((List.finRange 72).filter fun e => e.val / 9 = c.val).map fun e => .engRing e b

/-- Every path with an end in a sector (R403). -/
def State.sectorPaths (s : State) (c : Sec) : List Path :=
  ringPaths c false ++ ringPaths c true ++ [.pushItem c] ++ (s.readPaths fun sec _ => sec == c) ++
  ((List.finRange 72).filter fun e => e.val / 9 = c.val).flatMap engPaths

/-- The two paths of a field port (R403). -/
def portPaths (p : PortNo) : List Path := [.egress p, .ingress p]

/-- The credits of paths set to zero, on both sides (R22). -/
def State.zeroCredits (s : State) (ps : List Path) : State :=
  let rest := s.credits.filter fun c => !ps.contains c.path
  { s with credits := rest ++ ps.map fun p => ⟨p, 0, 0⟩ }

/-- The credits of paths granted up to the count of the table (R22). -/
def State.grantCredits (s : State) (ps : List Path) : State :=
  { s with credits := s.credits.filter fun c => !ps.contains c.path }

end Sys2Proof.Machine
end

