-- ==== Sys2Proof/Machine/EngineLoad.lean ====
section
/-! DEFINITION. The busy shares of the units of an engine (R25): the work that an engine does in a TB0 frame, or in
16.67 ms of wall time while TB0 is not running. -/

namespace Sys2Proof.Machine

/-- Whether a timebase is RUNNING (R57): RUN and the page's EN are 1 and its frame 0 has started. -/
def State.tbRunning (s : State) (n : Nat) : Bool :=
  s.bit (F.TBS_TB_CTL_RUN n) && s.bit ⟨0x1A008 / 4, 0, 1⟩
    && decide ((Store.get TbSet.reset s.tb n).origin ≤ s.tick)

/-- The ticks of an interval over which ENG.LOAD is measured: a frame of TB0, or 16.67 ms (R25). -/
def State.loadTicks (s : State) : Nat :=
  let b := Store.get TbSet.reset s.tb 0
  if s.tbRunning 0 then b.lines * b.lineTicks else 1667000

/-- The number of the interval in progress. -/
def State.loadNo (s : State) : Nat :=
  if s.tbRunning 0 then (s.tick - (Store.get TbSet.reset s.tb 0).origin) / s.loadTicks else s.tick / s.loadTicks

/-- Interval `n` as the work of an engine names it: frames of TB0 have odd names, intervals of wall time even ones. -/
def State.loadName (s : State) (n : Nat) : Nat := 2 * n + (s.tbRunning 0).toNat

/-- Work of engine `e` added to that of the interval in progress. -/
def State.work (s : State) (e : Nat) (h : EngWork → EngWork) : State :=
  let x := Store.get EngLoad.reset s.loads e
  let w := s.loadName s.loadNo
  let x := if x.cur.win = w then { x with cur := h x.cur, tick := s.tick }
    else ⟨h { EngWork.reset with win := w }, x.cur, s.tick⟩
  { s with loads := Store.set EngLoad.reset s.loads e x }

/-- The work of engine `e` in the last interval that has ended; none before the first has. -/
def State.lastWork (s : State) (e : Nat) : EngWork :=
  let x := Store.get EngLoad.reset s.loads e
  let w := s.loadName (s.loadNo - 1)
  if s.loadNo = 0 then EngWork.reset
  else if x.cur.win = w then x.cur
  else if x.last.win = w then x.last
  else EngWork.reset

end Sys2Proof.Machine
end

