-- ==== Sys2Proof/Machine/Calendar.lean ====
section
/-! DEFINITION. The calendar as data: its steps, its registers, the alarm, and the LANTERN clock that counts it (R362,
R364 to R366). -/

namespace Sys2Proof.Machine

/-- A BCD value of `n` digits as a number. -/
def unbcd : Nat → Nat → Nat
  | 0, _ => 0
  | n + 1, v => v % 16 + 10 * unbcd n (v / 16)

/-- A number as `n` BCD digits. -/
def bcd : Nat → Nat → Nat
  | 0, _ => 0
  | n + 1, v => v % 10 + 16 * bcd n (v / 10)

/-- Whether the `n` digits of a BCD value are 0 to 9. -/
def bcdOk : Nat → Nat → Bool
  | 0, _ => true
  | n + 1, v => v % 16 ≤ 9 && bcdOk n (v / 16)

/-- A date and time in numbers. -/
structure Calendar where
  year : Nat
  month : Nat
  day : Nat
  hour : Nat
  min : Nat
  sec : Nat
  hund : Nat
deriving DecidableEq, Repr

/-- The Gregorian rule (R362). -/
def leapYear (y : Nat) : Bool := y % 4 = 0 && (y % 100 != 0 || y % 400 = 0)

/-- The length of a month. -/
def monthDays (y m : Nat) : Nat :=
  if m = 2 then (if leapYear y then 29 else 28)
  else if m = 4 || m = 6 || m = 9 || m = 11 then 30 else 31

/-- Days from 2000-01-01 to a date. -/
def Calendar.days (c : Calendar) : Nat :=
  let leaps (y : Nat) : Nat := (y - 1) / 4 - (y - 1) / 100 + (y - 1) / 400
  365 * (c.year - 2000) + leaps c.year - leaps 2000
    + ((List.range (c.month - 1)).map fun i => monthDays c.year (i + 1)).sum + (c.day - 1)

/-- The weekday, 0 Sunday: 2000-01-01 is a Saturday (R365). -/
def Calendar.wday (c : Calendar) : Nat := (6 + c.days) % 7

/-- One hundredth later (R362, R365). -/
def Calendar.next (c : Calendar) : Calendar :=
  if c.hund < 99 then { c with hund := c.hund + 1 }
  else if c.sec < 59 then { c with hund := 0, sec := c.sec + 1 }
  else if c.min < 59 then { c with hund := 0, sec := 0, min := c.min + 1 }
  else if c.hour < 23 then { c with hund := 0, sec := 0, min := 0, hour := c.hour + 1 }
  else if c.day < monthDays c.year c.month then ⟨c.year, c.month, c.day + 1, 0, 0, 0, 0⟩
  else if c.month < 12 then ⟨c.year, c.month + 1, 1, 0, 0, 0, 0⟩
  else if c.year < 2999 then ⟨c.year + 1, 1, 1, 0, 0, 0, 0⟩
  else ⟨2000, 1, 1, 0, 0, 0, 0⟩

/-- A calendar from the words of TIME and DATE, or SET_TIME and SET_DATE. -/
def calendarOf (time date : Word) : Calendar :=
  { year := unbcd 4 (getBits date 16 16), month := unbcd 2 (getBits date 8 5), day := unbcd 2 (getBits date 0 8)
    hour := unbcd 2 (getBits time 24 8), min := unbcd 2 (getBits time 16 8), sec := unbcd 2 (getBits time 8 8)
    hund := unbcd 2 (getBits time 0 8) }

/-- The word of RTC.TIME. -/
def Calendar.time (c : Calendar) : Word :=
  BitVec.ofNat 32 (bcd 2 c.hund + 2 ^ 8 * bcd 2 c.sec + 2 ^ 16 * bcd 2 c.min + 2 ^ 24 * bcd 2 c.hour)

/-- The word of RTC.DATE. -/
def Calendar.date (c : Calendar) : Word :=
  BitVec.ofNat 32 (bcd 2 c.day + 2 ^ 8 * bcd 2 c.month + 2 ^ 13 * c.wday + 2 ^ 16 * bcd 4 c.year)

/-- Whether the staged set is valid (R364). -/
def setValid (time date : Word) : Bool :=
  let c := calendarOf time date
  bcdOk 8 time.toNat && bcdOk 2 (getBits date 0 8) && bcdOk 2 (getBits date 8 5) && bcdOk 4 (getBits date 16 16)
    && c.hour ≤ 23 && c.min ≤ 59 && c.sec ≤ 59 && 1 ≤ c.month && c.month ≤ 12 && 2000 ≤ c.year && c.year ≤ 2999
    && 1 ≤ c.day && c.day ≤ monthDays c.year c.month

/-- The alarm at the hundredth that the calendar enters (R366). -/
def State.rtcAlarm (s : State) : State :=
  let m := s.fld F.RTC_ALARM_CTRL_MATCH
  let time := s.word F.RTC_TIME_HUND.key
  let al := s.word F.RTC_ALARM_TIME.key
  let hit := m != 0 && (List.range 4).all fun i => m / 2 ^ i % 2 == 0 || byteOf time i == byteOf al i
  if hit then s.setBit F.RTC_STATUS_ALARM true else s

/-- The calendar set to a date and time. -/
def State.setCalendar (s : State) (c : Calendar) : State :=
  ((s.setWord F.RTC_TIME_HUND.key c.time).setWord F.RTC_DATE_DAY.key c.date).rtcAlarm

/-! The LANTERN clock. -/

/-- The ticks of the LANTERN clock up to a tick of the module (R362). DESIGN CHOICE: the two clocks start together. -/
def lanternTicks (tick : Nat) : Nat := tick * 32768 / 100000000

/-- The LANTERN ticks of hundredth `h` of a second: hundredth `h` ends at tick ceil((h + 1) × 32,768 ÷ 100) (R362). -/
def hundTicks (h : Nat) : Nat := ceilDiv ((h + 1) * 32768) 100 - ceilDiv (h * 32768) 100

/-- Hundredth `h` has ended: the ticks that it took, less those that TRIM has added, and every 2²⁰ ticks those that TRIM
adds (R362). -/
def Rtc.hundredth (r : Rtc) (h : Nat) (trim : Int) : Rtc :=
  let ticks := r.ticks + ((hundTicks h : Int) - r.extra).toNat
  if 2 ^ 20 ≤ ticks then { r with ticks := ticks - 2 ^ 20, extra := trim } else { r with ticks := ticks, extra := 0 }

/-- A LANTERN tick: a set that has been committed applies (R364). -/
def State.rtcTick (s : State) : State :=
  match s.rtc.set with
  | some (time, date) => { s with rtc := { s.rtc with set := none } }.setCalendar (calendarOf time date)
  | none => s

end Sys2Proof.Machine
end

