-- ==== Sys2Proof/Machine/TenantMem.lean ====
section
/-! DEFINITION. The tenant's address space: the map (R85), forbidden bytes and violations (R268,
R269), reads and writes at a tenant cycle (R105, R230), the tenant view of the pages (R32, R33), the
interrupt controller's levels (R295) and what a store to a page register does. -/

namespace Sys2Proof.Machine

/-! Beam positions. -/

/-- The absolute line of a tenant cycle (R64). -/
def Geo.lineOf (g : Geo) (c : Nat) : Nat := c / g.cpl

/-- The line cycle of a tenant cycle (R64). -/
def Geo.lineCyc (g : Geo) (c : Nat) : Nat := c % g.cpl

/-- The line of the frame of a tenant cycle. -/
def Geo.frameLine (g : Geo) (c : Nat) : Nat := g.lineOf c % g.lines

/-- Condition VB (R65). -/
def Geo.inVB (g : Geo) (c : Nat) : Bool := decide (g.vblank ≤ g.frameLine c)

/-- Condition HB (R65). -/
def Geo.inHB (g : Geo) (c : Nat) : Bool := !g.inVB c && decide (g.vis ≤ g.lineCyc c)

/-- Effect positions are numbered line × 1024 + pixel over absolute lines (R153). -/
def posOf (line x : Nat) : Nat := line * 1024 + x

/-- The effect position of a write performed at a tenant cycle (R67, R144). -/
def Geo.effectPos (g : Geo) (c : Nat) : Nat :=
  let x := 8 * ceilDiv (g.lineCyc c * g.w / g.vis) 8
  if x < g.w then posOf (g.lineOf c) x else posOf (g.lineOf c + 1) 0

/-- The tenant cycle of audio tick `k` (R66). -/
def Geo.tickCycle (g : Geo) (k : Nat) : Nat := ceilDiv (k * g.cpl * 100000000) (48000 * g.lineTicks)

/-- The number of audio ticks before a tenant cycle. -/
def Geo.ticksBefore (g : Geo) (c : Nat) : Nat :=
  if c = 0 then 0 else (c - 1) * (48000 * g.lineTicks) / (g.cpl * 100000000) + 1

/-- c₀ of R140: the last line cycle whose writes take effect from pixel 0. -/
def Geo.c0 (g : Geo) : Nat := ceilDiv g.vis g.w - 1

/-! The map (R85). -/

/-- Video RAM. -/
def isVram (a : Nat) : Bool := 0x4000 ≤ a && a < 0xC000

/-- Memory that reads return: work, video and sound RAM, sprite table, palette, input reports, save
RAM. -/
def isRam (a : Nat) : Bool := a < 0xF000 || (0x10000 ≤ a && a < 0x12000)

/-- Memory that a CPU store and a step may write (R85, R233). -/
def isWritableRam (a : Nat) : Bool := a < 0xEC00 || (0x10000 ≤ a && a < 0x12000)

/-- The I/O pages. -/
def isIo (a : Nat) : Bool := 0xF000 ≤ a && a < 0x10000

/-- The backed part of the cartridge window. -/
def Geo.isCart (g : Geo) (a : Nat) : Bool := 0x20000 ≤ a && a < 0x20000 + g.imgLen

/-- A byte of the cartridge image. -/
def Geo.cartByte (g : Geo) (a : Nat) : Byte := memGet g.hbm (g.imgBase + (a - 0x20000))

/-- Where instructions may be fetched (R85). -/
def Geo.fetchable (g : Geo) (a : Nat) : Bool := a < 0x4000 || g.isCart a

/-! The tenant view of a page (R32, R33). -/

/-- The byte offset in the tenant's pages of tenant-view byte `x` of page `k`, for a basic or an
expert register. -/
def viewOff (k x : Nat) : Nat := k * 0x1000 + (if x < 0x80 then 0x20 + x else 0x80 + x)

/-- Whether tenant-view byte `x` of page `k` is no reserved offset (R268). -/
def ioExists (k x : Nat) : Bool :=
  if 15 ≤ k then false
  else if x < 3 then true
  else if x = 3 then false
  else
    let off := viewOff k x
    (tenantWord (off / 4)).bits / 2 ^ (8 * (off % 4)) % 256 != 0

/-- The bits of a word that are target registers of the video unit (R152); OWNER of a CTRL word is none. -/
def targetMask (key : Nat) : Word :=
  let k := key / 0x400
  let off := 4 * key % 0x1000
  if (k = 1 || k = 2 || (k = 3 && off != 8)) && isCoreWord key then
    BitVec.ofNat 32 (tenantWord key).rw &&& (if off = 8 then ~~~0x30 else 0xFFFFFFFF)
  else 0

/-- A word of target registers at an effect position (R156). The writes are kept in their order. -/
def Core.targetWord (c : Core) (base : Word) (key pos : Nat) : Word :=
  c.rlog.foldl (fun w e => if e.key = key && e.pos ≤ pos then blend e.mask e.val w else w) base

/-- A write to target registers put in its order: by position, CPU and other masters before raster
entries, otherwise in order of performance (R156). -/
def insertWrite (e : RegWrite) : List RegWrite → List RegWrite
  | [] => [e]
  | x :: r =>
    if e.pos < x.pos || (e.pos = x.pos && x.raster && !e.raster) then e :: x :: r
    else x :: insertWrite e r

/-- A raster list entry (R151). -/
structure REntry where
  line : Nat
  wide : Bool
  fin : Bool
  x : Nat
  reg : Nat
  page : Nat
  lo : Byte
  hi : Byte
  reserved : Bool
deriving DecidableEq, Repr

/-- The fields of an entry's 8 bytes (R151). -/
def REntry.ofBytes (b : BitVec 64) : REntry :=
  { line := (b.extractLsb' 0 10).toNat, wide := b.getLsbD 14, fin := b.getLsbD 15
    x := (b.extractLsb' 16 10).toNat, reg := (b.extractLsb' 32 8).toNat
    page := (b.extractLsb' 40 2).toNat, lo := b.extractLsb' 48 8, hi := b.extractLsb' 56 8
    reserved := b.extractLsb' 10 4 != 0 || b.extractLsb' 26 6 != 0 || b.extractLsb' 42 6 != 0 }

/-- Whether a byte may be written by a raster entry (R152). -/
def rasterTarget (page reg : Nat) : Bool :=
  match page with
  | 1 => reg == 1 || (0x10 ≤ reg && reg < 0x50 && (reg % 16 == 0 || (2 ≤ reg % 16 && reg % 16 ≤ 9)))
      || (0x80 ≤ reg && reg ≤ 0x88)
  | 2 => reg == 1 || reg == 4 || (6 ≤ reg && reg ≤ 8)
  | 3 => 4 ≤ reg && reg ≤ 9
  | _ => false

/-- Whether an entry's target is valid (R152). -/
def REntry.valid (e : REntry) : Bool :=
  !e.reserved && rasterTarget e.page e.reg
    && (!e.wide || (e.reg % 2 == 0 && rasterTarget e.page (e.reg + 1)))

/-- The effect position of an entry (R153), in the frame whose line 0 is absolute line `f0`. -/
def REntry.pos (g : Geo) (f0 : Nat) (e : REntry) : Nat :=
  if e.x < g.w then posOf (f0 + e.line) e.x else posOf (f0 + e.line + 1) 0

/-- The cycle at which an entry is performed (R153). -/
def REntry.cycle (g : Geo) (f0 : Nat) (e : REntry) : Nat :=
  (f0 + e.line) * g.cpl + (if e.x < g.w then ceilDiv (e.x * g.vis) g.w else g.vis)

/-- The word, the bits and their values that a store of `v` to tenant-view byte `x` of page `k`
addresses (R33). CTRL.OWNER is no part of the tenant view. -/
def viewStore (k x : Nat) (v : Byte) : Nat × Word × Word :=
  if x = 1 then
    (0x400 * k + 2, 0xFC3, BitVec.ofNat 32 (v.toNat % 2 + 2 * (v.toNat / 128) + 64 * (v.toNat / 2 % 64)))
  else
    let off := viewOff k x
    (off / 4, BitVec.ofNat 32 (0xFF * 2 ^ (8 * (off % 4))), BitVec.ofNat 32 (v.toNat * 2 ^ (8 * (off % 4))))

/-- A byte that a raster entry writes at its position (R152, R156). -/
def rasterWrite (pos page reg : Nat) (v : Byte) : RegWrite :=
  let (key, mask, val) := viewStore page reg v
  ⟨pos, true, key, mask &&& targetMask key, val⟩

/-- The writes of a valid entry at its position. -/
def REntry.writes (pos : Nat) (e : REntry) : List RegWrite :=
  rasterWrite pos e.page e.reg e.lo :: (if e.wide then [rasterWrite pos e.page (e.reg + 1) e.hi] else [])

/-- The 8 bytes of entry `k` of the list in progress, as they stand. -/
def Core.listBytes (c : Core) (byte : Nat → Byte) (k : Nat) : BitVec 64 :=
  leVec 64 ((List.range 8).map fun i => byte (0x4000 + (c.ras.base + 8 * k + i) % 0x8000))

/-- The writes up to position `pos` of entries that are still to be performed, in the frame whose line 0 is
absolute line `f0`, after an entry at `prev` (R155). -/
def aheadOf (g : Geo) (f0 pos : Nat) : Nat → List (BitVec 64) → List RegWrite
  | _, [] => []
  | prev, b :: r =>
    let e := REntry.ofBytes b
    let p := e.pos g f0
    if e.fin then []
    else if g.lines ≤ e.line || p < prev then aheadOf g f0 pos prev r
    else if pos < p then []
    else (if e.valid then e.writes p else []) ++ aheadOf g f0 pos p r

/-! The tenant interrupt controller. -/

/-- Tenant timer `k`. -/
def Core.timer (c : Core) : Nat → Timer
  | 0 => c.tmr0
  | 1 => c.tmr1
  | 2 => c.tmr2
  | _ => c.tmr3

/-- The state with tenant timer `k` replaced. -/
def Core.setTimer (c : Core) (k : Nat) (x : Timer) : Core :=
  match k with
  | 0 => { c with tmr0 := x }
  | 1 => { c with tmr1 := x }
  | 2 => { c with tmr2 := x }
  | _ => { c with tmr3 := x }

/-- Tenant DMA channel `c`. -/
def Core.dma (x : Core) : Nat → Option DmaItem
  | 0 => x.dma0
  | _ => x.dma1

/-- The state with the item of a tenant DMA channel replaced. -/
def Core.setDma (x : Core) (c : Nat) (i : Option DmaItem) : Core :=
  match c with
  | 0 => { x with dma0 := i }
  | _ => { x with dma1 := i }

/-- The level of each tenant interrupt source (R295, R296, R299). -/
def Tenant.levels (t : Tenant) : Nat → Bool
  | 4 => t.fld F.RAS_LM_PEND_PEND % 2 == 1
  | 5 => t.fld F.RAS_LM_PEND_PEND / 2 % 2 == 1
  | 6 => t.fld F.RAS_LM_PEND_PEND / 4 % 2 == 1
  | 7 => t.fld F.RAS_LM_PEND_PEND / 8 % 2 == 1
  | 8 => (t.fld F.SND_VEND_VEND &&& t.fld F.SND_VEND_IE_VEND_IE) != 0
  | 9 => (t.fld ⟨F.SAV_FLAGS_DONE.key, F.SAV_FLAGS_DONE.lo, 2⟩ &&& t.fld F.SAV_IE_IE) != 0
  | 10 => (t.fld F.BLT_SIG_SIG &&& t.fld F.BLT_SIG_IE_SIG_IE) != 0
      || (t.fld ⟨F.BLT_STAT_DONE.key, F.BLT_STAT_DONE.lo, 6⟩ &&& t.fld F.BLT_STAT_IE_STAT_IE) != 0
  | 11 => (t.fld ⟨(F.DMA_STAT_DONE 0).key, (F.DMA_STAT_DONE 0).lo, 5⟩ &&& t.fld (F.DMA_STAT_IE_STAT_IE 0)) != 0
      || (t.fld ⟨(F.DMA_STAT_DONE 1).key, (F.DMA_STAT_DONE 1).lo, 5⟩ &&& t.fld (F.DMA_STAT_IE_STAT_IE 1)) != 0
  | 12 => (t.fld ⟨F.QDM_STAT_DONE.key, F.QDM_STAT_DONE.lo, 3⟩ &&& t.fld F.QDM_STAT_IE_STAT_IE) != 0
  | n =>
    if n < 4 then t.bit (F.TMR_FLAG_WRAP n) && t.bit (F.TMR_CFG_IE n)
    else if 16 ≤ n && n < 32 then t.fld F.IRQ_SWI_SWI / 2 ^ (n - 16) % 2 == 1
    else false

/-- The priority of a tenant interrupt source. -/
def Tenant.prio (t : Tenant) (n : Nat) : Nat :=
  if n % 2 = 0 then t.fld (F.IRQ_PRIO_PRIO_LO (n / 2)) else t.fld (F.IRQ_PRIO_PRIO_HI (n / 2))

/-- The better of two candidates: the higher priority, then the lower source number. -/
def betterSource (a b : Option (Nat × Nat)) : Option (Nat × Nat) :=
  match a, b with
  | none, b => b
  | a, none => a
  | some x, some y => if x.2 < y.2 then some y else some x

/-- The source that R92 would accept with I at 1, of priority above `cpl`: (source, priority). While
IRQ.CTRL.EN is 0 no source is presented (R298). -/
def Tenant.topSource (t : Tenant) (cpl : Nat) : Option (Nat × Nat) :=
  if t.bit ⟨0x8008 / 4, 0, 1⟩ then
    (List.range 32).foldl (fun best n =>
      let p := t.prio n
      if t.levels n && 1 ≤ p && cpl < p then betterSource best (some (n, p)) else best) none
  else none

/-- The pending sources as a word (IRQ.PEND). -/
def Tenant.pendWord (t : Tenant) : Word :=
  BitVec.ofNat 32 ((List.range 32).foldl (fun w n => if t.levels n then w + 2 ^ n else w) 0)

/-- IRQ.STATUS.ANY (R298). -/
def Tenant.anySource (t : Tenant) : Bool := (List.range 32).any fun n => t.levels n && 1 ≤ t.prio n

/-- The waking condition of R99 at this cycle. -/
def Tenant.wakes (t : Tenant) : Bool :=
  (t.core.cpu.f.getLsbD 5 && (t.topSource t.core.cpu.cpl.toNat).isSome)
    || (t.bit F.IRQ_CTRL_WAKE_ANY && (t.topSource 0).isSome)

/-! Reading a page word as the tenant or the module sees it. -/

/-- Byte `i` of the branch trace array of the CPU page (R104). -/
def Cpu.btByte (c : Cpu) (i : Nat) : Byte := byteOf (Store.get 0 c.bt (i / 3)) (i % 3)

/-- Bits of `v` placed at bit `lo` of a word. -/
def at32 (lo v : Nat) : Word := BitVec.ofNat 32 (v * 2 ^ lo)

/-- The byte that a live return-stack entry gives at an address; the newest such entry (R103). The
entries are kept oldest first. -/
def liveByte (rs : List RsEntry) (a : Addr) : Option Byte :=
  rs.foldl (fun r e => let d := (a - e.res).toNat
    if d < 3 then some (byteOf e.ret d) else r) none

/-- A byte of the tenant's memory as it stands, live return-stack entries included (R103). -/
def Core.ramByte (c : Core) (a : Nat) : Byte :=
  match liveByte c.cpu.rs (BitVec.ofNat 24 a) with
  | some b => b
  | none => memGet c.mem a

/-- The execution with the raster entries that are still to be performed at or before position `pos` written at their
positions: the entry read, and those after it as the list's bytes stand (R156, R157). DESIGN CHOICE (log entry 128):
entries of a list that its frame start has not sampled yet are not among them. -/
def Tenant.lookAhead (g : Geo) (t : Tenant) (pos : Nat) : Core :=
  let c := t.core
  match c.ras.entry with
  | none => c
  | some b =>
    let n := t.fld F.RAS_PTR_PTR
    let more := (List.range (min c.ras.len 1024 - n)).map fun i => c.listBytes c.ramByte (n + i)
    { c with rlog := (aheadOf g c.ras.frameLine pos c.ras.prev (b :: more)).foldl (fun l w => insertWrite w l) c.rlog }

/-- PPL: the per-line quota (R242, BLT.QUOTA). -/
def Tenant.ppl (g : Geo) (t : Tenant) : Nat :=
  let m := t.fld F.BLT_QUOTA_MPIX
  (if m = 0 then 64 else m) * g.lineTicks / 100

/-- A word of the tenant's pages, with what is derived from other state. `pos` is the effect position
at which target registers are read (R157); `host` says that the read is a module-view read. -/
def Tenant.viewWord (g : Geo) (t : Tenant) (key pos : Nat) (host : Bool) : Word :=
  let c := t.core
  let w := t.word key
  let off := 4 * key % 0x1000
  match key / 0x400 with
  | 1 | 2 | 3 => if targetMask key = 0 then w else (t.lookAhead g pos).targetWord w key pos
  | 4 =>
    if host && off = 0x28 then w &&& 0xFFFF
    else if host && off = 0x2C then 0
    else if host && off = 0x30 then w &&& 0xFFFFFF00
    else w
  | 5 =>
    let act := (List.range 16).foldl
      (fun n v => if (Store.get Voice.reset c.snd.voices v).active then n + 2 ^ v else n) 0
    if off = 0x0C then at32 0 (t.levels 8).toNat
    else if off = 0x28 then blend 0xFFFF (at32 0 act) w
    else if off = 0x30 then
      if host then BitVec.ofNat 32 c.snd.ticks
      else at32 0 (c.snd.ticks % 256) ||| at32 8 c.snd.tickLatch.toNat
    else w
  | 7 =>
    if off = 0x0C then
      at32 0 (t.bit (F.TMR_FLAG_WRAP 0)).toNat ||| at32 1 (t.bit (F.TMR_FLAG_WRAP 1)).toNat
        ||| at32 2 (t.bit (F.TMR_FLAG_WRAP 2)).toNat ||| at32 3 (t.bit (F.TMR_FLAG_WRAP 3)).toNat
    else if 0x30 ≤ off && off < 0x70 && off % 16 = 8 then
      let x := c.timer ((off - 0x30) / 16)
      if host then at32 0 x.lineCount.toNat
      else at32 0 (x.count.toNat % 256) ||| at32 8 x.latch.toNat
    else w
  | 8 =>
    if off = 0x0C then at32 0 t.anySource.toNat
    else if off = 0x34 then t.pendWord
    else if off = 0x38 then
      blend 0xFF0000 (match t.topSource c.cpu.cpl.toNat with
        | some (n, _) => at32 16 n
        | none => at32 23 1) w
    else w
  | 10 => if off = 0x0C then at32 0 c.qdm.isSome.toNat else w
  | 11 =>
    if off = 0x0C then at32 0 c.trail.isSome.toNat
    else if off = 0x30 then BitVec.ofInt 32 (if c.begun = 0 then (t.ppl g : Int) else c.bal)
    else w
  | 12 =>
    let pend (i : Option DmaItem) : Nat := match i with
      | some x => x.pend
      | none => 0
    if off = 0x0C then at32 0 c.dma0.isSome.toNat ||| at32 1 c.dma1.isSome.toNat
    else if off = 0x34 then w ||| at32 8 (pend c.dma0)
    else if off = 0x54 then w ||| at32 8 (pend c.dma1)
    else w
  | 13 => if off = 0x0C then at32 0 c.sav.isSome.toNat else w
  | 14 =>
    let u := c.cpu
    if off = 0x08 then blend 1 (if t.fld F.TEN_CONT_STATE = 0 then 0 else 1) w
    else if off = 0x0C then
      at32 0 (u.f.getLsbD 6).toNat ||| at32 1 (host && u.wait.isSome).toNat
        ||| at32 2 u.doubleTrap.toNat
    else if off = 0x24 then
      at32 8 u.vbrM.toNat ||| at32 16 u.vbrH.toNat ||| at32 24 u.cpl.toNat
    else if off = 0x28 then
      at32 0 u.rs.length ||| at32 8 u.btHead.toNat ||| at32 16 u.btCount
    else if 0x40 ≤ off && off < 0xA0 then
      leVec 32 [u.btByte (off - 0x40), u.btByte (off - 0x3F), u.btByte (off - 0x3E), u.btByte (off - 0x3D)]
    else w
  | _ => w

/-- CTRL as the tenant sees it: bit 0 EN, bits 6 to 1 block-defined, bit 7 EXPERT (R33). -/
def ctrlByte (w : Word) : Byte :=
  BitVec.ofNat 8 (getBits w 0 1 + 2 * getBits w 6 6 + 128 * getBits w 1 1)

/-- A byte of page `k` in the tenant view (R32, R33). -/
def Tenant.viewByte (g : Geo) (t : Tenant) (k x pos : Nat) (host : Bool) : Byte :=
  if x = 0 then BitVec.ofNat 8 k
  else if x = 1 then ctrlByte (t.viewWord g (0x400 * k + 2) pos host)
  else if x = 2 then byteOf (t.viewWord g (0x400 * k + 3) pos host) 0
  else if x = 3 then 0
  else
    let off := viewOff k x
    byteOf (t.viewWord g (off / 4) pos host) (off % 4)

/-! Reads at a tenant cycle. -/

/-- A byte of the tenant's memory as a read at cycle `e` returns it: no write performed at `e` or
later (R105, R230). -/
def Core.ramAt (c : Core) (e a : Nat) : Byte :=
  match (if c.atc.cycle = e then c.atc.old.find? (fun p => p.1 == a) else none) with
  | some p => p.2
  | none => c.ramByte a

/-- A data read of one byte at cycle `e`: none where it is forbidden (R85, R86). -/
def Tenant.readByte (g : Geo) (t : Tenant) (e : Nat) (addr : Addr) : Option Byte :=
  let a := addr.toNat
  if isRam a then some (t.core.ramAt e a)
  else if isIo a then
    let k := (a - 0xF000) / 256
    if ioExists k (a % 256) then
      some (match liveByte t.core.cpu.rs addr with
        | some b => b
        | none => t.viewByte g k (a % 256) (g.effectPos e) false)
    else none
  else if g.isCart a then some (g.cartByte a)
  else none

/-- One violation: counted, with the address of the first forbidden byte, the direction and the
master (R269). -/
def Tenant.violate (t : Tenant) (a : Addr) (write : Bool) (master : Nat) : Tenant :=
  (((t.setFld F.TEN_VIOLATIONS_COUNT (t.fld F.TEN_VIOLATIONS_COUNT + 1)).setFld
    F.TEN_VIOL_ADDR_ADDR a.toNat).setBit F.TEN_VIOL_INFO_WRITE write).setFld
    F.TEN_VIOL_INFO_MASTER master

/-- The bytes of one access at cycle `e`, forbidden ones as zero, and the violation that it counts
(R268, R269). -/
def Tenant.readAll (g : Geo) (t : Tenant) (e master : Nat) (as : List Addr) : Tenant × List Byte :=
  let vs := as.map fun a => (t.readByte g e a).getD 0
  match as.find? (fun a => (t.readByte g e a).isNone) with
  | some a => (t.violate a false master, vs)
  | none => (t, vs)

/-- The beam captured for RAS.VLINE, HCYC, HPOS and BFLAGS (R159). -/
def Tenant.captureBeam (g : Geo) (t : Tenant) (e : Nat) : Tenant :=
  let n := g.frameLine e
  let c := g.lineCyc e
  let hpos := if c < g.vis && n < g.vblank then c * g.w / g.vis else 0x3FF
  let flags := (g.inVB e).toNat + 2 * (g.inHB e).toNat
    + 4 * (decide (g.h ≤ n) && decide (n < g.vblank)).toNat
  (((t.setFld F.RAS_VLINE_VLINE n).setFld F.RAS_HCYC_HCYC c).setFld F.RAS_HPOS_HPOS hpos).setFld
    F.RAS_BFLAGS_BFLAGS flags

/-- The count of timer `k` latched by a tenant read of COUNT_LO (R315). -/
def Tenant.latchCount (t : Tenant) (k : Nat) : Tenant :=
  let x := t.core.timer k
  { t with core := t.core.setTimer k { x with latch := byteOf x.count 1 } }

/-- What a tenant read of one address does beside returning its value: the beam capture (R159), the
timer latches (R315), the tick latch (SND.TICK). -/
def Tenant.touch (g : Geo) (e : Nat) (t : Tenant) (addr : Addr) : Tenant :=
  let a := addr.toNat
  if a = 0xF40A then t.captureBeam g e
  else if a = 0xF718 then t.latchCount 0
  else if a = 0xF728 then t.latchCount 1
  else if a = 0xF738 then t.latchCount 2
  else if a = 0xF748 then t.latchCount 3
  else if a = 0xF510 then
    { t with core := { t.core with snd := { t.core.snd with
        tickLatch := BitVec.ofNat 24 (t.core.snd.ticks / 256) } } }
  else t

/-- A CPU data read of one access, sampled at cycle `e` (R105). -/
def Tenant.cpuRead (g : Geo) (t : Tenant) (e : Nat) (as : List Addr) : Tenant × List Byte :=
  (as.foldl (Tenant.touch g e) t).readAll g e 0 as

/-- A vector read: an ordinary data read (R89), which a violation names as master 1 (R269). -/
def Tenant.vectorRead (g : Geo) (t : Tenant) (e : Nat) (as : List Addr) : Tenant × List Byte :=
  (as.foldl (Tenant.touch g e) t).readAll g e 1 as

/-- Addresses `a`, `a + 1`, … (`n` of them), modulo 2²⁴. -/
def addrs (a : Addr) (n : Nat) : List Addr := (List.range n).map fun i => a + BitVec.ofNat 24 i

/-! Writes at a tenant cycle. -/

/-- The old byte of an address noted for the reads at cycle `e`. -/
def AtCycle.noteOld (x : AtCycle) (e a : Nat) (old : Byte) : AtCycle :=
  if x.cycle = e then
    if x.old.any (fun p => p.1 == a) then x else { x with old := (a, old) :: x.old }
  else ⟨e, [(a, old)], []⟩

/-- A W1C bit that the hardware sets at cycle `e` noted, so that a clearing write at `e` leaves it
set (R6). -/
def AtCycle.noteSet (x : AtCycle) (e key : Nat) (mask : Word) : AtCycle :=
  if x.cycle = e then { x with sets := (key, mask) :: x.sets } else ⟨e, [], [(key, mask)]⟩

/-- A live entry with a byte written (R103). -/
def RsEntry.write (a : Addr) (v : Byte) (e : RsEntry) : RsEntry :=
  let d := (a - e.res).toNat
  if d < 3 then
    { e with ret := (e.ret &&& ~~~((0xFF : Addr) <<< (8 * d))) ||| (BitVec.setWidth 24 v <<< (8 * d)) }
  else e

/-- A hardware status bit set at cycle `e`. -/
def Tenant.hwSet (t : Tenant) (e : Nat) (f : Fld) (v : Nat) : Tenant :=
  let t := t.setFld f (t.fld f ||| v)
  { t with core := { t.core with atc := t.core.atc.noteSet e f.key (at32 f.lo v) } }

/-- One byte of tenant memory written at cycle `e` by any master: memory and live entries together
(R103), the old byte kept for reads at `e` (R230) and for pixels before its effect position (R144),
palette bytes noted as pending (PAL.STATUS). -/
def Tenant.pokeByte (g : Geo) (e : Nat) (t : Tenant) (w : Addr × Byte) : Tenant :=
  let c := t.core
  let a := w.1.toNat
  let old := c.ramByte a
  let c := { c with
    mem := memSet c.mem a w.2
    atc := c.atc.noteOld e a old
    cpu := { c.cpu with rs := c.cpu.rs.map (RsEntry.write w.1 w.2) }
    vold := if isVram a then c.vold ++ [⟨g.effectPos e, a, old⟩] else c.vold }
  let t := { t with core := c }
  if 0xE800 ≤ a && a < 0xEC00 && a % 4 != 3 then t.setBit F.PAL_STATUS_PENDING true else t

/-- A write performed into private memory, sent to the mirror stream (R274). -/
def Tenant.issue (t : Tenant) (ws : List (Nat × Byte)) : Tenant :=
  match t.mirror with
  | some m => if ws = [] || !m.live then t else { t with mirror := some { m with stream := m.stream ++ [.write ws] } }
  | none => t

/-- The memory bytes of one access written at cycle `e`. -/
def Tenant.pokeAll (g : Geo) (t : Tenant) (e : Nat) (ws : List (Addr × Byte)) : Tenant :=
  (ws.foldl (Tenant.pokeByte g e) t).issue (ws.map fun w => (w.1.toNat, w.2))

/-- Events of a timer's source at cycles from `lo` to `hi` (R312). -/
def Geo.eventsIn (g : Geo) (src lo hi : Nat) : Nat :=
  if hi < lo then 0
  else match src with
    | 0 => hi + 1 - lo
    | 1 => (hi / g.cpl + 1) - ceilDiv lo g.cpl
    | 2 => (hi / (g.cpl * g.lines) + 1) - ceilDiv lo (g.cpl * g.lines)
    | _ => g.ticksBefore (hi + 1) - g.ticksBefore lo

/-- The cycle of the `m`-th event (from 1) of a timer's source at or after cycle `lo`. -/
def Geo.eventCycle (g : Geo) (src lo m : Nat) : Nat :=
  match src with
  | 0 => lo + m - 1
  | 1 => (ceilDiv lo g.cpl + m - 1) * g.cpl
  | 2 => (ceilDiv lo (g.cpl * g.lines) + m - 1) * (g.cpl * g.lines)
  | _ => g.tickCycle (g.ticksBefore lo + m - 1)

/-- Whether events reach the prescaler of timer `k` (R312). -/
def Tenant.timerRuns (t : Tenant) (k : Nat) : Bool := t.bit ⟨0x7008 / 4, 0, 1⟩ && t.bit (F.TMR_CFG_RUN k)

/-- The divisor D of a timer's prescaler (R311). -/
def Tenant.timerDiv (t : Tenant) (k : Nat) : Nat :=
  max 256 (256 * t.fld (F.TMR_DIV_N_N k) + t.fld (F.TMR_DIV_F_F k))

/-- The cycle of the next prescaler tick of timer `k` (R311). -/
def Tenant.timerDue (g : Geo) (t : Tenant) (k : Nat) : Option Nat :=
  if t.timerRuns k then
    let x := t.core.timer k
    some (g.eventCycle (t.fld (F.TMR_CFG_SRC k)) x.upTo (max 1 (ceilDiv (t.timerDiv k - x.acc) 256)))
  else none

/-- Timer `k` with the events up to cycle `e` counted, none of which ticks. -/
def Tenant.syncTimer (g : Geo) (e : Nat) (t : Tenant) (k : Nat) : Tenant :=
  let x := t.core.timer k
  let n := if t.timerRuns k then g.eventsIn (t.fld (F.TMR_CFG_SRC k)) x.upTo e else 0
  { t with core := t.core.setTimer k { x with acc := x.acc + 256 * n, upTo := max x.upTo (e + 1) } }

/-- TMR CLR of timer `k` (R315). -/
def Tenant.clearTimer (t : Tenant) (k : Nat) : Tenant :=
  { t with core := t.core.setTimer k { t.core.timer k with count := 0, acc := 0, staged := 0 } }

/-- A tenant write of `v` to COUNT_HI of timer `k` (R315). -/
def Tenant.loadTimer (t : Tenant) (k : Nat) (v : Byte) : Tenant :=
  let x := t.core.timer k
  { t with core := t.core.setTimer k { x with count := v ++ x.staged } }

/-- A tenant write of `v` to COUNT_LO of timer `k`, which is staged (R315). -/
def Tenant.stageTimer (t : Tenant) (k : Nat) (v : Byte) : Tenant :=
  { t with core := t.core.setTimer k { t.core.timer k with staged := v } }

/-- The line-match units judged up to cycle `e` before a write at `e` changes them (R160). -/
def Tenant.syncMatch (e : Nat) (t : Tenant) : Tenant :=
  let c := t.core
  { t with core := { c with lmFrom0 := max c.lmFrom0 (e + 1), lmFrom1 := max c.lmFrom1 (e + 1),
                            lmFrom2 := max c.lmFrom2 (e + 1), lmFrom3 := max c.lmFrom3 (e + 1) } }

/-- The tag of what a tenant launches now (R252, R289). -/
def Tenant.tag (t : Tenant) : Tag :=
  ⟨BitVec.ofNat 16 (t.fld F.TEN_CONT_EPOCH), BitVec.ofNat 16 (t.fld F.TEN_PLACE_PLACEMENT)⟩

/-- A store of `v` to BLT.GO at cycle `e` (R243). -/
def Tenant.goBlt (t : Tenant) (e : Nat) (v : Byte) : Tenant :=
  if v.getLsbD 0 then
    if t.core.trail.isSome then t.hwSet e F.BLT_STAT_BUSY_GO 1
    else if !t.bit ⟨0xB008 / 4, 0, 1⟩ then t
    else
      let tr : Trail := ⟨BitVec.ofNat 24 (t.fld F.BLT_TRAIL_TRAIL), none, e + 1, e + 1, false, false, t.tag⟩
      { t with core := { t.core with trail := some tr } }
  else t

/-- Whether a quick DMA range may be read from: work RAM or the backed image (R245). -/
def Geo.qdmSrc (g : Geo) (a : Nat) : Bool := a < 0x4000 || g.isCart a

/-- Whether a quick DMA range may be written to: video RAM, sprite table, palette memory (R245). -/
def qdmDst (a : Nat) : Bool := isVram a || (0xE000 ≤ a && a < 0xEC00)

/-- A store of `v` to QDM.GO at cycle `e` (R245): while BUSY it sets BUSY_GO, whatever EN is. -/
def Tenant.goQdm (g : Geo) (t : Tenant) (e : Nat) (v : Byte) : Tenant :=
  if v.getLsbD 0 then
    if t.core.qdm.isSome then t.hwSet e F.QDM_STAT_BUSY_GO 1
    else if !t.bit ⟨0xA008 / 4, 0, 1⟩ then t
    else
      let q : Qdm := ⟨BitVec.ofNat 24 (t.fld F.QDM_SRC_SRC), BitVec.ofNat 24 (t.fld F.QDM_DST_DST),
        t.fld F.QDM_LEN_LEN, e + 1, t.tag⟩
      let ok := 1 ≤ q.len && q.len ≤ 32768
        && (addrs q.src q.len).all (fun a => g.qdmSrc a.toNat)
        && (addrs q.dst q.len).all (fun a => qdmDst a.toNat)
      if ok then { t with core := { t.core with qdm := some q } }
      else t.hwSet e F.QDM_STAT_BAD_RANGE 1
  else t

/-- Elements of the burst an item would begin next (R247). -/
def DmaItem.nextBurst (i : DmaItem) : Nat := min i.burst (i.count - i.next)

/-- A request that reaches a channel's item at cycle `r` (R247): it begins a burst, is held pending
up to 15, or is dropped with OVERRUN. -/
def Tenant.dmaRequest (t : Tenant) (c r : Nat) : Tenant :=
  match t.core.dma c with
  | none => t
  | some i =>
    if i.busy.isNone && i.pend = 0 then
      { t with core := t.core.setDma c (some { i with busy := some (r, i.nextBurst) }) }
    else if i.pend < 15 then
      { t with core := t.core.setDma c (some { i with pend := i.pend + 1 }) }
    else t.hwSet r (F.DMA_STAT_OVERRUN c) 1

/-- REQ of a channel's item. -/
def DmaItem.req (i : DmaItem) : Nat := i.cfg.toNat / 16

/-- A request from source `src` of R247 at cycle `r` to each channel whose item selects it. -/
def Tenant.dmaEvent (t : Tenant) (src r : Nat) : Tenant :=
  let hit (t : Tenant) (c : Nat) : Tenant := match t.core.dma c with
    | some i => if i.req = src then t.dmaRequest c r else t
    | none => t
  hit (hit t 0) 1

/-- The first cycle at or after `c` that is line cycle VIS_CYC of a line before VBLANK_START (R247). -/
def Geo.visFrom (g : Geo) (c : Nat) : Nat :=
  let l := if g.lineCyc c ≤ g.vis then g.lineOf c else g.lineOf c + 1
  let l := if l % g.lines < g.vblank then l else (l / g.lines + 1) * g.lines
  l * g.cpl + g.vis

/-- An item of REQ 2 that has no burst in progress and no request pending waits for its next request, whose cycle
is known: its burst begins there. -/
def DmaItem.awaitVis (g : Geo) (i : DmaItem) (r : Nat) : DmaItem :=
  { i with busy := some (r, i.nextBurst), later := some (g.visFrom (r + 1)) }

/-- The requests of REQ 2 that have come to channel `c` up to cycle `e`, the first `n` of them, counted (R247): at most
one comes in a cycle. -/
def Tenant.countVis (g : Geo) (e c : Nat) : Nat → Tenant → Tenant
  | 0, t => t
  | n + 1, t =>
    match t.core.dma c with
    | none => t
    | some i =>
      match i.later with
      | none => t
      | some r =>
        if e < r then t
        else
          let full := decide (15 ≤ i.pend)
          let i := { i with later := some (max (r + 1) (g.visFrom (r + 1))), pend := if full then i.pend else i.pend + 1 }
          let t := { t with core := t.core.setDma c (some i) }
          Tenant.countVis g e c n (if full then t.hwSet r (F.DMA_STAT_OVERRUN c) 1 else t)

/-- The requests of REQ 2 that have come to either channel up to cycle `e`. -/
def Tenant.syncDma (g : Geo) (e : Nat) (t : Tenant) : Tenant := (t.countVis g e 0 (e + 1)).countVis g e 1 (e + 1)

/-- A store of `v` to GO of tenant DMA channel `c` at cycle `e` (R246, R247). -/
def Tenant.goDma (g : Geo) (t : Tenant) (c e : Nat) (v : Byte) : Tenant :=
  if v.getLsbD 0 then
    if (t.core.dma c).isSome then t.hwSet e (F.DMA_STAT_BUSY_GO c) 1
    else if !t.bit ⟨0xC008 / 4, 0, 1⟩ then t
    else
      let cfg : Byte := BitVec.ofNat 8 (t.fld ⟨(F.DMA_CFG_ESIZE c).key, (F.DMA_CFG_ESIZE c).lo, 8⟩)
      let b := t.fld (F.DMA_BURST_BURST c)
      let n := t.fld (F.DMA_COUNT_COUNT c)
      let i : DmaItem := ⟨cfg, if b = 0 then 256 else b, if n = 0 then 65536 else n,
        BitVec.ofNat 24 (t.fld (F.DMA_SRC_SRC c)), BitVec.ofNat 24 (t.fld (F.DMA_DST_DST c)),
        BitVec.ofNat 24 (t.fld (F.DMA_INDEX_INDEX c)), 0, 0, none, none, false, false, t.tag⟩
      if 13 ≤ i.req then t.hwSet e (F.DMA_STAT_BAD_REQ c) 1
      else
        let i := if i.req = 2 then i.awaitVis g (g.visFrom (e + 1)) else i
        let t := { t with core := t.core.setDma c (some i) }
        let t := t.setFld (F.DMA_DONE_ELEMS_MOVED c) 0
        if i.req = 0 then t.dmaRequest c (e + 1) else t
  else t

/-- A store of `v` to SAV.GO at cycle `e` (R358): a step of 4 + 32 cycles for each selected page. -/
def Tenant.goSav (t : Tenant) (e : Nat) (v : Byte) : Tenant :=
  if v.getLsbD 0 then
    if t.core.sav.isSome then t.hwSet e F.SAV_FLAGS_BUSY_GO 1
    else if !t.bit ⟨0xD008 / 4, 0, 1⟩ then t
    else
      let m : Word := BitVec.ofNat 32 (t.fld F.SAV_MASK_MASK)
      let n := (List.range 32).countP fun p => m.getLsbD p
      { t with core := { t.core with sav := some ⟨m, e + 4 + 32 * n,
          BitVec.ofNat 16 (t.fld F.TEN_CONT_EPOCH)⟩ } }
  else t

/-- Bits of SND.KEYON or KEYOFF added by a store of `v` to byte `b` of the register (R213). -/
def addKeys (m : Half) (b : Nat) (v : Byte) : Half := m ||| (BitVec.setWidth 16 v <<< (8 * b))

/-- Whether tenant-view byte `x` of the MIX page lies in the active set (R220). -/
def Tenant.mixActive (t : Tenant) (x : Nat) : Bool :=
  if t.bit F.MIX_STATUS_ACTIVE_B then (0x20 ≤ x && x < 0x30) || (0x88 ≤ x && x < 0x90)
  else (0x10 ≤ x && x < 0x20) || (0x80 ≤ x && x < 0x88)

/-- Whether a register byte is held outside `regs`: the timer counts and the CPU page's VBR and CPL. -/
def heldElsewhere (k x : Nat) : Bool :=
  (k == 7 && 0x10 ≤ x && x < 0x50 && (x % 16 == 8 || x % 16 == 9)) || (k == 14 && 4 ≤ x && x < 8)

/-- The masked write of a word at cycle `e` into stored registers: RW fields take their values, W1C
fields clear where a 1 is written unless the hardware sets them at `e` (R5, R6); target registers
wait for their effect position `pos` (R67, R156). -/
def Tenant.storeWord (t : Tenant) (e pos key : Nat) (mask v : Word) : Tenant :=
  let d := tenantWord key
  let tm := targetMask key
  let m := mask &&& BitVec.ofNat 32 d.rw
  let kept := t.core.atc.sets.foldl
    (fun w p => if t.core.atc.cycle = e && p.1 = key then w ||| p.2 else w) 0
  let clear := v &&& mask &&& BitVec.ofNat 32 d.w1c &&& ~~~kept
  let t := t.setWord key (blend (m &&& ~~~tm) v (t.word key) &&& ~~~clear)
  if m &&& tm = 0 then t
  else { t with core := { t.core with
    rlog := insertWrite ⟨pos, false, key, m &&& tm, v⟩ t.core.rlog } }

/-- A byte of an I/O store written into the registers. -/
def Tenant.ioByte (g : Geo) (e : Nat) (t : Tenant) (w : Addr × Byte) : Tenant :=
  let k := (w.1.toNat - 0xF000) / 256
  let x := w.1.toNat % 256
  if heldElsewhere k x || x = 0 || x = 2 || (k = 6 && t.mixActive x) then t
  else
    let (key, mask, v) := viewStore k x w.2
    t.storeWord e (g.effectPos e) key mask v

/-- Clears the branch trace (CPU.BT_CLR). -/
def Cpu.clearTrace (c : Cpu) : Cpu := { c with bt := [], btHead := 31, btCount := 0 }

/-- What a store of one byte does beside writing registers. -/
def Tenant.ioEffect (g : Geo) (e : Nat) (t : Tenant) (w : Addr × Byte) : Tenant :=
  let k := (w.1.toNat - 0xF000) / 256
  let x := w.1.toNat % 256
  let v := w.2
  let c := t.core
  match k with
  | 5 =>
    if x = 4 || x = 5 then { t with core := { c with snd := { c.snd with keyOn := addKeys c.snd.keyOn (x - 4) v } } }
    else if x = 6 || x = 7 then { t with core := { c with snd := { c.snd with keyOff := addKeys c.snd.keyOff (x - 6) v } } }
    else t
  | 6 => if x = 1 && v.getLsbD 1 then t.setBit F.MIX_STATUS_SWAP_PENDING true else t
  | 7 =>
    if x < 0x10 || 0x50 ≤ x then t
    else if x % 16 = 0 then if v.getLsbD 4 then t.clearTimer (x / 16 - 1) else t
    else if x % 16 = 8 then t.stageTimer (x / 16 - 1) v
    else if x % 16 = 9 then t.loadTimer (x / 16 - 1) v
    else t
  | 10 => if x = 0x0E then t.goQdm g e v else t
  | 11 => if x = 0x07 then t.goBlt e v else t
  | 12 => if x = 0x12 then t.goDma g 0 e v else if x = 0x32 then t.goDma g 1 e v else t
  | 13 => if x = 0x08 then t.goSav e v else t
  | 14 =>
    if x = 5 then { t with core := { c with cpu := { c.cpu with stagedM := v } } }
    else if x = 6 then { t with core := { c with cpu := { c.cpu with vbrM := c.cpu.stagedM, vbrH := v } } }
    else if x = 7 then { t with core := { c with cpu := { c.cpu with cpl := v.setWidth 3 } } }
    else if x = 0x0B then if v.getLsbD 0 then { t with core := { c with cpu := c.cpu.clearTrace } } else t
    else t
  | _ => t

/-- The tenant with its CPU registers changed. -/
def Tenant.onCpu (t : Tenant) (h : Cpu → Cpu) : Tenant :=
  { t with core := { t.core with cpu := h t.core.cpu } }

/-- Whether bytes of one access lie in MIX's active set (R220). -/
def Tenant.activeMix (t : Tenant) (ws : List (Addr × Byte)) : Bool :=
  ws.any fun w => (w.1.toNat - 0xF000) / 256 == 6 && t.mixActive (w.1.toNat % 256)

/-- The I/O bytes of one access written at cycle `e` (R34): registers, with the live entries that lie over them
(R103), then what the stores do. A write into MIX's active set is ignored and counted once per access (R220). -/
def Tenant.ioApply (g : Geo) (t : Tenant) (e : Nat) (ws : List (Addr × Byte)) : Tenant :=
  let t := t.onCpu fun c => { c with rs := c.rs.map fun r => ws.foldl (fun r w => r.write w.1 w.2) r }
  let t := if t.activeMix ws then t.count F.MIX_ACTIVE_WRITES_COUNT else t
  ws.foldl (Tenant.ioEffect g e) (ws.foldl (Tenant.ioByte g e) t)

/-- The timers, the line-match units and the DMA requests counted and judged up to cycle `e`, before a write at `e` to
page `k` (R160, R247, R313). -/
def Tenant.syncPage (g : Geo) (e : Nat) (t : Tenant) (k : Nat) : Tenant :=
  if k = 7 then [0, 1, 2, 3].foldl (Tenant.syncTimer g e) t
  else if k = 4 then t.syncMatch e
  else if k = 12 then t.syncDma g e
  else t

/-- An I/O store of one access at cycle `e`. -/
def Tenant.ioStore (g : Geo) (t : Tenant) (e : Nat) (ws : List (Addr × Byte)) : Tenant :=
  ((ws.map fun w => (w.1.toNat - 0xF000) / 256).foldl (Tenant.syncPage g e) t).ioApply g e ws

/-- Whether a CPU store may write a byte: memory, or a page register (R85). -/
def cpuWritable (a : Nat) : Bool := isWritableRam a || (isIo a && ioExists ((a - 0xF000) / 256) (a % 256))

/-- The bytes of one CPU access written at cycle `e` (R105, R268): allowed bytes are performed,
forbidden ones ignored and counted as one violation. -/
def Tenant.cpuWrite (g : Geo) (t : Tenant) (e : Nat) (ws : List (Addr × Byte)) : Tenant :=
  let t := t.pokeAll g e (ws.filter fun w => isWritableRam w.1.toNat)
  let io := ws.filter fun w => isIo w.1.toNat && cpuWritable w.1.toNat
  let t := if io = [] then t else t.ioStore g e io
  match ws.find? (fun w => !cpuWritable w.1.toNat) with
  | some w => t.violate w.1 true 0
  | none => t

/-- A control transfer recorded (R104), unless recording is frozen. -/
def Tenant.trace (t : Tenant) (a : Addr) : Tenant :=
  if t.bit F.CPU_CTRL_BT_FREEZE then t
  else t.onCpu fun c =>
    let i := c.btHead + 1
    { c with bt := Store.set 0 c.bt i.toNat a, btHead := i, btCount := min 32 (c.btCount + 1) }

/-- The writes of one step at its last cycle `e` (R233), by master 2 blitter, 3 quick DMA, 4 sector
DMA. `viol` is the address of a forbidden byte that the step has read. -/
def Tenant.stepWrite (g : Geo) (t : Tenant) (e master : Nat) (viol : Option Addr)
    (ws : List (Addr × Byte)) : Tenant :=
  let t := t.pokeAll g e (ws.filter fun w => isWritableRam w.1.toNat)
  match viol, ws.find? (fun w => !isWritableRam w.1.toNat) with
  | some a, _ => t.violate a false master
  | none, some w => t.violate w.1 true master
  | none, none => t

end Sys2Proof.Machine
end

