-- ==== Sys2Proof/Machine/Blitter.lean ====
section
/-! DEFINITION. Blitter trails (R235 to R244): the entry, its checks, its cost, when it begins, and
what a command reads and writes at its last cycle. -/

namespace Sys2Proof.Machine

/-- A trail entry (R235). -/
structure TEntry where
  op : Nat
  bpp8 : Bool
  sodd : Bool
  dodd : Bool
  arg : Byte
  w : Nat
  h : Nat
  src : Addr
  dst : Addr
  spitch : Nat
  dpitch : Nat
  raw : BitVec 128
deriving DecidableEq, Repr

/-- The fields of an entry's 16 bytes (R235). -/
def TEntry.ofBytes (b : BitVec 128) : TEntry :=
  { op := (b.extractLsb' 0 4).toNat, bpp8 := b.getLsbD 4, sodd := b.getLsbD 5, dodd := b.getLsbD 6
    arg := b.extractLsb' 8 8, w := (b.extractLsb' 16 11).toNat, h := (b.extractLsb' 32 11).toNat
    src := b.extractLsb' 48 24, dst := b.extractLsb' 72 24
    spitch := (b.extractLsb' 96 16).toNat, dpitch := (b.extractLsb' 112 16).toNat, raw := b }

/-- COPY, FILL, COPYKEY or XFORM. -/
def TEntry.isRect (x : TEntry) : Bool := 1 ≤ x.op && x.op ≤ 4

/-- A rectangle command with a source. -/
def TEntry.hasSrc (x : TEntry) : Bool := x.op == 1 || x.op == 3 || x.op == 4

/-- The bits of an entry that its command uses (R235): all others must be 0. -/
def TEntry.used (x : TEntry) : BitVec 128 :=
  let m (lo len : Nat) : BitVec 128 := BitVec.ofNat 128 ((2 ^ len - 1) * 2 ^ lo)
  let op := m 0 4
  let rect := m 4 1 ||| m 16 11 ||| m 32 11 ||| m 72 24 ||| m 112 16
    ||| (if x.bpp8 then 0 else m 6 1)
  let source := m 48 24 ||| m 96 16 ||| (if x.bpp8 then 0 else m 5 1)
  match x.op with
  | 1 => op ||| rect ||| source
  | 2 => op ||| rect ||| m 8 8
  | 3 => op ||| rect ||| source ||| m 8 8
  | 4 => op ||| rect ||| source ||| m 8 5
  | 5 => op ||| m 48 24
  | 6 => op ||| m 16 10
  | 7 => op ||| m 8 3
  | _ => op

/-- Whether 16 bytes from an address lie in work RAM and video RAM (R237). -/
def trailRegion (a : Addr) : Bool := a.toNat + 16 ≤ 0xC000

/-- How an entry stops the trail, if it does (R237): 3 for BAD_OP, 4 for BAD_ENTRY (the bit of
BLT.STAT). `a` is the entry's own address. -/
def TEntry.stop (g : Geo) (a : Addr) (x : TEntry) : Option Nat :=
  if !trailRegion a then some 4
  else if 8 ≤ x.op then some 3
  else if x.raw &&& ~~~x.used != 0 then some 3
  else if x.isRect && !(1 ≤ x.w && x.w ≤ 1024 && 1 ≤ x.h && x.h ≤ 1024) then some 3
  else if x.op = 6 && g.lines ≤ x.w then some 3
  else if x.op = 5 && !trailRegion x.src then some 4
  else none

/-- Width and height of the destination (R240). -/
def TEntry.dstDims (x : TEntry) : Nat × Nat :=
  if x.op = 4 && x.arg.toNat % 2 = 1 then (x.h, x.w) else (x.w, x.h)

/-- Bytes of one row (R241). -/
def TEntry.rowBytes (x : TEntry) (width : Nat) (odd : Bool) : Nat :=
  if x.bpp8 then width else ceilDiv (width + odd.toNat) 2

/-- Whether two byte ranges (start, length) meet, modulo 2²⁴. -/
def rangesMeet (a : Addr) (la : Nat) (b : Addr) (lb : Nat) : Bool :=
  (b - a).toNat < la || (a - b).toNat < lb

/-- Whether source and destination footprints intersect (R241). -/
def TEntry.overlaps (x : TEntry) : Bool :=
  let (dw, dh) := x.dstDims
  x.hasSrc && rangesMeet x.src ((x.h - 1) * x.spitch + x.rowBytes x.w x.sodd)
    x.dst ((dh - 1) * x.dpitch + x.rowBytes dw x.dodd)

/-- N of R236. -/
def TEntry.pixels (x : TEntry) : Nat := x.w * x.h

/-- Whether the command is performed although it overlaps only because of the staging buffer (R241). -/
def TEntry.staged (x : TEntry) : Bool :=
  x.overlaps && !(x.op != 4 && x.spitch == x.dpitch) && x.pixels ≤ 4096

/-- Whether the command is skipped (R241). -/
def TEntry.skipped (x : TEntry) : Bool :=
  x.overlaps && !(x.op != 4 && x.spitch == x.dpitch) && !(x.pixels ≤ 4096)

/-- The first cycle at or after `s` that begins line `n` of a frame (R239). -/
def Geo.lineFrom (g : Geo) (s n : Nat) : Nat :=
  let l := ceilDiv s g.cpl
  (l + (n + g.lines - l % g.lines) % g.lines) * g.cpl

/-- The last cycle of a step that begins at cycle `s` (R236, R237, R239, R241). -/
def TEntry.lastCycle (g : Geo) (a : Addr) (x : TEntry) (s : Nat) : Nat :=
  if (x.stop g a).isSome then s + 7
  else if x.isRect && !x.skipped then s + 7 + ceilDiv x.pixels 4
  else if x.op = 6 then max (s + 7) (g.lineFrom s x.w - 1)
  else s + 7

/-- Whether a command takes pixels from the quota (R242). -/
def TEntry.draws (g : Geo) (a : Addr) (x : TEntry) : Bool :=
  (x.stop g a).isNone && x.isRect && !x.skipped

/-- The entry of the trail's step is sampled at the cycle at which the step was to begin (R243); the
command begins there, or is deferred while the balance is 0 or less (R242). -/
def Tenant.sampleTrail (g : Geo) (t : Tenant) : Tenant :=
  match t.core.trail with
  | none => t
  | some tr =>
    if tr.bytes.isSome then t
    else
      let s := tr.sampleAt
      let raw : BitVec 128 := leVec 128 ((addrs tr.entry 16).map fun a => t.core.ramAt s a.toNat)
      let x := TEntry.ofBytes raw
      let t := t.setFld F.BLT_ENTRY_ENTRY tr.entry.toNat
      if x.draws g tr.entry && t.core.bal ≤ 0 then
        let t := t.count F.BLT_QUOTA_WAITS_COUNT
        { t with core := { t.core with trail := some { tr with bytes := some raw, first := s, deferred := true } } }
      else
        { t with core := { t.core with
            bal := if x.draws g tr.entry then t.core.bal - x.pixels else t.core.bal
            trail := some { tr with bytes := some raw, first := s, deferred := false } } }

/-- The refill of the pixel balance at a line start at cycle `e`, and the start of a deferred command
(R242). -/
def Tenant.refillQuota (g : Geo) (t : Tenant) (e : Nat) : Tenant :=
  let p : Int := t.ppl g
  let bal := min (t.core.bal + p) p
  let c := { t.core with bal := bal }
  match c.trail with
  | some tr =>
    if tr.deferred && 0 < bal then
      let x := TEntry.ofBytes (tr.bytes.getD 0)
      { t with core := { c with bal := bal - x.pixels, trail := some { tr with first := e, deferred := false } } }
    else { t with core := c }
  | none => { t with core := c }

/-- The last cycle of the trail's step in progress, once its entry is sampled and it has begun. -/
def Core.trailDue (g : Geo) (c : Core) : Option Nat :=
  match c.trail with
  | some tr =>
    match tr.bytes with
    | some b => if tr.deferred then none else some ((TEntry.ofBytes b).lastCycle g tr.entry tr.first)
    | none => none
  | none => none

/-- The byte address of pixel `x` of row `r` of a rectangle, and whether it is a high nibble (R238). -/
def pixelAddr (bpp8 odd : Bool) (base : Addr) (pitch x r : Nat) : Addr × Bool :=
  if bpp8 then (base + BitVec.ofNat 24 (r * pitch + x), false)
  else
    let q := x + odd.toNat
    (base + BitVec.ofNat 24 (r * pitch + q / 2), q % 2 == 1)

/-- The pixel value in a byte. -/
def pixelOf (bpp8 high : Bool) (b : Byte) : Nat :=
  if bpp8 then b.toNat else if high then b.toNat / 16 else b.toNat % 16

/-- A byte with a pixel set. -/
def withPixel (bpp8 high : Bool) (v : Nat) (b : Byte) : Byte :=
  if bpp8 then BitVec.ofNat 8 v
  else if high then BitVec.ofNat 8 (b.toNat % 16 + 16 * (v % 16))
  else BitVec.ofNat 8 (b.toNat / 16 * 16 + v % 16)

/-- The destination pixel of source pixel (`sx`, `sy`) (R240). Other commands copy in place. -/
def TEntry.target (x : TEntry) (sx sy : Nat) : Nat × Nat :=
  if x.op = 4 then
    let mx := if x.arg.getLsbD 2 then x.w - 1 - sx else sx
    let my := if x.arg.getLsbD 3 then x.h - 1 - sy else sy
    match x.arg.toNat % 4 with
    | 0 => (mx, my)
    | 1 => (x.h - 1 - my, mx)
    | 2 => (x.w - 1 - mx, x.h - 1 - my)
    | _ => (my, x.w - 1 - mx)
  else (sx, sy)

/-- Whether a source pixel of value `v` is written (COPYKEY's key, XFORM's KEY0). -/
def TEntry.writes (x : TEntry) (v : Nat) : Bool :=
  match x.op with
  | 3 => v != (if x.bpp8 then x.arg.toNat else x.arg.toNat % 16)
  | 4 => !(x.arg.getLsbD 4 && v == 0)
  | _ => true

/-- The pixels of a rectangle, row by row. -/
def rect (w h : Nat) : List (Nat × Nat) :=
  (List.range h).flatMap fun y => (List.range w).map fun x => (x, y)

/-- The pixel writes of a rectangle command at cycle `e`: destination address, nibble, value (R236,
R238, R240). -/
def TEntry.pixelWrites (g : Geo) (t : Tenant) (e : Nat) (x : TEntry) : List (Addr × Bool × Nat) :=
  (rect x.w x.h).filterMap fun (sx, sy) =>
    let v :=
      if x.hasSrc then
        let (a, hi) := pixelAddr x.bpp8 x.sodd x.src x.spitch sx sy
        pixelOf x.bpp8 hi ((t.readByte g e a).getD 0)
      else if x.bpp8 then x.arg.toNat else x.arg.toNat % 16
    if x.writes v then
      let (dx, dy) := x.target sx sy
      let (a, hi) := pixelAddr x.bpp8 x.dodd x.dst x.dpitch dx dy
      some (a, hi, v)
    else none

/-- Pixel writes as byte writes in the same order; nibbles beside keep their values (R238). -/
def mergePixels (bpp8 : Bool) (old : Addr → Byte) (ps : List (Addr × Bool × Nat)) :
    List (Addr × Byte) :=
  (ps.foldl (fun (acc : Store Byte × List (Addr × Byte)) p =>
    let cur := (Store.find? acc.1 p.1.toNat).getD (old p.1)
    let b := withPixel bpp8 p.2.1 p.2.2 cur
    (Store.put acc.1 p.1.toNat b, (p.1, b) :: acc.2)) ([], [])).2.reverse

/-- A rectangle command performed at its last cycle `e` (R230, R233, R236). DESIGN CHOICE (log entry 130): the nibble
beside a 4 bpp pixel is the one of before cycle `e`, whatever else is written in that cycle. -/
def Tenant.drawRect (g : Geo) (t : Tenant) (e : Nat) (x : TEntry) : Tenant :=
  let ps := x.pixelWrites g t e
  let ws := mergePixels x.bpp8 (fun a => t.core.ramAt e a.toNat) ps
  let bad := if x.hasSrc then
      ((rect x.w x.h).map fun (sx, sy) => (pixelAddr x.bpp8 x.sodd x.src x.spitch sx sy).1).find?
        (fun a => (t.readByte g e a).isNone)
    else none
  (t.stepWrite g e 2 bad ws).countN F.BLT_PIXELS_COUNT ps.length

/-- The trail after a step that ended at cycle `e`, with its next entry at `a`. -/
def Tenant.nextEntry (t : Tenant) (e : Nat) (a : Addr) : Tenant :=
  match t.core.trail with
  | some tr =>
    { t with core := { t.core with trail := some ⟨a, none, e + 1, e + 1, false, true, tr.tag⟩ } }
  | none => t

/-- The items that a FENCE waits for, changed. -/
def Core.onFence (c : Core) (h : Fence → Fence) : Core :=
  { c with cpu := { c.cpu with fence := c.cpu.fence.map h } }

/-- The trail ends: BUSY clears. -/
def Tenant.endTrail (t : Tenant) : Tenant :=
  { t with core := { t.core with trail := none }.onFence fun f => { f with trail := false } }

/-- A rectangle command's step at its last cycle `e`: performed, or skipped with its status (R241). -/
def Tenant.rectStep (g : Geo) (t : Tenant) (e : Nat) (a : Addr) (x : TEntry) : Tenant :=
  if x.skipped then
    ((t.hwSet e (if x.op = 4 then F.BLT_STAT_OVERLAP_XFORM else F.BLT_STAT_OVERLAP_PITCH) 1).count
      F.BLT_SKIPS_COUNT).nextEntry e (a + 16)
  else ((t.drawRect g e x).count F.BLT_COMMANDS_COUNT).nextEntry e (a + 16)

end Sys2Proof.Machine
end

