-- ==== Sys2Proof/Machine/Sound.lean ====
section
/-! DEFINITION. The sound unit (R208 to R221): voices, the mix chain, the filter, the delay and the
limiters, up to the output sample of one audio tick. Shifts written >> in the spec are divisions
that round towards minus infinity. -/

namespace Sys2Proof.Machine

/-- A signed value clamped to `n` bits (sat16, sat24, R215). -/
def satS (n : Nat) (x : Int) : Int := max (-(2 : Int) ^ (n - 1)) (min ((2 : Int) ^ (n - 1) - 1) x)

/-- Whether a clamp to `n` bits changes a value. -/
def clips (n : Nat) (x : Int) : Bool := satS n x != x

/-- The sum of two pairs. -/
def Pair.add (a b : Pair) : Pair := ⟨a.l + b.l, a.r + b.r⟩

/-- A function of both channels. -/
def Pair.map (f : Int → Int) (a : Pair) : Pair := ⟨f a.l, f a.r⟩

/-- The largest magnitude of both channels. -/
def Pair.peak (a : Pair) : Nat := max a.l.natAbs a.r.natAbs

/-- A voice table entry as its 16 bytes (R210). -/
def Tenant.voiceEntry (t : Tenant) (e v : Nat) : BitVec 128 :=
  leVec 128 ((List.range 16).map fun i =>
    t.core.ramAt e (0xC000 + 256 * t.fld F.SND_VTAB_VTAB + 16 * v + i))

/-- INC of a voice (R211). -/
def voiceInc (b : BitVec 128) : Nat := (b.extractLsb' 32 13).toNat * 2 ^ ((b.extractLsb' 45 3).toNat + 4)

/-- One step of the noise register (R211). DESIGN CHOICE (log entry 129): bits 7 to 15 become 0 at the first step after
SHORT reads 1. -/
def lfsrStep (short : Bool) (l : Half) : Half :=
  if short then
    let x := l &&& 0x7F
    let x := if x = 0 then 1 else x
    if x.getLsbD 0 then (x >>> 1) ^^^ 0x60 else x >>> 1
  else if l.getLsbD 0 then (l >>> 1) ^^^ 0xB400 else l >>> 1

/-- Whether a PCM voice may read an address (R212). -/
def Geo.pcmReadable (g : Geo) (a : Nat) : Bool :=
  a < 0xE000 || (0x10000 ≤ a && a < 0x12000) || g.isCart a

/-- The PCM position after an advance: the integer part reduced by the loop, and whether the voice
ends (R211). -/
def pcmWrap (loop : Bool) (length ofs i : Nat) : Nat × Bool :=
  if i < length then (i, false)
  else if loop then
    let p := length - (if length ≤ ofs then 0 else ofs)
    (i - ceilDiv (i - length + 1) p * p, false)
  else (i, true)

/-- What an active voice does at a tick: its value, its next state, whether it ends, and whether its
PCM read was void (R211, R212). -/
def voiceStep (g : Geo) (t : Tenant) (e : Nat) (b : BitVec 128) (x : Voice) : Int × Voice × Bool × Bool :=
  let inc := voiceInc b
  let ph := x.ph.toNat + inc
  let ph' : BitVec 24 := BitVec.ofNat 24 ph
  let u : Int := (x.ph.toNat / 65536 : Nat)
  match (b.extractLsb' 0 2).toNat with
  | 0 => (if u < (b.extractLsb' 24 8).toNat then 127 else -127, { x with ph := ph' }, false, false)
  | 1 => (if u < 128 then 2 * u - 128 else 383 - 2 * u, { x with ph := ph' }, false, false)
  | 2 => (if x.lfsr.getLsbD 0 then 127 else -127,
      { x with ph := ph', lfsr := if 2 ^ 24 ≤ ph then lfsrStep (b.getLsbD 4) x.lfsr else x.lfsr }, false, false)
  | _ =>
    let a := x.start + BitVec.ofNat 24 x.i
    let ok := g.pcmReadable a.toNat
    let s : Byte := if ok then (t.readByte g e a).getD 0 else 0
    let p := x.i * 65536 + x.frac.toNat + inc
    let len := (b.extractLsb' 72 16).toNat
    let (i, ends) := pcmWrap (b.getLsbD 3) (if len = 0 then 65536 else len)
      (b.extractLsb' 88 16).toNat (p / 65536)
    (s.toInt, { x with i := i, frac := BitVec.ofNat 16 p, active := x.active && !ends }, ends, !ok)

/-- What the voices of one tick give: the two buses, the voices, the ended ones, the void reads. -/
structure VoiceMix where
  dry : Pair
  fx : Pair
  voices : Store Voice
  ended : Nat
  void : Nat
deriving DecidableEq, Repr

/-- The voice's product panned to both channels (R215). -/
def panned (b : BitVec 128) (s : Int) : Pair :=
  let p := s * ((b.extractLsb' 8 8).toNat : Int)
  let pan : Int := (min 16 (b.extractLsb' 16 5).toNat : Nat)
  ⟨p * (16 - pan) / 16, p * pan / 16⟩

/-- All voices at a tick at cycle `e` (R211, R215). -/
def Tenant.mixVoices (g : Geo) (t : Tenant) (e : Nat) (vs : Store Voice) : VoiceMix :=
  (List.range 16).foldl (fun m v =>
    let x := Store.get Voice.reset m.voices v
    if x.active then
      let b := t.voiceEntry e v
      let (s, x', ends, void) := voiceStep g t e b x
      let p := panned b s
      { dry := m.dry.add p, fx := if b.getLsbD 2 then m.fx.add p else m.fx
        voices := Store.put m.voices v x'
        ended := if ends then m.ended + 2 ^ v else m.ended
        void := if void then m.void + 1 else m.void }
    else m) ⟨⟨0, 0⟩, ⟨0, 0⟩, vs, 0, 0⟩

/-- The pending key changes applied (R213). -/
def Tenant.applyKeys (t : Tenant) (e : Nat) : Store Voice :=
  let s := t.core.snd
  (List.range 16).foldl (fun vs v =>
    let x := Store.get Voice.reset vs v
    let x := if s.keyOff.getLsbD v then { x with active := false } else x
    if s.keyOn.getLsbD v then
      Store.put vs v ⟨true, 0, 0, 0, 1, (t.voiceEntry e v).extractLsb' 48 24⟩
    else if s.keyOff.getLsbD v then Store.put vs v x else vs) s.voices

/-- The gain that brings a peak to the threshold (R218). -/
def limTarget (th p : Nat) : Nat := if p ≤ th then 32768 else th * 32768 / p

/-- A limiter's gain and output for one sample over its window (R218). -/
def limit (th attack release gain : Nat) (x : Pair) (window : List Pair) : Nat × Pair :=
  let tWin := limTarget th (window.foldl (fun m p => max m p.peak) 0)
  let tNow := limTarget th x.peak
  let gain := if tWin < gain then (if attack = 0 then tWin else max tWin (gain - attack))
    else min tWin (gain + release)
  let gain := min gain tNow
  (gain, x.map fun v => satS 16 (v * gain / 32768))

/-- One filter step of a channel: output, y1, y2, and whether a sat24 clamps (R216). -/
def filterStep (on : Bool) (k q : Nat) (y1 y2 x : Int) : Int × Int × Int × Bool :=
  if on then
    let u0 := x - y2 * q / 256
    let u := satS 24 u0
    let a0 := y1 + (u - y1) * k / 65536
    let a := satS 24 a0
    let b0 := y2 + (a - y2) * k / 65536
    let b := satS 24 b0
    (b, a, b, clips 24 u0 || clips 24 a0 || clips 24 b0)
  else (x, x, x, false)

/-- The mixer parameters in use at a tick (R221). -/
structure MixSet where
  mainVol : Nat
  fastVol : Nat
  filtOn : Bool
  k : Nat
  q : Nat
  dlyLen : Nat
  dlyBase : Nat
  dlyFb : Nat
  dlyWet : Nat
  th : Nat
  attack : Nat
  release : Nat
deriving DecidableEq, Repr

/-- TH, and the derived RELEASE, of LIM_TH and LIM_REL (R221). -/
def limTh (limTh : Nat) : Nat := limTh * 128 + 127
def derivedRelease (rel : Nat) : Nat := max 1 (32768 / (240 * 2 ^ rel))

/-- The parameters of set `b` (0 for A, 1 for B), derived or expert (R221). -/
def Tenant.mixSet (t : Tenant) (b : Nat) : MixSet :=
  let expert := t.bit ⟨0x6008 / 4, 1, 1⟩
  { mainVol := t.fld (F.MIX_MAIN_VOL_MAIN_VOL b), fastVol := t.fld (F.MIX_FAST_VOL_FAST_VOL b)
    filtOn := t.bit (F.MIX_RESO_FILT_ON b)
    k := if expert then t.fld (F.MIX_FILT_K_FILT_K b) else t.fld (F.MIX_FILT_CUT_FILT_CUT b) * 256 + 255
    q := if expert then t.fld (F.MIX_FILT_Q_FILT_Q b) else t.fld (F.MIX_RESO_RESO b) * 12
    dlyLen := min 2048 (t.fld (F.MIX_DLY_LEN_DLY_LEN b)), dlyBase := 4 * t.fld (F.MIX_DLY_BASE_DLY_BASE b)
    dlyFb := t.fld (F.MIX_DLY_FB_DLY_FB b), dlyWet := t.fld (F.MIX_DLY_WET_DLY_WET b)
    th := limTh (t.fld (F.MIX_LIM_TH_LIM_TH b))
    attack := if expert then t.fld (F.MIX_ATTACK_ATTACK b) else 683
    release := if expert then t.fld (F.MIX_RELEASE_RELEASE b)
      else derivedRelease (t.fld (F.MIX_LIM_REL_LIM_REL b)) }

/-- A pending set swap takes effect at a tick (R220); DPOS returns to 0 when it changes the delay
line (R217). -/
def Tenant.mixSwap (t : Tenant) : Tenant :=
  if t.bit F.MIX_STATUS_SWAP_PENDING then
    let b := t.bit F.MIX_STATUS_ACTIVE_B
    let o := t.fld (F.MIX_DLY_LEN_DLY_LEN b.toNat)
    let n := t.fld (F.MIX_DLY_LEN_DLY_LEN (!b).toNat)
    let ob := t.fld (F.MIX_DLY_BASE_DLY_BASE b.toNat)
    let nb := t.fld (F.MIX_DLY_BASE_DLY_BASE (!b).toNat)
    let t := (t.setBit F.MIX_STATUS_ACTIVE_B !b).setBit F.MIX_STATUS_SWAP_PENDING false
    if o = n && ob = nb then t
    else { t with core := { t.core with snd := { t.core.snd with dpos := 0 } } }
  else t

/-- The address of byte `i` of delay pair `j` (R217). -/
def delayAddr (base j i : Nat) : Addr := BitVec.ofNat 24 (0xC000 + (base + 4 * j) % 0x2000 + i)

/-- The delay line at a tick at cycle `e` (R217): its return, the tenant with the pair written, and
whether a sat16 clamps. -/
def Tenant.delayStep (g : Geo) (t : Tenant) (e : Nat) (m : MixSet) (fx : Pair) : Pair × Tenant × Bool :=
  if m.dlyLen = 0 then (⟨0, 0⟩, t, false)
  else
    let j := t.core.snd.dpos
    let rd (i : Nat) : Int := (leVec 16 [t.core.ramAt e (delayAddr m.dlyBase j i).toNat,
      t.core.ramAt e (delayAddr m.dlyBase j (i + 1)).toNat]).toInt
    let d : Pair := ⟨rd 0, rd 2⟩
    let n : Pair := fx.add (d.map fun v => v * m.dlyFb / 256)
    let wl := leBytes 2 (BitVec.ofInt 16 (satS 16 n.l))
    let wr := leBytes 2 (BitVec.ofInt 16 (satS 16 n.r))
    let ws := (List.range 4).zip (wl ++ wr) |>.map fun (i, v) => (delayAddr m.dlyBase j i, v)
    let t := t.pokeAll g e ws
    let t := { t with core := { t.core with snd := { t.core.snd with dpos := (j + 1) % m.dlyLen } } }
    (d.map fun v => v * m.dlyWet / 256, t, clips 16 n.l || clips 16 n.r)

/-- The audio tick at cycle `e` (R208): swap, key changes, voices, mix, limiters, one output sample
per path, and the DMA requests of the tick (R247). -/
def Tenant.tickStep (g : Geo) (t : Tenant) (e : Nat) : Tenant :=
  let t := t.mixSwap
  let b := (t.bit F.MIX_STATUS_ACTIVE_B).toNat
  let m := t.mixSet b
  let en := t.bit ⟨0x5008 / 4, 0, 1⟩
  let mixEn := t.bit ⟨0x6008 / 4, 0, 1⟩
  let s := t.core.snd
  let vs := if en then t.applyKeys e else s.voices
  let mix := if en then t.mixVoices g e vs else ⟨⟨0, 0⟩, ⟨0, 0⟩, vs, 0, 0⟩
  let t := { t with core := { t.core with snd := { s with
      voices := mix.voices, keyOn := if en then 0 else s.keyOn, keyOff := if en then 0 else s.keyOff } } }
  let t := if mix.ended = 0 then t else t.hwSet e F.SND_VEND_VEND mix.ended
  let t := (t.countN F.SND_VOICE_ENDS_COUNT ((List.range 16).countP fun v => mix.ended / 2 ^ v % 2 == 1)).countN
    F.SND_PCM_VOID_COUNT mix.void
  let in0 := mix.dry.map fun v => v * m.mainVol / 128
  let inp := in0.map (satS 24)
  let (fl, y1l, y2l, c1) := filterStep m.filtOn m.k m.q s.y1.l s.y2.l inp.l
  let (fr, y1r, y2r, c2) := filterStep m.filtOn m.k m.q s.y1.r s.y2.r inp.r
  let (ret, t, c3) := t.delayStep g e m mix.fx
  let pre0 : Pair := ⟨fl + ret.l, fr + ret.r⟩
  let pre := pre0.map (satS 24)
  let fast0 := mix.dry.map fun v => v * m.fastVol / 128
  let fastPre := fast0.map (satS 24)
  let clip := clips 24 in0.l || clips 24 in0.r || c1 || c2 || c3 || clips 24 pre0.l || clips 24 pre0.r
    || clips 24 fast0.l || clips 24 fast0.r
  let t := if clip then t.count F.MIX_SAT_SAMPLES_COUNT else t
  let g0 := t.fld F.MIX_MAIN_GAIN_GAIN
  let f0 := t.fld F.MIX_FAST_GAIN_GAIN
  let (mg, mo) := match s.pre with
    | x :: _ => if s.pre.length = 49 then limit m.th m.attack m.release g0 x s.pre else (g0, ⟨0, 0⟩)
    | [] => (g0, ⟨0, 0⟩)
  let (fg, fo) := if s.ticks = 0 then (f0, ⟨0, 0⟩)
    else limit m.th m.attack m.release f0 s.fastPre [s.fastPre]
  let t := ((t.setFld F.MIX_MAIN_GAIN_GAIN mg).setFld F.MIX_FAST_GAIN_GAIN fg).setBit F.MIX_STATUS_LIMITING
    (mg < 32768)
  let t := if mixEn && mg < 32768 then t.count F.MIX_LIM_SAMPLES_COUNT else t
  let o : OutSample := if mixEn then ⟨s.ticks, mo, fo⟩ else ⟨s.ticks, ⟨0, 0⟩, ⟨0, 0⟩⟩
  let t := { t with core := { t.core with snd := { t.core.snd with
      y1 := ⟨y1l, y1r⟩, y2 := ⟨y2l, y2r⟩
      pre := (if s.pre.length = 49 then s.pre.drop 1 else s.pre) ++ [pre]
      fastPre := fastPre, ticks := s.ticks + 1, out := t.core.snd.out ++ [o] } } }
  t.dmaEvent 4 e

end Sys2Proof.Machine
end

