-- ==== Sys2Proof/Machine/Dma.lean ====
section
/-! DEFINITION. Quick DMA transfers (R245) and the bursts of sector DMA items (R246 to R250) in tenant
time. -/

namespace Sys2Proof.Machine

/-- The last cycle of a quick DMA transfer (R245). -/
def Qdm.last (q : Qdm) : Nat := q.first + 3 + ceilDiv q.len 8

/-- The quick DMA step at its last cycle `e` (R230, R245). -/
def Tenant.qdmStep (g : Geo) (t : Tenant) (e : Nat) : Tenant :=
  match t.core.qdm with
  | none => t
  | some q =>
    let vs := (addrs q.src q.len).map fun a => (t.readByte g e a).getD 0
    let t := t.stepWrite g e 3 none ((addrs q.dst q.len).zip vs)
    let t := (t.hwSet e F.QDM_STAT_DONE 1).count F.QDM_TRANSFERS_COUNT
    { t with core := { t.core with qdm := none }.onFence fun f => { f with qdm := false } }

/-- Bytes per element (R246). -/
def DmaItem.esize (i : DmaItem) : Nat := 2 ^ (i.cfg.toNat % 4)

/-- GATHER and IW24 of an item (R246). -/
def DmaItem.gather (i : DmaItem) : Bool := i.cfg.getLsbD 2
def DmaItem.iw24 (i : DmaItem) : Bool := i.cfg.getLsbD 3

/-- The cost of a burst of `n` elements (R247). -/
def DmaItem.cost (i : DmaItem) (n : Nat) : Nat :=
  4 + ceilDiv (n * i.esize) 8 + (if i.gather then n else 0)

/-- The last cycle of the burst in progress. -/
def DmaItem.due (i : DmaItem) : Option Nat := i.busy.map fun (b, n) => b + i.cost n - 1

/-- The index bytes of element `k` (R246). -/
def DmaItem.indexAddrs (i : DmaItem) (k : Nat) : List Addr :=
  if i.gather then
    let n := if i.iw24 then 3 else 2
    addrs (i.index + BitVec.ofNat 24 (k * n)) n
  else []

/-- A byte as a sector DMA read at cycle `e` returns it: forbidden bytes and the window beyond the
image read zero. -/
def Tenant.dmaByte (g : Geo) (t : Tenant) (e : Nat) (a : Addr) : Byte := (t.readByte g e a).getD 0

/-- The source bytes of element `k`, its index read at cycle `e` (R246). -/
def Tenant.srcAddrs (g : Geo) (t : Tenant) (e : Nat) (i : DmaItem) (k : Nat) : List Addr :=
  let o := if i.gather then leNat ((i.indexAddrs k).map (t.dmaByte g e)) else k
  addrs (i.src + BitVec.ofNat 24 (o * i.esize)) i.esize

/-- The destination bytes of element `k`. -/
def DmaItem.dstAddrs (i : DmaItem) (k : Nat) : List Addr :=
  addrs (i.dst + BitVec.ofNat 24 (k * i.esize)) i.esize

/-- The bytes that the burst in progress reads, index bytes first for each element. -/
def Tenant.burstReads (g : Geo) (t : Tenant) (e : Nat) (i : DmaItem) : List Addr :=
  match i.busy with
  | some (_, n) => (List.range n).flatMap fun k =>
      i.indexAddrs (i.next + k) ++ t.srcAddrs g e i (i.next + k)
  | none => []

/-- Whether an address lies in the cartridge window beyond the backed image (R248). -/
def Geo.beyondImage (g : Geo) (a : Addr) : Bool := 0x20000 ≤ a.toNat && !g.isCart a.toNat

/-- Whether the burst in progress meets a bus error by its own addresses (R248). -/
def Tenant.burstBusError (g : Geo) (t : Tenant) (e : Nat) (i : DmaItem) : Bool :=
  (t.burstReads g e i).any g.beyondImage

/-- Whether the burst in progress reads HBM: a byte of the cartridge image, which lies in the critical region. -/
def Tenant.burstReadsHbm (g : Geo) (t : Tenant) (e : Nat) (i : DmaItem) : Bool :=
  (t.burstReads g e i).any fun a => g.isCart a.toNat

/-- What follows a burst that ended at cycle `e` (R247): the item completes, or a further burst begins
on a request, held or still to come. -/
def Tenant.afterBurst (g : Geo) (t : Tenant) (c e : Nat) (i : DmaItem) : Tenant :=
  if i.count ≤ i.next then
    let t := (t.hwSet e (F.DMA_STAT_DONE c) 1).count F.DMA_ITEMS_COUNT
    let t := if i.terminated then (t.hwSet e (F.DMA_STAT_DMA_FAULT c) 1).count F.DMA_FAULTS_COUNT else t
    let core := t.core.setDma c none
    { t with core := core.onFence fun f => if c = 0 then { f with dma0 := false } else { f with dma1 := false } }
  else
    let i := { i with busy := none }
    let i :=
      if i.req = 0 then { i with busy := some (e + 1, i.nextBurst) }
      else if 0 < i.pend then { i with pend := i.pend - 1, busy := some (e + 1, i.nextBurst) }
      else match i.later with
        | some r => i.awaitVis g r
        | none => i
    { t with core := t.core.setDma c (some i) }

/-- The burst in progress of channel `c` at its last cycle `e` (R230, R247, R250). -/
def Tenant.burstStep (g : Geo) (t : Tenant) (c e : Nat) : Tenant :=
  match t.core.dma c with
  | none => t
  | some i =>
    match i.busy with
    | none => t
    | some (_, n) =>
      let ks := (List.range n).map (i.next + ·)
      let vs := ks.flatMap fun k =>
        if i.terminated then List.replicate i.esize 0 else (t.srcAddrs g e i k).map (t.dmaByte g e)
      let bad := if i.terminated then none
        else (t.burstReads g e i).find? fun a => (t.readByte g e a).isNone
      let t := t.stepWrite g e 4 bad ((ks.flatMap i.dstAddrs).zip vs)
      let t := t.count F.DMA_BURSTS_COUNT
      let i := { i with next := i.next + n }
      let t := t.setFld (F.DMA_DONE_ELEMS_MOVED c) i.next
      t.afterBurst g c e i

/-- The requests that a line start at cycle `e` brings (R247): cycle 0 of every line, cycle 0 of line
VBLANK_START. Those of VIS_CYC are counted as their cycles pass. -/
def Tenant.lineRequests (g : Geo) (t : Tenant) (e : Nat) : Tenant :=
  let t := t.dmaEvent 1 e
  if g.frameLine e = g.vblank then t.dmaEvent 3 e else t

end Sys2Proof.Machine
end

