-- ==== Sys2Proof/Machine/Raster.lean ====
section
/-! DEFINITION. The raster list executor (R150 to R156), the line-match units (R160) and the sprite
evaluation (R137, R138, R140, R145). -/

namespace Sys2Proof.Machine

/-- Whether an entry is skipped when it is read: its line is out of range or it stands before its
predecessor (R155). -/
def REntry.skips (g : Geo) (r : Raster) (e : REntry) : Bool :=
  g.lines ≤ e.line || e.pos g r.frameLine < r.prev

/-- The cycle at which the entry read is performed or skipped. -/
def Core.rasterDue (g : Geo) (c : Core) : Option Nat :=
  match c.ras.entry with
  | some b =>
    let e := REntry.ofBytes b
    some (if e.skips g c.ras then c.ras.readAt else max c.ras.readAt (e.cycle g c.ras.frameLine))
  | none => none

/-- The list of this frame returns. -/
def Tenant.rasterStop (t : Tenant) : Tenant :=
  let t := t.setBit F.RAS_STATUS_ACTIVE false
  { t with core := { t.core with ras := { t.core.ras with entry := none } } }

/-- Entry `k` of the list is read at cycle `e` (R154, R155). -/
def Tenant.rasterRead (t : Tenant) (e k : Nat) : Tenant :=
  let r := t.core.ras
  if k < min r.len 1024 then
    let b := t.core.listBytes (t.core.ramAt e) k
    let t := t.setFld F.RAS_PTR_PTR (k + 1)
    if (REntry.ofBytes b).fin then t.rasterStop
    else { t with core := { t.core with ras := { r with entry := some b, readAt := e } } }
  else t.rasterStop

/-- The entry read is performed or skipped at cycle `e`, and the next one is read (R155). -/
def Tenant.rasterStep (g : Geo) (t : Tenant) (e : Nat) : Tenant :=
  match t.core.ras.entry with
  | none => t
  | some b =>
    let r := t.core.ras
    let x := REntry.ofBytes b
    let p := x.pos g r.frameLine
    let t :=
      if g.lines ≤ x.line then (t.hwSet e F.RAS_ERR_RANGE_SKIP 1).count F.RAS_SKIPS_COUNT
      else if p < r.prev then (t.hwSet e F.RAS_ERR_ORDER_SKIP 1).count F.RAS_SKIPS_COUNT
      else
        let t := { t with core := { t.core with ras := { r with prev := p } } }
        if x.valid then
          let t := { t with core := { t.core with
              rlog := (x.writes p).foldl (fun l w => insertWrite w l) t.core.rlog } }
          t.count F.RAS_ENTRIES_COUNT
        else (t.hwSet e F.RAS_ERR_BAD_TARGET 1).count F.RAS_SKIPS_COUNT
    t.rasterRead e (t.fld F.RAS_PTR_PTR)

/-- The sampling at cycle 0 of a frame, at cycle `e` and absolute line `l` (R150). -/
def Tenant.rasterSample (t : Tenant) (e l : Nat) : Tenant :=
  let en := t.bit ⟨0x4008 / 4, 0, 1⟩
  let len := t.fld F.RAS_LIST_LEN_LIST_LEN
  let runs := en && len != 0
  let t := (t.setFld F.RAS_PTR_PTR 0).setBit F.RAS_STATUS_ACTIVE runs
  let r : Raster := ⟨en, 8 * t.fld F.RAS_LIST_BASE_LIST_BASE, len, none, e, posOf l 0, l⟩
  let t := { t with core := { t.core with ras := r } }
  if runs then t.rasterRead e 0 else t

/-! Line match. -/

/-- The first cycle not yet judged by line-match unit `k`. -/
def Core.lmFrom (c : Core) : Nat → Nat
  | 0 => c.lmFrom0
  | 1 => c.lmFrom1
  | 2 => c.lmFrom2
  | _ => c.lmFrom3

/-- Line-match unit `k` judged up to the cycle before `v`. -/
def Core.setLmFrom (c : Core) (k v : Nat) : Core :=
  match k with
  | 0 => { c with lmFrom0 := v }
  | 1 => { c with lmFrom1 := v }
  | 2 => { c with lmFrom2 := v }
  | _ => { c with lmFrom3 := v }

/-- The cycle of the next match of unit `k` (R160). -/
def Tenant.matchDue (g : Geo) (t : Tenant) (k : Nat) : Option Nat :=
  let cyc := t.fld (F.RAS_LM_CYC_CYC k)
  let line := t.fld (F.RAS_LM_LINE_LINE k)
  let lo := t.core.lmFrom k - cyc
  if !t.bit (F.RAS_LM_LINE_EN k) || g.cpl ≤ cyc then none
  else if t.bit (F.RAS_LM_LINE_EVERY k) then some (ceilDiv lo g.cpl * g.cpl + cyc)
  else if g.lines ≤ line then none
  else some (g.lineFrom lo line + cyc)

/-- Line-match unit `k` matches at cycle `e` (R160, R161) and makes its DMA request (R247). -/
def Tenant.matchStep (t : Tenant) (e k : Nat) : Tenant :=
  let t := t.hwSet e F.RAS_LM_PEND_PEND (2 ^ k)
  let t := { t with core := t.core.setLmFrom k (e + 1) }
  t.dmaEvent (9 + k) e

/-! Sprites. -/

/-- The sprite attribute table as of now: what the evaluation of the line that begins reads (R145). -/
def Core.satNow (c : Core) : Memory :=
  let m := c.mem.filter fun e => 0xE000 ≤ e.1 && e.1 < 0xE800
  c.cpu.rs.foldl (fun m e => [0, 1, 2].foldl (fun m i =>
    let a := (e.res + BitVec.ofNat 24 i).toNat
    if 0xE000 ≤ a && a < 0xE800 then memSet m a (byteOf e.ret i) else m) m) m

/-- The 8 bytes of sprite `s` in a table. -/
def spriteBytes (m : Memory) (s : Nat) : BitVec 64 := leVec 64 (memBytes m (0xE000 + 8 * s) 8)

/-- Y of a sprite, signed (R137). -/
def spriteY (b : BitVec 64) : Int := (b.extractLsb' 16 10).toInt

/-- Height of a sprite in lines (R137). -/
def spriteHeight (b : BitVec 64) : Nat := 8 * ((b.extractLsb' 26 3).toNat + 1)

/-- Whether a sprite is on canvas line `n` (R138). -/
def spriteOn (b : BitVec 64) (n : Nat) : Bool :=
  b.getLsbD 31 && decide (spriteY b ≤ n) && decide ((n : Int) < spriteY b + spriteHeight b)

/-- The evaluation of a canvas line (R140): the kept sprites and the number dropped. -/
def evaluateSprites (sat : Memory) (first limit n : Nat) : List (BitVec 64) × Nat :=
  let limit := if limit = 0 || 64 < limit then 64 else limit
  (List.range 256).foldl (fun (acc : List (BitVec 64) × Nat) k =>
    let b := spriteBytes sat ((first + k) % 256)
    if spriteOn b n then
      if acc.1.length < limit then (acc.1 ++ [b], acc.2) else (acc.1, acc.2 + 1)
    else acc) ([], 0)

/-- The next canvas line at or after absolute line `l`. -/
def Geo.canvasFrom (g : Geo) (l : Nat) : Nat :=
  if l % g.lines < g.h then l else l + (g.lines - l % g.lines)

/-- The cycle from which reads return the next evaluation's results: the one after c₀ (R149). -/
def Core.spriteDue (g : Geo) (c : Core) : Option Nat :=
  if c.evalNext < c.begun then some (c.evalNext * g.cpl + g.c0 + 1) else none

/-- The evaluation of line `evalNext` (R140), noted for the rendering of that line. Its results are fixed at
c₀, before the cycle of this event, so that a write of 1 to OVF at this cycle clears it (R6). -/
def Tenant.spriteStep (g : Geo) (t : Tenant) : Tenant :=
  let l := t.core.evalNext
  let word (key : Nat) := t.core.targetWord (t.word key) key (posOf l 0)
  let first := getBits (word F.SPR_FIRST_FIRST.key) F.SPR_FIRST_FIRST.lo 8
  let limit := getBits (word F.SPR_LIMIT_LIMIT.key) F.SPR_LIMIT_LIMIT.lo 7
  let (kept, dropped) := evaluateSprites t.core.sat first limit (l % g.lines)
  let t := ((t.setFld F.SPR_LINE_COUNT_LINE_COUNT kept.length).setFld F.SPR_DROP_LAST_DROP_LAST dropped).setBit
    F.SPR_STATUS_LINE_OVF (0 < dropped)
  let t := if 0 < dropped then
      ((t.setFld F.SPR_OVF_ANY_OVF 1).countN F.SPR_DROPS_COUNT dropped).count F.SPR_OVF_LINES_COUNT
    else t
  { t with core := { t.core with
      evalNext := g.canvasFrom (l + 1), kept := t.core.kept ++ [⟨l, kept⟩] } }

end Sys2Proof.Machine
end

