-- ==== Sys2Proof/Machine/Events.lean ====
section
/-! DEFINITION. The order of a tenant's events in tenant time: when each is due, which one is first,
and when the CPU's context is at an instruction boundary that it may run. Within one tenant cycle the
order is: ring point, line match, timers, sound, line start with its inputs, raster entry, sprite evaluation,
sector DMA, blitter, quick DMA, save step, and then the CPU: what acts on the state before every write of the
cycle comes before the inputs (R6, R81, R209, R231, R271, R313). -/

namespace Sys2Proof.Machine

/-- A tenant-time event. -/
inductive Ev where
  | line | raster | lineMatch (k : Nat) | sprite | timer (k : Nat) | audio | dma (c : Nat) | trail
  | qdm | sav | ring
deriving DecidableEq, Repr

/-- All events, in their order within a cycle. -/
def allEvents : List Ev :=
  [.ring, .lineMatch 0, .lineMatch 1, .lineMatch 2, .lineMatch 3, .timer 0, .timer 1, .timer 2, .timer 3,
   .audio, .line, .raster, .sprite, .dma 0, .dma 1, .trail, .qdm, .sav]

/-- The tenant cycle at which an event is due, if it is scheduled. -/
def Tenant.due (g : Geo) (t : Tenant) : Ev → Option Nat
  | .line => some (t.core.begun * g.cpl)
  | .raster => t.core.rasterDue g
  | .lineMatch k => t.matchDue g k
  | .sprite => t.core.spriteDue g
  | .timer k => t.timerDue g k
  | .audio => some (g.tickCycle t.core.snd.ticks)
  | .dma c => (t.core.dma c).bind DmaItem.due
  | .trail => t.core.trailDue g
  | .qdm => t.core.qdm.map Qdm.last
  | .sav => t.core.sav.map SavStep.last
  | .ring => if t.core.entered then some t.core.nextRing else none

/-- The stores that wait for their cycle, performed (R105). -/
def Tenant.flush (g : Geo) (t : Tenant) : Tenant :=
  match t.core.posted with
  | some p => { t with core := { t.core with posted := none } }.cpuWrite g p.cycle p.bytes
  | none => t

/-- The vector read of an entry sequence performed: an ordinary data read of 4 bytes at the vector base in use,
whose low 24 bits are the handler's address (R88, R89, R90). -/
def Tenant.readVector (g : Geo) (t : Tenant) (v : VecRead) : Tenant :=
  let vbr : Addr := t.core.cpu.vbrH ++ t.core.cpu.vbrM ++ (0 : Byte)
  let (t, bs) := t.vectorRead g v.cycle (addrs (vbr + BitVec.ofNat 24 (4 * v.vec)) 4)
  { t with core := { t.core with vread := some { v with got := some (leVec 24 bs &&& ~~~1) } } }

/-- The end of an entry sequence (R93, R96, R104): pc, and CPL of an interrupt or T and I of a trap; the entry is
recorded in the branch trace, which a trap may then freeze. -/
def Tenant.endEntry (t : Tenant) (v : VecRead) (pc : Addr) : Tenant :=
  let t := { t with core := { t.core with vread := none } }.trace (v.from_ ||| 1)
  match v.cpl with
  | some p => t.onCpu fun c => { c with pc := pc, cpl := p }
  | none =>
    let t := t.onCpu fun c => { c with pc := pc, f := (c.f &&& 0xDF) ||| 0x40 }
    if t.bit F.CPU_CTRL_BT_FREEZE_ON_TRAP then t.setBit F.CPU_CTRL_BT_FREEZE true else t

/-- The next part of an entry sequence: its vector read at `e` or before, its end before `e`. The inputs of a line start
at the cycle of the read come before it (R35, R81). -/
def Tenant.stepEntry (g : Geo) (t : Tenant) (e : Nat) : Tenant :=
  match t.core.vread with
  | some v =>
    match v.got with
    | none => if v.cycle ≤ e && v.cycle < t.core.begun * g.cpl then t.readVector g v else t
    | some pc => if v.last < e then t.endEntry v pc else t
  | none => t

/-- The earliest of what waits: stores performed where they come before cycle `e`, the trail's entry
sampled where its step was to begin before cycle `b`, the parts of an entry sequence. -/
def Tenant.prepOnce (g : Geo) (t : Tenant) (e b : Nat) : Tenant :=
  let unsampled := match t.core.trail with
    | some tr => if tr.bytes.isNone && tr.sampleAt < b then some tr.sampleAt else none
    | none => none
  match t.core.posted, unsampled with
  | some p, some s => if p.cycle < s then t.flush g else t.sampleTrail g
  | some p, none => if p.cycle < e then t.flush g else t
  | none, some _ => t.sampleTrail g
  | none, none => t.stepEntry g e

/-- The tenant ready for an event at cycle `e`: stores before `e` performed, an entry whose step was
to begin before `b` sampled. -/
def Tenant.prepTo (g : Geo) (t : Tenant) (e b : Nat) : Tenant :=
  ((((t.prepOnce g e b).prepOnce g e b).prepOnce g e b).prepOnce g e b).prepOnce g e b

/-- The tenant ready for an event or an instruction at cycle `e`, of a step that begins at `e` too. At the start
of a line that has not begun, no step begins before the line does, which refills the pixel balance (R242). The
requests of VIS_CYC up to `e` are counted. -/
def Tenant.prep (g : Geo) (t : Tenant) (e : Nat) : Tenant :=
  (t.prepTo g e (if t.core.begun * g.cpl ≤ e then e else e + 1)).syncDma g e

/-- Whether event `a` at cycle `ca` comes before event `b` at cycle `cb`. -/
def before (ca : Nat) (a : Ev) (cb : Nat) (b : Ev) : Bool :=
  ca < cb || (ca = cb && allEvents.idxOf a < allEvents.idxOf b)

/-- Whether the tenant waits in WAIT or FENCE, so that its cycles advance with its events. -/
def Tenant.waiting (t : Tenant) : Bool := t.core.cpu.wait.isSome || t.core.cpu.fence.isSome

/-- Whether the tenant executes: RUNNING, or on its way to the double trap that holds it, and not awaiting
promotion (R10, R75, R286, R287). -/
def Tenant.executes (t : Tenant) : Bool := (t.fld F.TEN_CONT_STATE = 2 || t.redo) && !t.waitPromotion

/-- Whether a waiting tenant's cycles may still advance to an event: its waking condition (R99) or its
fence (R128) has not come, and no ring waits for its commit (R276). -/
def Tenant.advances (t : Tenant) : Bool :=
  t.ring.isNone &&
  match t.core.cpu.wait, t.core.cpu.fence with
  | some _, _ => !t.wakes
  | none, some f => f.trail || f.qdm || f.dma0 || f.dma1
  | none, none => false

/-- Whether an event at cycle `e` lies in the frame at whose start tenant time is to stop, which the tenant does not reach
(R73, R74): only the ring at its first cycle, which closes the frame before, happens. -/
def Tenant.unreached (g : Geo) (t : Tenant) (ev : Ev) (e : Nat) : Bool :=
  t.stop != .none && t.core.begun % g.lines = 0 && t.core.begun * g.cpl ≤ e && ev != .ring && ev != .line

/-- The tenant made ready for event `ev` and the cycle of the event, when the event is the next one of
the tenant and its cycle is reached. -/
def Tenant.ready (g : Geo) (t : Tenant) (ev : Ev) : Option (Tenant × Nat) :=
  let t := match ev, t.core.trail with
    | .trail, some tr => t.prep g tr.sampleAt
    | _, _ => t
  match t.due g ev with
  | none => none
  | some e =>
    let t := t.prep g e
    let first := allEvents.all fun x => x = ev || (match t.due g x with
      | some c => before e ev c x || t.unreached g x c
      | none => true)
    if first && !t.unreached g ev e && (e ≤ t.core.now || t.advances) then
      some (if t.waiting then { t with core := { t.core with now := max t.core.now e } } else t, e)
    else none

/-- Whether every journal entry issued has been staged at the mirror (R80). -/
def Tenant.journaled (t : Tenant) : Bool :=
  match t.mirror with
  | some m => m.stream.all fun e => match e with
    | .journal _ => false
    | _ => true
  | none => true

/-- The tenant at an instruction boundary: every event up to this cycle has happened, the last ring has
committed (R276), and it is not in WAIT or FENCE (R76). -/
def Tenant.between (g : Geo) (t : Tenant) : Option Tenant :=
  let t := t.prep g t.core.now
  let quiet := allEvents.all fun x => match t.due g x with
    | some c => decide (t.core.now < c)
    | none => true
  if t.executes && t.core.entered && !t.waiting && t.ring.isNone && t.journaled && quiet && t.core.posted.isNone && t.core.vread.isNone
  then some t else none

/-- Bytes of data that a journaled input carries. -/
def Input.bytes : Input → Nat
  | .write _ _ _ => 12
  | .mail data => data.length
  | .saveDone _ => 1
  | .report r => 8 + r.data.length
  | .present _ => 1
  | .calendar _ => 9
  | .dmaFault _ _ => 8
  | .hold => 0
  | .resume => 0
  | .park => 0
  | .unpark => 0

/-- Bytes of staging that an entry occupies: 8 and its data, rounded up to 8 (R274). -/
def MEntry.size : MEntry → Nat
  | .write bs => 8 + ceilDiv bs.length 8 * 8
  | .journal e => 8 + ceilDiv e.input.bytes 8 * 8
  | .marker _ => 8

/-- The volume staged since the last marker (R278). -/
def Mirror.interval (m : Mirror) : Nat :=
  m.staging.foldl (fun n e => match e with
    | .marker _ => 0
    | e => n + e.size) 0

/-- Whether the staged volume of the interval has reached 4 KiB, so that an extra ring comes next (R278). -/
def Tenant.pressed (t : Tenant) : Bool :=
  match t.mirror with
  | some m => decide (4096 ≤ m.interval)
  | none => false

/-- The tenant at an instruction boundary at which its context may begin an instruction: no extra ring comes
first (R278). -/
def Tenant.atBoundary (g : Geo) (t : Tenant) : Option Tenant := if t.pressed then none else t.between g

/-- The stores of an instruction performed at its last cycle `e`: at once when no unit has an event
up to that cycle, otherwise when those events have happened (R105, R231). -/
def Tenant.post (g : Geo) (t : Tenant) (e : Nat) (ws : List (Addr × Byte)) : Tenant :=
  if ws = [] then t
  else
    let sampling := match t.core.trail with
      | some tr => tr.bytes.isNone && tr.sampleAt ≤ e
      | none => false
    if !sampling && allEvents.all (fun x => match t.due g x with
        | some c => decide (e < c)
        | none => true) then t.cpuWrite g e ws
    else { t with core := { t.core with posted := some ⟨e, ws⟩ } }

end Sys2Proof.Machine
end

