-- ==== Sys2Proof/Machine/Operands.lean ====
section
/-! DEFINITION. The operands of Zetik-8 instructions (R83, R109, R112, R118): general registers, their
pairs, pointers, conditions and effective addresses. -/

namespace Sys2Proof.Machine

/-- General register `k`. -/
def Cpu.g (c : Cpu) (k : Fin 8) : Byte :=
  match k with
  | 0 => c.g0
  | 1 => c.g1
  | 2 => c.g2
  | 3 => c.g3
  | 4 => c.g4
  | 5 => c.g5
  | 6 => c.g6
  | 7 => c.g7

/-- The CPU with general register `k` written. -/
def Cpu.setG (c : Cpu) (k : Fin 8) (v : Byte) : Cpu :=
  match k with
  | 0 => { c with g0 := v }
  | 1 => { c with g1 := v }
  | 2 => { c with g2 := v }
  | 3 => { c with g3 := v }
  | 4 => { c with g4 := v }
  | 5 => { c with g5 := v }
  | 6 => { c with g6 := v }
  | 7 => { c with g7 := v }

/-- The low general register of pair `k` (R83). -/
def lowG (k : Fin 4) : Fin 8 := ⟨2 * k.val, by omega⟩

/-- The high general register of pair `k` (R83). -/
def highG (k : Fin 4) : Fin 8 := ⟨2 * k.val + 1, by omega⟩

/-- Pair `k`: the odd register is the high byte (R83). -/
def Cpu.w (c : Cpu) (k : Fin 4) : Half := c.g (highG k) ++ c.g (lowG k)

/-- The CPU with pair `k` written. -/
def Cpu.setW (c : Cpu) (k : Fin 4) (v : Half) : Cpu :=
  (c.setG (lowG k) (byteOf v 0)).setG (highG k) (byteOf v 1)

/-- Pointer `k`. -/
def Cpu.p (c : Cpu) (k : Fin 4) : Addr :=
  match k with
  | 0 => c.p0
  | 1 => c.p1
  | 2 => c.p2
  | 3 => c.p3

/-- The CPU with pointer `k` written. -/
def Cpu.setP (c : Cpu) (k : Fin 4) (v : Addr) : Cpu :=
  match k with
  | 0 => { c with p0 := v }
  | 1 => { c with p1 := v }
  | 2 => { c with p2 := v }
  | 3 => { c with p3 := v }

/-- A pointer or sp. -/
def Cpu.sel (c : Cpu) : PSel → Addr
  | .p k => c.p k
  | .sp => c.sp

/-- The CPU with a pointer or sp written. -/
def Cpu.setSel (c : Cpu) (d : PSel) (v : Addr) : Cpu :=
  match d with
  | .p k => c.setP k v
  | .sp => { c with sp := v }

/-- The CPU with pc set; bit 0 of the value is ignored (R83). -/
def Cpu.setPc (c : Cpu) (v : Addr) : Cpu := { c with pc := v &&& ~~~1 }

/-- The flags (R84). -/
def Cpu.fC (c : Cpu) : Bool := c.f.getLsbD 0
def Cpu.fZ (c : Cpu) : Bool := c.f.getLsbD 1
def Cpu.fN (c : Cpu) : Bool := c.f.getLsbD 2
def Cpu.fV (c : Cpu) : Bool := c.f.getLsbD 3
def Cpu.fH (c : Cpu) : Bool := c.f.getLsbD 4
def Cpu.fI (c : Cpu) : Bool := c.f.getLsbD 5
def Cpu.fT (c : Cpu) : Bool := c.f.getLsbD 6

/-- Whether a condition holds, given the flags and the beam conditions VB and HB (R112). -/
def condHolds (c : Cpu) (vb hb : Bool) : Cond → Bool
  | .al => true
  | .eq => c.fZ
  | .ne => !c.fZ
  | .cs => c.fC
  | .nc => !c.fC
  | .mi => c.fN
  | .pl => !c.fN
  | .vb => vb
  | .vs => c.fV
  | .vc => !c.fV
  | .hi => !c.fC && !c.fZ
  | .ls => c.fC || c.fZ
  | .ge => c.fN == c.fV
  | .lt => c.fN != c.fV
  | .hb => hb
  | .nb => !vb && !hb

/-- Whether a condition holds at the tenant's current cycle (R111). -/
def Tenant.holds (g : Geo) (t : Tenant) (cc : Cond) : Bool :=
  condHolds t.core.cpu (g.inVB t.core.now) (g.inHB t.core.now) cc

/-- The address of a pointer form (R118, R119). -/
def Cpu.ea (c : Cpu) : PtrForm → Addr
  | .short pk _ => c.p pk
  | .long pk s => c.p pk + s.signExtend 24

/-- The post-increment of a pointer form for an access of `n` bytes (R113). -/
def Cpu.postInc (c : Cpu) (n : Nat) : PtrForm → Cpu
  | .short pk true => c.setP pk (c.p pk + BitVec.ofNat 24 n)
  | _ => c

/-- Cost of the form: 1 for a short form, 2 for a long one (R116). -/
def ptrBase : PtrForm → Nat
  | .short _ _ => 1
  | .long _ _ => 2

/-- Destination register of an immediate form: the short form acts on g0. -/
def immGd : ImmForm → Fin 8
  | .short => 0
  | .long gd => gd

/-- Cost of an immediate form (R116). -/
def immBase : ImmForm → Nat
  | .short => 1
  | .long _ => 2

/-- Byte `n` of a pointer. -/
def ptrByte (p : Addr) (n : Fin 3) : Byte := byteOf p n.val

/-- A pointer with byte `n` written. -/
def setPtrByte (p : Addr) (n : Fin 3) (v : Byte) : Addr :=
  match n with
  | 0 => (p.extractLsb' 8 16 ++ v : BitVec 24)
  | 1 => (p.extractLsb' 16 8 ++ v ++ p.extractLsb' 0 8 : BitVec 24)
  | 2 => (v ++ p.extractLsb' 0 16 : BitVec 24)

end Sys2Proof.Machine
end

