-- ==== Sys2Proof/Machine/Flags.lean ====
section
/-! DEFINITION. The flag results of Zetik-8 (R84, R117 to R127): each operation on values gives its
result and the flags C, Z, N, V and H that it sets; a flag it leaves unchanged is none. -/

namespace Sys2Proof.Machine

/-- A result with its flags. -/
structure Res (w : Nat) where
  r : BitVec w
  c : Option Bool
  z : Option Bool
  n : Option Bool
  v : Option Bool
  h : Option Bool
deriving DecidableEq, Repr

/-- A byte with one bit given a value, or kept. -/
def putBit (f : Byte) (i : Nat) : Option Bool → Byte
  | none => f
  | some true => f ||| ((1 : Byte) <<< i)
  | some false => f &&& ~~~((1 : Byte) <<< i)

/-- F with the flags of a result (R84). -/
def Res.flags {w : Nat} (x : Res w) (f : Byte) : Byte :=
  putBit (putBit (putBit (putBit (putBit f 0 x.c) 1 x.z) 2 x.n) 3 x.v) 4 x.h

/-- Addition with carry in `w` bits, H from bit 3 (R117). -/
def addRes {w : Nat} (a b : BitVec w) (c : Bool) : Res w :=
  let s := a.toNat + b.toNat + c.toNat
  let r : BitVec w := BitVec.ofNat w s
  { r := r, c := some (decide (2 ^ w ≤ s)), z := some (r == 0), n := some r.msb
    v := some (a.msb == b.msb && r.msb != a.msb)
    h := some (decide (15 < a.toNat % 16 + b.toNat % 16 + c.toNat)) }

/-- Subtraction with borrow in `w` bits, H into bit 3 (R117). -/
def subRes {w : Nat} (a b : BitVec w) (c : Bool) : Res w :=
  let r : BitVec w := a - b - BitVec.ofNat w c.toNat
  { r := r, c := some (decide (a.toNat < b.toNat + c.toNat)), z := some (r == 0), n := some r.msb
    v := some (a.msb != b.msb && r.msb != a.msb)
    h := some (decide (a.toNat % 16 < b.toNat % 16 + c.toNat)) }

/-- The 16-bit forms clear H (R117). -/
def Res.noH {w : Nat} (x : Res w) : Res w := { x with h := some false }

/-- INC and DEC leave C unchanged (R117). -/
def Res.keepC {w : Nat} (x : Res w) : Res w := { x with c := none }

/-- Bitwise results: C 0, V 0, H 0 (R118). -/
def logicRes {w : Nat} (r : BitVec w) : Res w :=
  ⟨r, some false, some (r == 0), some r.msb, some false, some false⟩

/-- Z and N alone: NOT, SWAPN, EXT, INCW, DECW (R117, R118). -/
def znRes {w : Nat} (r : BitVec w) : Res w := ⟨r, none, some (r == 0), some r.msb, none, none⟩

/-- Shifts and rotates: C the bit shifted out, V 0, H 0 (R118). -/
def shiftRes (r : Byte) (c : Bool) : Res 8 :=
  ⟨r, some c, some (r == 0), some r.msb, some false, some false⟩

/-- CLR: Z 1, N 0 (R118). -/
def clrRes : Res 8 := ⟨0, none, some true, some false, none, none⟩

/-- TST: C 0, V 0, H kept (R118). -/
def tstRes (a : Byte) : Res 8 := ⟨a, some false, some (a == 0), some a.msb, some false, none⟩

/-- MUL (R118). -/
def mulRes (a b : Byte) : Res 16 := logicRes (BitVec.ofNat 16 (a.toNat * b.toNat))

/-- DAJ.A (R122). -/
def dajARes (g : Byte) (c h : Bool) : Res 8 :=
  let v := g.toNat
  let low := h || decide (9 < v % 16)
  let high := c || decide (0x99 < v)
  let k := (if low then 0x06 else 0) + (if high then 0x60 else 0)
  let r : Byte := BitVec.ofNat 8 (v + k)
  ⟨r, some high, some (r == 0), some r.msb, some false, some (decide (15 < v % 16 + k % 16))⟩

/-- DAJ.S (R123). -/
def dajSRes (g : Byte) (c h : Bool) : Res 8 :=
  let k : Byte := (if h then 0x06 else 0) + (if c then 0x60 else 0)
  let r := g - k
  ⟨r, none, some (r == 0), some r.msb, some false, some (decide (g.toNat % 16 < k.toNat % 16))⟩

/-- CNVB.D (R127). -/
def cnvDRes (w : Half) : Res 16 :=
  let v := w.toNat % 10000
  let r : Half := BitVec.ofNat 16 (v / 1000 * 4096 + v / 100 % 10 * 256 + v / 10 % 10 * 16 + v % 10)
  ⟨r, some (decide (10000 ≤ w.toNat)), some (r == 0), some false, some false, some false⟩

/-- CNVB.B (R127). -/
def cnvBRes (w : Half) : Res 16 :=
  let d (i : Nat) := w.toNat / 16 ^ i % 16
  let r : Half := BitVec.ofNat 16 (d 3 * 1000 + d 2 * 100 + d 1 * 10 + d 0)
  ⟨r, some false, some (r == 0), some false, some (decide (9 < d 0 ∨ 9 < d 1 ∨ 9 < d 2 ∨ 9 < d 3)),
    some false⟩

/-- The digits of a BCD string, the least significant first (R124). -/
def digits (bs : List Byte) : List Nat := bs.flatMap fun b => [b.toNat % 16, b.toNat / 16]

/-- Digits as bytes. -/
def undigits : List Nat → List Byte
  | a :: b :: r => BitVec.ofNat 8 (a + 16 * b) :: undigits r
  | _ => []

/-- Digit by digit addition with carry (R124): the result digits and the final carry. -/
def addDigits : List (Nat × Nat) → Nat → List Nat × Nat
  | [], c => ([], c)
  | (x, y) :: r, c =>
    let s := x + y + c
    let (d, c') := if 10 ≤ s then ((s - 10) % 16, 1) else (s, 0)
    let (ds, k) := addDigits r c'
    (d :: ds, k)

/-- Digit by digit subtraction with borrow (R124). -/
def subDigits : List (Nat × Nat) → Nat → List Nat × Nat
  | [], c => ([], c)
  | (x, y) :: r, c =>
    let (d, c') := if x < y + c then ((x + 26 - y - c) % 16, 1) else (x - y - c, 0)
    let (ds, k) := subDigits r c'
    (d :: ds, k)

/-- The flags of a string instruction (R125). `ds` are the result digits. -/
def stringFlags (xs ys ds : List Nat) (c : Nat) : Res 8 :=
  ⟨0, some (c == 1), some (ds.all (· == 0)), some (decide (8 ≤ ds.getLast?.getD 0)),
    some ((xs ++ ys).any fun d => decide (9 < d)), some false⟩

end Sys2Proof.Machine
end

