-- ==== Sys2Proof/Machine/Zetik8.lean ====
section
/-! DEFINITION. The encodings of Zetik-8 (R108 to R115): the decoder of the halfwords at pc, and the
encoder from the same tables. A reserved encoding decodes to nothing (R115). -/

namespace Sys2Proof.Machine

/-- The condition of a code (R112). -/
def condOf (c : BitVec 4) : Cond :=
  match c.toNat with
  | 0 => .al
  | 1 => .eq
  | 2 => .ne
  | 3 => .cs
  | 4 => .nc
  | 5 => .mi
  | 6 => .pl
  | 7 => .vb
  | 8 => .vs
  | 9 => .vc
  | 10 => .hi
  | 11 => .ls
  | 12 => .ge
  | 13 => .lt
  | 14 => .hb
  | _ => .nb

/-- The code of a condition (R112). -/
def condCode : Cond → BitVec 4
  | .al => 0
  | .eq => 1
  | .ne => 2
  | .cs => 3
  | .nc => 4
  | .mi => 5
  | .pl => 6
  | .vb => 7
  | .vs => 8
  | .vc => 9
  | .hi => 10
  | .ls => 11
  | .ge => 12
  | .lt => 13
  | .hb => 14
  | .nb => 15

/-- A register number field of a halfword or byte. -/
def reg3 {w : Nat} (x : BitVec w) (lo : Nat) : Fin 8 := (x.extractLsb' lo 3).toFin

/-- A pointer number field. -/
def ptr2 {w : Nat} (x : BitVec w) (lo : Nat) : Fin 4 := (x.extractLsb' lo 2).toFin

/-- A pair field, which holds 2 × k: k when it is even (R109). -/
def pair3 {w : Nat} (x : BitVec w) (lo : Nat) : Option (Fin 4) :=
  if x.getLsbD lo then none else some (x.extractLsb' (lo + 1) 2).toFin

/-- An encoding that is legal only when a condition on its bits holds (R115). -/
def onlyIf (b : Bool) (i : Instr) : Option Instr := if b then some i else none

/-- The system group, short major 0x0 (R113). -/
def decodeSystem (t : Tn) (cc : Cond) (x : Byte) : Option Instr :=
  match x.toNat with
  | 0x00 => some (.nop t cc)
  | 0x01 => some (.wait t cc)
  | 0x02 => some (.fence t cc)
  | 0x03 => some (.ret t cc)
  | 0x04 => some (.rtt t cc)
  | 0x05 => some (.ei t cc)
  | 0x06 => some (.di t cc)
  | 0x07 => some (.dajA t cc)
  | 0x08 => some (.dajS t cc)
  | 0x09 => some (.pushf t cc)
  | 0x0A => some (.popf t cc)
  | 0x0B => some (.clc t cc)
  | 0x0C => some (.sec t cc)
  | 0x0D => some (.cmc t cc)
  | _ => none

/-- The unary group, short major 0x4 (R113). -/
def decodeUnary (t : Tn) (cc : Cond) (x : Byte) : Option Instr :=
  let g := reg3 x 0
  let w := pair3 x 0
  match (x.extractLsb' 3 5).toNat with
  | 0 => some (.inc t cc g)
  | 1 => some (.dec t cc g)
  | 2 => some (.neg t cc g)
  | 3 => some (.not t cc g)
  | 4 => some (.shl t cc g)
  | 5 => some (.shr t cc g)
  | 6 => some (.asr t cc g)
  | 7 => some (.rol t cc g)
  | 8 => some (.ror t cc g)
  | 9 => some (.clr t cc g)
  | 10 => some (.tst t cc g)
  | 11 => some (.swapn t cc g)
  | 12 => some (.push t cc g)
  | 13 => some (.pop t cc g)
  | 14 => w.map (.incw t cc)
  | 15 => w.map (.decw t cc)
  | 16 => w.map (.pushw t cc)
  | 17 => w.map (.popw t cc)
  | 18 => w.map (.ext t cc)
  | 19 => onlyIf (!x.getLsbD 2) (.pushp t cc (ptr2 x 0))
  | 20 => onlyIf (!x.getLsbD 2) (.popp t cc (ptr2 x 0))
  | _ => none

/-- A short instruction (R113). -/
def decodeShort (t : Tn) (h : Half) : Option Instr :=
  let cc := condOf ((0 : BitVec 1) ++ h.extractLsb' 12 3)
  let x : Byte := h.extractLsb' 0 8
  let op := (x.extractLsb' 6 2).toNat
  let gd := reg3 x 3
  let gs := reg3 x 0
  match (h.extractLsb' 8 4).toNat with
  | 0x0 => decodeSystem t cc x
  | 0x1 =>
    match op with
    | 0 => some (.mov t cc gd gs)
    | 1 => (pair3 x 3).bind fun d => (pair3 x 0).map fun s => .movw t cc d s
    | 2 => some (.exg t cc gd gs)
    | _ => none
  | 0x2 =>
    match op with
    | 0 => some (.add t cc gd gs)
    | 1 => some (.adc t cc gd gs)
    | 2 => some (.sub t cc gd gs)
    | _ => some (.sbc t cc gd gs)
  | 0x3 =>
    match op with
    | 0 => some (.and t cc gd gs)
    | 1 => some (.or t cc gd gs)
    | 2 => some (.xor t cc gd gs)
    | _ => some (.cmp t cc gd gs)
  | 0x4 => decodeUnary t cc x
  | 0x5 =>
    let m : PtrForm := .short (ptr2 x 1) (x.getLsbD 0)
    match op with
    | 0 => some (.ld t cc gd m)
    | 1 => some (.st t cc gd m)
    | 2 => (pair3 x 3).map fun w => .ldw t cc w m
    | _ => (pair3 x 3).map fun w => .stw t cc w m
  | 0x6 => some (.bra t cc x)
  | 0x7 => some (.call t cc (.rel8 x))
  | 0x8 => some (.ldi t cc .short x)
  | 0x9 => some (.cmpi t cc .short x)
  | 0xA => some (.addi t cc .short x)
  | 0xB => some (.andi t cc .short x)
  | 0xC => some (.adj t cc (ptr2 x 6) (x.extractLsb' 0 6))
  | 0xD => some (.lds t cc gs (x.extractLsb' 3 5))
  | 0xE => some (.sts t cc gs (x.extractLsb' 3 5))
  | _ => none

/-- MOVP's selector (R114). -/
def selOf (x : BitVec 3) : Option PSel :=
  match x.toNat with
  | 0 => some (.p 0)
  | 1 => some (.p 1)
  | 2 => some (.p 2)
  | 3 => some (.p 3)
  | 4 => some .sp
  | _ => none

/-- MOVP's selector of a pointer or sp. -/
def selCode : PSel → BitVec 3
  | .p k => (0 : BitVec 1) ++ BitVec.ofFin (w := 2) k
  | .sp => 4

/-- The byte number of MOVGP and MOVPG (R114). -/
def byteNo (x : BitVec 2) : Option (Fin 3) :=
  match x.toNat with
  | 0 => some 0
  | 1 => some 1
  | 2 => some 2
  | _ => none

/-- Long major opcodes 0x00 to 0x09 (R114): `a` is the low nibble of the first halfword. -/
def decodeLongData (t : Tn) (cc : Cond) (op : Nat) (a : BitVec 4) (h : Half) : Option Instr :=
  let gd := reg3 a 0
  let a3 := !a.getLsbD 3
  let i8 : Byte := h.extractLsb' 0 8
  let z (lo len : Nat) : Bool := h.extractLsb' lo len == 0
  match op with
  | 0x00 => onlyIf (a3 && z 8 8) (.ldi t cc (.long gd) i8)
  | 0x01 => (pair3 a 0).bind fun w => onlyIf a3 (.ldiw t cc w h)
  | 0x02 =>
    if a3 && z 11 5 then
      match (h.extractLsb' 8 3).toNat with
      | 0 => some (.addi t cc (.long gd) i8)
      | 1 => some (.adci t cc gd i8)
      | 2 => some (.subi t cc gd i8)
      | 3 => some (.sbci t cc gd i8)
      | 4 => some (.andi t cc (.long gd) i8)
      | 5 => some (.ori t cc gd i8)
      | 6 => some (.xori t cc gd i8)
      | _ => some (.cmpi t cc (.long gd) i8)
    else none
  | 0x03 => (pair3 a 0).bind fun d => (pair3 h 0).bind fun w =>
    if a3 && z 3 1 && z 7 9 then
      match (h.extractLsb' 4 3).toNat with
      | 0 => some (.addw t cc d w)
      | 1 => some (.adcw t cc d w)
      | 2 => some (.subw t cc d w)
      | 3 => some (.sbcw t cc d w)
      | 4 => some (.cmpw t cc d w)
      | _ => none
    else none
  | 0x04 => (pair3 a 0).bind fun w => onlyIf a3 (.addiw t cc w h)
  | 0x05 => (pair3 a 0).bind fun w => onlyIf a3 (.cmpiw t cc w h)
  | 0x06 => (pair3 a 0).bind fun w => onlyIf (a3 && z 6 10) (.mul t cc w (reg3 h 3) (reg3 h 0))
  | 0x07 => onlyIf (a3 && z 6 6)
      (.sel t cc gd (reg3 h 3) (reg3 h 0) (condOf (h.extractLsb' 12 4)))
  | 0x08 => (pair3 a 0).bind fun d => (pair3 h 3).bind fun x => (pair3 h 0).bind fun y =>
      onlyIf (a3 && z 6 6) (.selw t cc d x y (condOf (h.extractLsb' 12 4)))
  | 0x09 => (pair3 a 0).bind fun w =>
      onlyIf (a3 && z 1 15) (if h.getLsbD 0 then .cnvbB t cc w else .cnvbD t cc w)
  | _ => none

/-- Long major opcodes 0x10 to 0x23 (R114). -/
def decodeLongPtr (t : Tn) (cc : Cond) (op : Nat) (a : BitVec 4) (h : Half) : Option Instr :=
  let g := reg3 a 0
  let p := ptr2 a 0
  let a3 := !a.getLsbD 3
  let a32 := a.extractLsb' 2 2 == 0
  let z (lo len : Nat) : Bool := h.extractLsb' lo len == 0
  let m : PtrForm := .long (ptr2 h 14) (h.extractLsb' 0 14)
  let a17 : BitVec 17 := a.extractLsb' 3 1 ++ h
  match op with
  | 0x10 => onlyIf a3 (.ld t cc g m)
  | 0x11 => onlyIf a3 (.st t cc g m)
  | 0x12 => (pair3 a 0).bind fun w => onlyIf a3 (.ldw t cc w m)
  | 0x13 => (pair3 a 0).bind fun w => onlyIf a3 (.stw t cc w m)
  | 0x14 => some (.lda t cc g a17)
  | 0x15 => some (.sta t cc g a17)
  | 0x16 => (pair3 a 0).map fun w => .ldaw t cc w a17
  | 0x17 => (pair3 a 0).map fun w => .staw t cc w a17
  | 0x18 => onlyIf (a3 && z 3 11) (.ldx t cc g (ptr2 h 14) (reg3 h 0))
  | 0x19 => onlyIf (a3 && z 3 11) (.stx t cc g (ptr2 h 14) (reg3 h 0))
  | 0x1A => onlyIf a32 (.ldp t cc p (ptr2 h 14) (h.extractLsb' 0 14))
  | 0x1B => onlyIf a32 (.stp t cc p (ptr2 h 14) (h.extractLsb' 0 14))
  | 0x1C => onlyIf a32 (.ldpi t cc p h)
  | 0x1D => onlyIf (a32 && z 8 8) (.ldph t cc p (h.extractLsb' 0 8))
  | 0x1E => some (.lea t cc p (a.extractLsb' 2 2 ++ h))
  | 0x1F => (pair3 h 0).bind fun k => onlyIf (a32 && z 4 12) (.padd t cc p k (h.getLsbD 3))
  | 0x20 => (selOf (a.extractLsb' 0 3)).bind fun d => (selOf (h.extractLsb' 0 3)).bind fun x =>
      onlyIf (a3 && z 3 13) (.movp t cc d x)
  | 0x21 => onlyIf (a == 0) (.adjsp t cc h)
  | 0x22 => (byteNo (h.extractLsb' 4 2)).bind fun n =>
      onlyIf (a3 && z 2 2 && z 6 10) (.movgp t cc g (ptr2 h 0) n)
  | 0x23 => (byteNo (h.extractLsb' 4 2)).bind fun n =>
      onlyIf (a3 && z 2 2 && z 6 10) (.movpg t cc (ptr2 h 0) n g)
  | _ => none

/-- Long major opcodes 0x30 to 0x42 (R114). -/
def decodeLongControl (t : Tn) (cc : Cond) (op : Nat) (a : BitVec 4) (h : Half) : Option Instr :=
  let z (lo len : Nat) : Bool := h.extractLsb' lo len == 0
  let a32 := a.extractLsb' 2 2 == 0
  match op with
  | 0x30 => some (.brl t cc (a ++ h))
  | 0x31 => some (.call t cc (.rel20 (a ++ h)))
  | 0x32 => onlyIf (a32 && h == 0) (.jmp t cc (ptr2 a 0))
  | 0x33 => onlyIf (a32 && h == 0) (.call t cc (.ptr (ptr2 a 0)))
  | 0x34 => onlyIf (!a.getLsbD 3) (.dbnz t cc (reg3 a 0) h)
  | 0x40 => onlyIf (z 5 11) (.addp t cc (ptr2 h 0) (ptr2 h 2) a (h.getLsbD 4))
  | 0x41 => onlyIf (z 5 11) (.subp t cc (ptr2 h 0) (ptr2 h 2) a (h.getLsbD 4))
  | 0x42 => onlyIf (z 5 11) (.cmpp t cc (ptr2 h 0) (ptr2 h 2) a (h.getLsbD 4))
  | _ => none

/-- A long instruction (R114). -/
def decodeLong (t : Tn) (h0 h : Half) : Option Instr :=
  let cc := condOf (h0.extractLsb' 11 4)
  let op := (h0.extractLsb' 4 7).toNat
  let a : BitVec 4 := h0.extractLsb' 0 4
  if op < 0x10 then decodeLongData t cc op a h
  else if op < 0x30 then decodeLongPtr t cc op a h
  else decodeLongControl t cc op a h

/-- The instruction of tenant `t` in the halfwords at pc and pc + 2 (R108); none for a reserved
encoding. A short instruction does not look at the second. -/
def zdecode (t : Tn) (h0 h1 : Half) : Option Instr :=
  if h0.getLsbD 15 then decodeLong t h0 h1 else decodeShort t h0

/-! The encoder. -/

/-- A short halfword from its condition, major opcode and operand byte. -/
def shortHalf (cc : Cond) (major : BitVec 4) (x : Byte) : Half :=
  (0 : BitVec 1) ++ (condCode cc).extractLsb' 0 3 ++ major ++ x

/-- The first halfword of a long instruction. -/
def longHalf (cc : Cond) (major : BitVec 7) (a : BitVec 4) : Half :=
  (1 : BitVec 1) ++ condCode cc ++ major ++ a

/-- A register field. -/
def f3 (k : Fin 8) : BitVec 3 := BitVec.ofFin (w := 3) k

/-- A pointer field. -/
def f2 (k : Fin 4) : BitVec 2 := BitVec.ofFin (w := 2) k

/-- A pair field, 2 × k (R109). -/
def fw (k : Fin 4) : BitVec 3 := f2 k ++ (0 : BitVec 1)

/-- A short instruction: its major opcode and operand byte, where the instruction has a short form. -/
def encodeShort : Instr → Option (Cond × BitVec 4 × Byte)
  | .nop _ cc => some (cc, 0, 0x00)
  | .wait _ cc => some (cc, 0, 0x01)
  | .fence _ cc => some (cc, 0, 0x02)
  | .ret _ cc => some (cc, 0, 0x03)
  | .rtt _ cc => some (cc, 0, 0x04)
  | .ei _ cc => some (cc, 0, 0x05)
  | .di _ cc => some (cc, 0, 0x06)
  | .dajA _ cc => some (cc, 0, 0x07)
  | .dajS _ cc => some (cc, 0, 0x08)
  | .pushf _ cc => some (cc, 0, 0x09)
  | .popf _ cc => some (cc, 0, 0x0A)
  | .clc _ cc => some (cc, 0, 0x0B)
  | .sec _ cc => some (cc, 0, 0x0C)
  | .cmc _ cc => some (cc, 0, 0x0D)
  | .mov _ cc d x => some (cc, 1, (0 : BitVec 2) ++ f3 d ++ f3 x)
  | .movw _ cc d x => some (cc, 1, (1 : BitVec 2) ++ fw d ++ fw x)
  | .exg _ cc d x => some (cc, 1, (2 : BitVec 2) ++ f3 d ++ f3 x)
  | .add _ cc d x => some (cc, 2, (0 : BitVec 2) ++ f3 d ++ f3 x)
  | .adc _ cc d x => some (cc, 2, (1 : BitVec 2) ++ f3 d ++ f3 x)
  | .sub _ cc d x => some (cc, 2, (2 : BitVec 2) ++ f3 d ++ f3 x)
  | .sbc _ cc d x => some (cc, 2, (3 : BitVec 2) ++ f3 d ++ f3 x)
  | .and _ cc d x => some (cc, 3, (0 : BitVec 2) ++ f3 d ++ f3 x)
  | .or _ cc d x => some (cc, 3, (1 : BitVec 2) ++ f3 d ++ f3 x)
  | .xor _ cc d x => some (cc, 3, (2 : BitVec 2) ++ f3 d ++ f3 x)
  | .cmp _ cc d x => some (cc, 3, (3 : BitVec 2) ++ f3 d ++ f3 x)
  | .inc _ cc d => some (cc, 4, (0 : BitVec 5) ++ f3 d)
  | .dec _ cc d => some (cc, 4, (1 : BitVec 5) ++ f3 d)
  | .neg _ cc d => some (cc, 4, (2 : BitVec 5) ++ f3 d)
  | .not _ cc d => some (cc, 4, (3 : BitVec 5) ++ f3 d)
  | .shl _ cc d => some (cc, 4, (4 : BitVec 5) ++ f3 d)
  | .shr _ cc d => some (cc, 4, (5 : BitVec 5) ++ f3 d)
  | .asr _ cc d => some (cc, 4, (6 : BitVec 5) ++ f3 d)
  | .rol _ cc d => some (cc, 4, (7 : BitVec 5) ++ f3 d)
  | .ror _ cc d => some (cc, 4, (8 : BitVec 5) ++ f3 d)
  | .clr _ cc d => some (cc, 4, (9 : BitVec 5) ++ f3 d)
  | .tst _ cc d => some (cc, 4, (10 : BitVec 5) ++ f3 d)
  | .swapn _ cc d => some (cc, 4, (11 : BitVec 5) ++ f3 d)
  | .push _ cc d => some (cc, 4, (12 : BitVec 5) ++ f3 d)
  | .pop _ cc d => some (cc, 4, (13 : BitVec 5) ++ f3 d)
  | .incw _ cc d => some (cc, 4, (14 : BitVec 5) ++ fw d)
  | .decw _ cc d => some (cc, 4, (15 : BitVec 5) ++ fw d)
  | .pushw _ cc d => some (cc, 4, (16 : BitVec 5) ++ fw d)
  | .popw _ cc d => some (cc, 4, (17 : BitVec 5) ++ fw d)
  | .ext _ cc d => some (cc, 4, (18 : BitVec 5) ++ fw d)
  | .pushp _ cc k => some (cc, 4, (19 : BitVec 5) ++ (0 : BitVec 1) ++ f2 k)
  | .popp _ cc k => some (cc, 4, (20 : BitVec 5) ++ (0 : BitVec 1) ++ f2 k)
  | .ld _ cc d (.short k i) => some (cc, 5, (0 : BitVec 2) ++ f3 d ++ f2 k ++ BitVec.ofBool i)
  | .st _ cc d (.short k i) => some (cc, 5, (1 : BitVec 2) ++ f3 d ++ f2 k ++ BitVec.ofBool i)
  | .ldw _ cc d (.short k i) => some (cc, 5, (2 : BitVec 2) ++ fw d ++ f2 k ++ BitVec.ofBool i)
  | .stw _ cc d (.short k i) => some (cc, 5, (3 : BitVec 2) ++ fw d ++ f2 k ++ BitVec.ofBool i)
  | .bra _ cc x => some (cc, 6, x)
  | .call _ cc (.rel8 x) => some (cc, 7, x)
  | .ldi _ cc .short i => some (cc, 8, i)
  | .cmpi _ cc .short i => some (cc, 9, i)
  | .addi _ cc .short i => some (cc, 10, i)
  | .andi _ cc .short i => some (cc, 11, i)
  | .adj _ cc k x => some (cc, 12, f2 k ++ x)
  | .lds _ cc d u => some (cc, 13, u ++ f3 d)
  | .sts _ cc d u => some (cc, 14, u ++ f3 d)
  | _ => none

/-- A long instruction: its condition, major opcode, low nibble and second halfword. -/
def encodeLong : Instr → Option (Cond × BitVec 7 × BitVec 4 × Half)
  | .ldi _ cc (.long d) i => some (cc, 0x00, (0 : BitVec 1) ++ f3 d, (0 : Byte) ++ i)
  | .ldiw _ cc d i => some (cc, 0x01, (0 : BitVec 1) ++ fw d, i)
  | .addi _ cc (.long d) i => some (cc, 0x02, (0 : BitVec 1) ++ f3 d, (0 : BitVec 8) ++ i)
  | .adci _ cc d i => some (cc, 0x02, (0 : BitVec 1) ++ f3 d, (1 : BitVec 8) ++ i)
  | .subi _ cc d i => some (cc, 0x02, (0 : BitVec 1) ++ f3 d, (2 : BitVec 8) ++ i)
  | .sbci _ cc d i => some (cc, 0x02, (0 : BitVec 1) ++ f3 d, (3 : BitVec 8) ++ i)
  | .andi _ cc (.long d) i => some (cc, 0x02, (0 : BitVec 1) ++ f3 d, (4 : BitVec 8) ++ i)
  | .ori _ cc d i => some (cc, 0x02, (0 : BitVec 1) ++ f3 d, (5 : BitVec 8) ++ i)
  | .xori _ cc d i => some (cc, 0x02, (0 : BitVec 1) ++ f3 d, (6 : BitVec 8) ++ i)
  | .cmpi _ cc (.long d) i => some (cc, 0x02, (0 : BitVec 1) ++ f3 d, (7 : BitVec 8) ++ i)
  | .addw _ cc d x => some (cc, 0x03, (0 : BitVec 1) ++ fw d, (0x000 : BitVec 13) ++ fw x)
  | .adcw _ cc d x => some (cc, 0x03, (0 : BitVec 1) ++ fw d, (0x002 : BitVec 13) ++ fw x)
  | .subw _ cc d x => some (cc, 0x03, (0 : BitVec 1) ++ fw d, (0x004 : BitVec 13) ++ fw x)
  | .sbcw _ cc d x => some (cc, 0x03, (0 : BitVec 1) ++ fw d, (0x006 : BitVec 13) ++ fw x)
  | .cmpw _ cc d x => some (cc, 0x03, (0 : BitVec 1) ++ fw d, (0x008 : BitVec 13) ++ fw x)
  | .addiw _ cc d i => some (cc, 0x04, (0 : BitVec 1) ++ fw d, i)
  | .cmpiw _ cc d i => some (cc, 0x05, (0 : BitVec 1) ++ fw d, i)
  | .mul _ cc d x y => some (cc, 0x06, (0 : BitVec 1) ++ fw d, (0 : BitVec 10) ++ f3 x ++ f3 y)
  | .sel _ cc d x y sc =>
    some (cc, 0x07, (0 : BitVec 1) ++ f3 d, condCode sc ++ (0 : BitVec 6) ++ f3 x ++ f3 y)
  | .selw _ cc d x y sc =>
    some (cc, 0x08, (0 : BitVec 1) ++ fw d, condCode sc ++ (0 : BitVec 6) ++ fw x ++ fw y)
  | .cnvbD _ cc d => some (cc, 0x09, (0 : BitVec 1) ++ fw d, 0)
  | .cnvbB _ cc d => some (cc, 0x09, (0 : BitVec 1) ++ fw d, 1)
  | .ld _ cc d (.long k x) => some (cc, 0x10, (0 : BitVec 1) ++ f3 d, f2 k ++ x)
  | .st _ cc d (.long k x) => some (cc, 0x11, (0 : BitVec 1) ++ f3 d, f2 k ++ x)
  | .ldw _ cc d (.long k x) => some (cc, 0x12, (0 : BitVec 1) ++ fw d, f2 k ++ x)
  | .stw _ cc d (.long k x) => some (cc, 0x13, (0 : BitVec 1) ++ fw d, f2 k ++ x)
  | .lda _ cc d a => some (cc, 0x14, a.extractLsb' 16 1 ++ f3 d, a.extractLsb' 0 16)
  | .sta _ cc d a => some (cc, 0x15, a.extractLsb' 16 1 ++ f3 d, a.extractLsb' 0 16)
  | .ldaw _ cc d a => some (cc, 0x16, a.extractLsb' 16 1 ++ fw d, a.extractLsb' 0 16)
  | .staw _ cc d a => some (cc, 0x17, a.extractLsb' 16 1 ++ fw d, a.extractLsb' 0 16)
  | .ldx _ cc d k x => some (cc, 0x18, (0 : BitVec 1) ++ f3 d, f2 k ++ (0 : BitVec 11) ++ f3 x)
  | .stx _ cc d k x => some (cc, 0x19, (0 : BitVec 1) ++ f3 d, f2 k ++ (0 : BitVec 11) ++ f3 x)
  | .ldp _ cc k q x => some (cc, 0x1A, (0 : BitVec 2) ++ f2 k, f2 q ++ x)
  | .stp _ cc k q x => some (cc, 0x1B, (0 : BitVec 2) ++ f2 k, f2 q ++ x)
  | .ldpi _ cc k i => some (cc, 0x1C, (0 : BitVec 2) ++ f2 k, i)
  | .ldph _ cc k i => some (cc, 0x1D, (0 : BitVec 2) ++ f2 k, (0 : Byte) ++ i)
  | .lea _ cc k x => some (cc, 0x1E, x.extractLsb' 16 2 ++ f2 k, x.extractLsb' 0 16)
  | .padd _ cc k x sx =>
    some (cc, 0x1F, (0 : BitVec 2) ++ f2 k, (0 : BitVec 12) ++ BitVec.ofBool sx ++ fw x)
  | .movp _ cc d x => some (cc, 0x20, (0 : BitVec 1) ++ selCode d, (0 : BitVec 13) ++ selCode x)
  | .adjsp _ cc x => some (cc, 0x21, 0, x)
  | .movgp _ cc d k n =>
    some (cc, 0x22, (0 : BitVec 1) ++ f3 d, (0 : BitVec 10) ++ BitVec.ofNat 2 n.val ++ (0 : BitVec 2) ++ f2 k)
  | .movpg _ cc k n x =>
    some (cc, 0x23, (0 : BitVec 1) ++ f3 x, (0 : BitVec 10) ++ BitVec.ofNat 2 n.val ++ (0 : BitVec 2) ++ f2 k)
  | .brl _ cc x => some (cc, 0x30, x.extractLsb' 16 4, x.extractLsb' 0 16)
  | .call _ cc (.rel20 x) => some (cc, 0x31, x.extractLsb' 16 4, x.extractLsb' 0 16)
  | .jmp _ cc k => some (cc, 0x32, (0 : BitVec 2) ++ f2 k, 0)
  | .call _ cc (.ptr k) => some (cc, 0x33, (0 : BitVec 2) ++ f2 k, 0)
  | .dbnz _ cc d x => some (cc, 0x34, (0 : BitVec 1) ++ f3 d, x)
  | .addp _ cc d x n c => some (cc, 0x40, n, (0 : BitVec 11) ++ BitVec.ofBool c ++ f2 x ++ f2 d)
  | .subp _ cc d x n c => some (cc, 0x41, n, (0 : BitVec 11) ++ BitVec.ofBool c ++ f2 x ++ f2 d)
  | .cmpp _ cc d x n c => some (cc, 0x42, n, (0 : BitVec 11) ++ BitVec.ofBool c ++ f2 x ++ f2 d)
  | _ => none

/-- The halfwords of an instruction of a tenant's CPU (R108): the first, and the second of a long
form. A short form carries only the conditions 0 to 7 (R112). -/
def zencode (i : Instr) : Option (Half × Option Half) :=
  match encodeShort i with
  | some (cc, major, x) =>
    if (condCode cc).getLsbD 3 then none else some (shortHalf cc major x, none)
  | none => (encodeLong i).map fun (cc, major, a, h) => (longHalf cc major a, some h)

/-- The tenant whose CPU executes an instruction. -/
def cpuTenant : Instr → Option Tn
  | .nop t _ | .wait t _ | .fence t _ | .ret t _ | .rtt t _ | .ei t _ | .di t _ | .dajA t _
  | .dajS t _ | .pushf t _ | .popf t _ | .clc t _ | .sec t _ | .cmc t _ | .mov t _ _ _
  | .movw t _ _ _ | .exg t _ _ _ | .add t _ _ _ | .adc t _ _ _ | .sub t _ _ _ | .sbc t _ _ _
  | .and t _ _ _ | .or t _ _ _ | .xor t _ _ _ | .cmp t _ _ _ | .inc t _ _ | .dec t _ _ | .neg t _ _
  | .not t _ _ | .shl t _ _ | .shr t _ _ | .asr t _ _ | .rol t _ _ | .ror t _ _ | .clr t _ _
  | .tst t _ _ | .swapn t _ _ | .push t _ _ | .pop t _ _ | .incw t _ _ | .decw t _ _ | .pushw t _ _
  | .popw t _ _ | .ext t _ _ | .pushp t _ _ | .popp t _ _ | .ld t _ _ _ | .st t _ _ _ | .ldw t _ _ _
  | .stw t _ _ _ | .bra t _ _ | .call t _ _ | .ldi t _ _ _ | .cmpi t _ _ _ | .addi t _ _ _
  | .andi t _ _ _ | .adj t _ _ _ | .lds t _ _ _ | .sts t _ _ _ | .ldiw t _ _ _ | .adci t _ _ _
  | .subi t _ _ _ | .sbci t _ _ _ | .ori t _ _ _ | .xori t _ _ _ | .addw t _ _ _ | .adcw t _ _ _
  | .subw t _ _ _ | .sbcw t _ _ _ | .cmpw t _ _ _ | .addiw t _ _ _ | .cmpiw t _ _ _ | .mul t _ _ _ _
  | .sel t _ _ _ _ _ | .selw t _ _ _ _ _ | .cnvbD t _ _ | .cnvbB t _ _ | .lda t _ _ _ | .sta t _ _ _
  | .ldaw t _ _ _ | .staw t _ _ _ | .ldx t _ _ _ _ | .stx t _ _ _ _ | .ldp t _ _ _ _ | .stp t _ _ _ _
  | .ldpi t _ _ _ | .ldph t _ _ _ | .lea t _ _ _ | .padd t _ _ _ _ | .movp t _ _ _ | .adjsp t _ _
  | .movgp t _ _ _ _ | .movpg t _ _ _ _ | .brl t _ _ | .jmp t _ _ | .dbnz t _ _ _
  | .addp t _ _ _ _ _ | .subp t _ _ _ _ _ | .cmpp t _ _ _ _ _ => some t
  | _ => none

end Sys2Proof.Machine
end

