-- ==== Sys2Proof/Machine/Cpu.lean ====
section
/-! DEFINITION. How an instruction of a tenant's CPU runs: fetch (R110), the condition (R111), the cost
(R116), reads in the first cycle and writes in the last (R105), the stack, the branch trace (R104),
and the shared parts of the entry sequences (R93, R95, R96). -/

namespace Sys2Proof.Machine

/-- The halfword at an address as an instruction fetch at cycle `e` gives it; none where a fetch is
forbidden (R85, R87). -/
def Tenant.fetchHalf (g : Geo) (t : Tenant) (e : Nat) (a : Addr) : Option Half :=
  let b := a + 1
  if g.fetchable a.toNat && g.fetchable b.toNat then
    some ((t.readByte g e b).getD 0 ++ (t.readByte g e a).getD 0)
  else none

/-- The halfwords of the instruction at pc (R110): the second of a short one is not fetched. -/
def Tenant.fetch (g : Geo) (t : Tenant) : Option (Half × Half) :=
  match t.fetchHalf g t.core.now t.core.cpu.pc with
  | none => none
  | some h0 =>
    if h0.getLsbD 15 then (t.fetchHalf g t.core.now (t.core.cpu.pc + 2)).map fun h1 => (h0, h1)
    else some (h0, 0)

/-- The address of the instruction after one whose first halfword is `h0`. -/
def nextPc (pc : Addr) (h0 : Half) : Addr := pc + (if h0.getLsbD 15 then 4 else 2)

/-- The interrupt accepted at this boundary, if one is (R92): source and priority. -/
def Tenant.interrupt (t : Tenant) : Option (Nat × Nat) :=
  if t.core.cpu.fI then t.topSource t.core.cpu.cpl.toNat else none

/-- The engine on which a tenant runs (R286, TEN.PLACE): none while it has no slot. -/
def Tenant.engine (t : Tenant) : Option Nat :=
  let e := t.fld F.TEN_PLACE_SLOT / 16
  if e < 72 then some e else none

/-- The thread context of a tenant on its engine (R15). -/
def Tenant.ctx (t : Tenant) : Nat :=
  if t.bit F.TEN_PLACE_TAKEOVER then 16 + t.fld F.TEN_PLACE_TCTX else t.fld F.TEN_PLACE_SLOT % 16

/-- Whether a tenant's writes stall for a credit of its mirror stream (R17). -/
def State.mirrorStalled (s : State) (k : Nat) : Bool :=
  let t := s.tenant k
  match t.mirror, t.engine with
  | some m, some e => m.live && (s.portStalled e ||
      s.stalledAt e fun a => .mirror a (Fin.ofNat 72 (t.fld F.TEN_MIRROR_MSLOT / 16)))
  | _, _ => false

/-- The tenant at an instruction boundary at which its context may begin an instruction. DESIGN CHOICE: one whose
stores would stall for a credit begins none (R17), which costs wall time only (R20). -/
def State.atBoundary (s : State) (k : Nat) : Option Tenant :=
  if s.mirrorStalled k then none else (s.tenant k).atBoundary (s.geo k)

/-- The tenant at a boundary at which it begins instruction `i`, with pc already at the next
instruction: its context is ready, no interrupt is taken first (R92, R94), and the halfwords at pc
are `i` (R108). -/
def State.cpuReady (s : State) (k : Tn) (i : Instr) : Option Tenant :=
  match s.atBoundary k with
  | none => none
  | some t =>
    if t.interrupt.isSome then none
    else
      match t.fetch (s.geo k) with
      | none => none
      | some (h0, h1) =>
        if zdecode k h0 h1 = some i then some (t.onCpu fun c => c.setPc (nextPc c.pc h0)) else none

/-- An instruction of `n` issue slots issued: ENG.ISSUED of the tenant's engine is one higher (R25). -/
def State.issued (s : State) (t : Tenant) (n : Nat) : State :=
  match t.engine with
  | some e => (s.count (F.ENG_ISSUED_COUNT e)).work e fun w => { w with slots := w.slots + n }
  | none => s

/-- The end of an instruction of `cost` cycles: its stores in the last one, and the next boundary
(R105, R116). -/
def Tenant.finish (g : Geo) (cost : Nat) (ws : List (Addr × Byte)) (t : Tenant) : Tenant :=
  let e := t.core.now + cost - 1
  let t := t.post g e ws
  { t with core := { t.core with now := e + 1 } }

/-- The state after an instruction of tenant `k` (R111): with its condition false it costs one cycle
and does nothing. It takes an issue slot for each cycle, but WAIT and FENCE, which take the one that they are issued
in (R77). -/
def State.afterCpu (s : State) (k : Tn) (cc : Cond) (t : Tenant)
    (eff : Geo → Tenant → Tenant) : State :=
  let g := s.geo k
  let t' := if t.holds g cc then eff g t else t.finish g 1 []
  (s.setTenant k t').issued t (if t'.waiting then 1 else t'.core.now - t.core.now)

/-- An instruction `i` of tenant `k` with condition `cc` and effect `eff`; while it is not the next
thing that the tenant does, nothing happens. -/
def runCpu (k : Tn) (cc : Cond) (i : Instr) (eff : Geo → Tenant → Tenant) (s : State) : Out :=
  match s.cpuReady k i with
  | none => .next s
  | some t => .next (s.afterCpu k cc t eff)

/-! Shared effects. -/

/-- An instruction that changes only CPU registers. -/
def regEff (cost : Nat) (h : Cpu → Cpu) (g : Geo) (t : Tenant) : Tenant := (t.onCpu h).finish g cost []

/-- F written whole but for T (R84). -/
def Cpu.loadF (c : Cpu) (v : Byte) : Cpu := { c with f := (c.f &&& 0x40) ||| (v &&& 0x3F) }

/-- The CPU with the flags of a result. -/
def Cpu.setFlags {w : Nat} (c : Cpu) (x : Res w) : Cpu := { c with f := x.flags c.f }

/-- An 8-bit result written to a general register with its flags. -/
def Cpu.put8 (c : Cpu) (gd : Fin 8) (x : Res 8) : Cpu := (c.setFlags x).setG gd x.r

/-- A 16-bit result written to a pair with its flags. -/
def Cpu.put16 (c : Cpu) (wd : Fin 4) (x : Res 16) : Cpu := (c.setFlags x).setW wd x.r

/-- A load of `n` bytes from an address, sampled in the first cycle (R105); `h` puts them away. -/
def loadEff (cost n : Nat) (a : Cpu → Addr) (h : List Byte → Cpu → Cpu) (g : Geo) (t : Tenant) :
    Tenant :=
  let (t, bs) := t.cpuRead g t.core.now (addrs (a t.core.cpu) n)
  (t.onCpu (h bs)).finish g cost []

/-- A store of bytes at an address, performed in the last cycle (R105); `h` changes registers. -/
def storeEff (cost : Nat) (a : Cpu → Addr) (v : Cpu → List Byte) (h : Cpu → Cpu) (g : Geo)
    (t : Tenant) : Tenant :=
  let c := t.core.cpu
  let bs := v c
  (t.onCpu h).finish g cost ((addrs (a c) bs.length).zip bs)

/-- A push: sp falls by the size, and the bytes go to the new sp (R83). -/
def pushEff (cost : Nat) (v : Cpu → List Byte) (g : Geo) (t : Tenant) : Tenant :=
  let n := BitVec.ofNat 24 (v t.core.cpu).length
  storeEff cost (fun c => c.sp - n) v (fun c => { c with sp := c.sp - n }) g t

/-- A pop of `n` bytes: sp rises by the size, then the value is put away (R119). -/
def popEff (cost n : Nat) (h : List Byte → Cpu → Cpu) (g : Geo) (t : Tenant) : Tenant :=
  loadEff cost n Cpu.sp (fun bs c => h bs { c with sp := c.sp + BitVec.ofNat 24 n }) g t

/-- One byte of a list. -/
def b0 (bs : List Byte) : Byte := leVec 8 bs

/-! The branch trace. -/

/-- An instruction's own address in the trace: bit 0 is 0. -/
def Tenant.traceAt (t : Tenant) (a : Addr) : Tenant := t.trace (a &&& ~~~1)

/-- A transfer of control to an address by the instruction at `here` (R104). DESIGN CHOICE (log entry 121): it is
recorded at the instruction's first cycle. -/
def Tenant.jumpTo (t : Tenant) (here target : Addr) : Tenant :=
  (t.onCpu fun c => c.setPc target).traceAt here

/-- The address of the instruction that runs, whose length is `len` bytes: pc is already past it. -/
def Tenant.here (t : Tenant) (len : Addr) : Addr := t.core.cpu.pc - len

/-- A displacement in halfwords from the next instruction (R113, R114). -/
def rel {w : Nat} (next : Addr) (d : BitVec w) : Addr := next + d.signExtend 24 + d.signExtend 24

/-- A jump of a form of `len` bytes to the target that `f` gives from pc and registers. -/
def jumpEff (cost : Nat) (len : Addr) (f : Cpu → Addr) (g : Geo) (t : Tenant) : Tenant :=
  (t.jumpTo (t.here len) (f t.core.cpu)).finish g cost []

/-! The return stack. -/

/-- The bytes at addresses as they stand, noted for reads at cycle `e` and, in video RAM, for pixels
before the effect position: the live entry that covers them comes or goes at `e` (R103, R230). -/
def Tenant.noteBytes (g : Geo) (t : Tenant) (e : Nat) (as : List Addr) : Tenant :=
  as.foldl (fun t a =>
    let c := t.core
    let old := c.ramByte a.toNat
    { t with core := { c with
        atc := c.atc.noteOld e a.toNat old
        vold := if isVram a.toNat then c.vold ++ [⟨g.effectPos e, a.toNat, old⟩] else c.vold } }) t

/-- The oldest live entry spilled at cycle `e` (R101): written to its reserved bytes and removed. A newer entry over
the same bytes, whose CALL came later, keeps its value (R103). -/
def Tenant.spillOldest (g : Geo) (e : Nat) (t : Tenant) : Tenant :=
  match t.core.cpu.rs with
  | [] => t
  | x :: newer =>
    let t := t.cpuWrite g e ((addrs x.res 3).zip (leBytes 3 x.ret))
    (t.onCpu fun c => { c with rs := newer }).count F.CPU_RS_SPILLS_COUNT

/-- A CALL of a form of `len` bytes and base cost `cost` (R101): with 16 live entries it first spills the oldest.
Live entries lie in bytes that a CPU store can write. DESIGN CHOICE: the live entry is there from the CALL on, but for
reads at its last cycle, at which a store would come. -/
def callEff (cost : Nat) (len : Addr) (f : Cpu → Addr) (g : Geo) (t : Tenant) : Tenant :=
  let here := t.here len
  let target := f t.core.cpu
  let ret := t.core.cpu.pc
  let res := t.core.cpu.sp - 3
  let t := t.onCpu fun c => { c with sp := res }
  let full := t.core.cpu.rs.length = 16
  let lives := (addrs res 3).all fun a => cpuWritable a.toNat
  let cost := cost + (if full then 2 else 0) + (if lives then 0 else 2)
  let e := t.core.now + cost - 1
  let t := if full then t.spillOldest g e else t
  if lives then
    let t := (t.noteBytes g e (addrs res 3)).onCpu fun c => { c with rs := c.rs ++ [⟨ret, res⟩] }
    (t.jumpTo here target).finish g cost []
  else
    let t := t.count F.CPU_RS_SPILLS_COUNT
    (t.jumpTo here target).finish g cost ((addrs res 3).zip (leBytes 3 ret))

/-- RET (R102). -/
def retEff (g : Geo) (t : Tenant) : Tenant :=
  let here := t.here 2
  let c := t.core.cpu
  match c.rs.getLast? with
  | some x =>
    if x.res = c.sp then
      let t := t.noteBytes g (t.core.now + 1) (addrs x.res 3)
      let t := t.onCpu fun c => { c with sp := c.sp + 3, rs := c.rs.dropLast }
      (t.jumpTo here x.ret).finish g 2 []
    else spillAndFill here t
  | none => spillAndFill here t
where
  /-- Every live entry spilled, then the return address read at sp. -/
  spillAndFill (here : Addr) (t : Tenant) : Tenant :=
    let c := t.core.cpu
    let n := c.rs.length
    let (t, bs) := t.cpuRead g t.core.now (addrs c.sp 3)
    let e := t.core.now + 2 + 2 * n + 2 - 1
    let t := (List.range n).foldl (fun t _ => t.spillOldest g e) t
    let t := t.onCpu fun c => { c with sp := c.sp + 3 }
    (t.jumpTo here (leVec 24 bs)).finish g (4 + 2 * n) []

/-! Entry sequences. -/

/-- The short frame (R95). -/
def shortFrame (kind : Byte) (c : Cpu) (pc : Addr) : List Byte :=
  [kind, c.cpl.setWidth 8, c.f] ++ leBytes 3 pc

/-- An entry sequence that begins at the tenant's boundary b: the frame `bs` is pushed up to cycle b + `p`, vector
`v` is read in the two cycles after it, and at b + `p` + 3 pc is set, with CPL for an interrupt of priority `cpl`, and
the entry is recorded; the handler begins at the cycle after (R93, R96). DESIGN CHOICE: of the ranges that R93 and R96
give, the frame is written at the last cycle and the vector read at the first. -/
def Tenant.enter (g : Geo) (t : Tenant) (bs : List Byte) (v p : Nat) (cpl : Option (BitVec 3)) : Tenant :=
  let b := t.core.now
  let c := t.core.cpu
  let sp := c.sp - BitVec.ofNat 24 bs.length
  let t := (t.onCpu fun c => { c with sp := sp }).post g (b + p) ((addrs sp bs.length).zip bs)
  { t with core := { t.core with
      now := b + p + 4
      vread := some { cycle := b + p + 1, vec := v, got := none, last := b + p + 3, from_ := c.pc, cpl := cpl } } }

/-- The tenant at a boundary with its next instruction trapping: nothing qualifies as an interrupt. -/
def State.trapReady (s : State) (k : Tn) : Option Tenant :=
  match s.atBoundary k with
  | none => none
  | some t => if t.interrupt.isSome then none else some t

/-- A double trap (R97): the tenant stops as HELD, and TENANT_FAULT carries the vector and the two halves of the
faulting pc as values of the tenant's items. A tenant that a failover has made repeat it is held already. Only RESET
ends this hold, so the module's own hold (R194), which a station's return ends, is over. -/
def State.doubleTrap (s : State) (k : Tn) (t : Tenant) (v : Nat) : State :=
  let pc := t.core.cpu.pc.toNat
  let t' := (t.onCpu fun c => { c with doubleTrap := true })
  let st := if t.redo then t.fld F.TEN_CONT_STATE else 3
  let s' := s.setTenant k ({ t' with redo := false, heldByModule := false }.setFld F.TEN_CONT_STATE st)
  if t.redo then s' else s'.notify 0x0108 [(k.val, v), (k.val, pc % 65536), (k.val, pc / 65536)]

/-- A trap through vector `v` at the tenant's boundary (R95, R96, R97). -/
def State.trap (s : State) (k : Tn) (t : Tenant) (v : Nat) : State :=
  let g := s.geo k
  let c := t.core.cpu
  if c.fT then s.doubleTrap k t v
  else
    let half (a : Addr) : Half := (t.fetchHalf g t.core.now a).getD 0
    let frame := shortFrame (BitVec.ofNat 8 (0x80 + v)) c c.pc
      ++ leBytes 2 (half c.pc) ++ leBytes 2 (half (c.pc + 2))
    s.setTenant k ((t.enter g frame v 5 none).count F.CPU_TRAPS_COUNT)

end Sys2Proof.Machine
end

