-- ==== Sys2Proof/Machine/Pins.lean ====
section
/-! DEFINITION. The field pins (R324 to R331): what drives a pin, its level, which pin maps an input signal,
the outputs of compare channels (R322) and the lanes of PIO channels (R332). -/

namespace Sys2Proof.Machine

/-! Module timers and PIO channels by number. -/

/-- A module timer. -/
def State.mtm (s : State) (i : Nat) : Mt := Store.get Mt.reset s.mt i

/-- The state with a module timer replaced. -/
def State.setMt (s : State) (i : Nat) (m : Mt) : State := { s with mt := Store.set Mt.reset s.mt i m }

/-- A channel of a module timer. -/
def Mt.chan (m : Mt) (j : Nat) : MtCh := Store.get MtCh.reset m.ch j

/-- The timer with a channel replaced. -/
def Mt.setChan (m : Mt) (j : Nat) (c : MtCh) : Mt := { m with ch := Store.set MtCh.reset m.ch j c }

/-- A channel of a PIO engine. -/
def State.pioCh (s : State) (i j : Nat) : PioCh := Store.get PioCh.reset s.pio (32 * i + j)

/-- The state with a PIO channel replaced. -/
def State.setPioCh (s : State) (i j : Nat) (c : PioCh) : State :=
  { s with pio := Store.set PioCh.reset s.pio (32 * i + j) c }

/-- CTRL.EN of an MTM page. -/
def F.MTM_EN (i : Nat) : Fld := ⟨(0xA008 + 0x1000 * i) / 4, 0, 1⟩

/-- CTRL.EN of an FIO page. -/
def F.FIO_EN (b : Nat) : Fld := ⟨(0x12008 + 0x1000 * b) / 4, 0, 1⟩

/-- CTRL.EN of a PIO page. -/
def F.PIO_EN (i : Nat) : Fld := ⟨(0x16008 + 0x1000 * i) / 4, 0, 1⟩

/-- The rotation of the field I/O clock in progress (R332): 160 ns each. -/
def State.rotation (s : State) : Nat := s.tick / 16

/-- A fractional prescaler with divisor `d` takes `n` events (R311): its accumulator and its ticks, at most one an
event. -/
def prescale (d acc n : Nat) : Nat × Nat :=
  let k := min n ((acc + 256 * n) / d)
  (acc + 256 * n - d * k, k)

/-! Compare outputs. -/

/-- A 48-bit register value of a timer from its two halves. -/
def State.halves (s : State) (lo hi : Fld) : Nat := s.fld hi * 2 ^ 32 + s.fld lo

/-- PERIOD of a module timer in use. -/
def State.mtPeriod (s : State) (i : Nat) : Nat := s.halves (F.MTM_PERIOD_LO_PERIOD i) (F.MTM_PERIOD_HI_PERIOD i)

/-- The phase `l` of a compare channel (R322). -/
def State.comparePhase (s : State) (i j : Nat) : Nat :=
  let n := s.mtPeriod i + 1
  let phase := s.halves (F.MTM_PHASE_LO_PHASE i j) (F.MTM_PHASE_HI_PHASE i j)
  (((s.mtm i).count.toNat : Int) - phase).emod n |>.toNat

/-- The level of the compare output of MT`i`.`j` (R317, R322). -/
def State.compareOut (s : State) (i j : Nat) : Bool :=
  let active := s.bit (F.MTM_EN i) && s.fld (F.MTM_CH_CTRL_MODE i j) == 2
    && decide (s.comparePhase i j < s.halves (F.MTM_DUTY_LO_DUTY i j) (F.MTM_DUTY_HI_DUTY i j))
  active != s.bit (F.MTM_CH_CTRL_POL i j)

/-! Lanes. -/

/-- The lane levels and directions of a PIO channel at the pins in rotation `r`: those of steps in an earlier
rotation (R332). -/
def PioCh.shown (c : PioCh) (r : Nat) : BitVec 4 × BitVec 4 :=
  if c.rot < r then (c.lanes, c.dirs) else (c.oldLanes, c.oldDirs)

/-- New lane levels and directions set by a step in rotation `r`. -/
def PioCh.setLanes (c : PioCh) (r : Nat) (lanes dirs : BitVec 4) : PioCh :=
  let (l, d) := c.shown r
  { c with lanes := lanes, dirs := dirs, oldLanes := l, oldDirs := d, rot := r }

/-! What drives a pin. -/

/-- A field of PINCFG of pin `n`. -/
def State.pinFld (s : State) (f : Nat → Nat → Fld) (n : Nat) : Nat := s.fld (f (n / 32) (n % 32))

/-- A bit of a bank word of pin `n`. -/
def State.pinBit (s : State) (f : Nat → Fld) (n : Nat) : Bool := (s.word (f (n / 32)).key).getLsbD (n % 32)

/-- Whether the PSU signals PFW. -/
def State.isPfw (s : State) : Bool := s.bit F.PWR_STATUS_PFW

/-- The beam strobe of timebase `n` (R324): high for 1 µs from each line or frame start. -/
def State.strobe (s : State) (n : Nat) (line : Bool) : Bool :=
  let b := Store.get TbSet.reset s.tb n
  let period := if line then b.lineTicks else b.lines * b.lineTicks
  s.tbRunning n && decide ((s.tick - b.origin) % period < 100)

/-- A square wave of `n` periods in 100,000 ticks, 1 ms. DESIGN CHOICE: each period begins low. -/
def wave (n tick : Nat) : Bool := decide (2 * n * tick / 100000 % 2 = 1)

/-- A sink's I²S or TDM signal (R228): 0 BCLK, 1 LRCLK or the frame pulse, 2 SD. DESIGN CHOICE: a frame begins with the
sink sample, at a fall of BCLK, the first slot of TDM-8 with the frame pulse, and the slots of other sinks are 0. -/
def State.audioSignal (s : State) (i signal : Nat) : Bool :=
  let fmt := s.fld (F.PSH_SINK_CTRL_FMT i)
  let rate := if fmt = 2 then 12288 else 3072
  let b := rate * s.tick / 100000 % (if fmt = 2 then 256 else 64)
  match signal with
  | 0 => wave rate s.tick
  | 1 => if fmt = 2 then b == 0 else if fmt = 1 then decide (b < 32) else decide (32 ≤ b)
  | 2 =>
    let at_ := if fmt = 1 || fmt = 2 then b else (b + 63) % 64
    let slot := if fmt = 2 then 2 * s.fld (F.PSH_SINK_CTRL_TDM_PAIR i) else 0
    let o := (Store.get Sink.reset s.sinks i).out
    let v : Half := if at_ / 32 = slot then BitVec.ofInt 16 o.l else if at_ / 32 = slot + 1 then BitVec.ofInt 16 o.r else 0
    s.bit (F.PSH_SINK_CTRL_EN i) && decide (at_ % 32 < 16) && v.getLsbD (15 - at_ % 32)
  | _ => false

/-- The signal that the function of a pin puts out and its direction (R324). -/
def State.pinSignal (s : State) (n : Nat) : Option Bool :=
  let sel := s.pinFld F.FIO_PINCFG_SEL n
  match s.pinFld F.FIO_PINCFG_FUNC n with
  | 0 => if s.pinBit F.FIO_OE_OE n then some (s.pinBit F.FIO_OUT_OUT n) else none
  | 2 => some (s.compareOut (sel / 8 % 8) (sel % 8))
  | 3 => none
  | 7 => some (s.audioSignal (sel % 8) (sel / 8 % 4))
  | 8 => some (s.strobe (sel % 4) (sel.testBit 2))
  | 9 => some (decide (s.tick % 100000000 < 10000000))
  | 10 => some (wave 12288 s.tick)
  | 11 => some (if sel = 0 then s.bit F.MOD_STATUS_READY else if sel = 1 then s.isPfw else false)
  | f =>
    if f = 1 || (4 ≤ f && f ≤ 6) then
      let (l, d) := (s.pioCh (sel / 128) (sel / 4 % 32)).shown s.rotation
      if s.bit (F.PIO_EN (sel / 128)) && d.getLsbD (sel % 4) then some (l.getLsbD (sel % 4)) else none
    else none

/-- Whether the pin supply is off (R415): in DORMANT, while no feed is present. -/
def State.pinsDead (s : State) : Bool :=
  s.power.mode == .dormant && !s.bit F.PWR_STATUS_FEED_A && !s.bit F.PWR_STATUS_FEED_B

/-- Whether the pins of a bank hold their sleep states (R330): from DORMANT on, until EN of the bank is 1. -/
def State.bankAsleep (s : State) (b : Nat) : Bool := s.pins.asleep.getLsbD b && !s.bit (F.FIO_EN b)

/-- The level to which the module drives a pin, if it drives it (R324, R327, R330, R415). -/
def State.pinDrive (s : State) (n : Nat) : Option Bool :=
  if s.pinsDead then none
  else if s.bankAsleep (n / 32) then
    if s.pins.sleepDrive.getLsbD n then some (s.pins.sleepLevel.getLsbD n) else none
  else if !s.bit (F.FIO_EN (n / 32)) then none
  else
    let od := s.pinFld F.FIO_PINCFG_OD n == 1 || s.pinFld F.FIO_PINCFG_FUNC n == 4
    match s.pinSignal n with
    | some v => if v && od then none else some v
    | none => none

/-- The pull of a pin (R324, R327, R330, R415): up or down. -/
def State.pinPull (s : State) (n : Nat) : Option Bool :=
  if s.pinsDead then none
  else if s.bankAsleep (n / 32) then
    if s.pins.sleepUp.getLsbD n then some true else if s.pins.sleepDown.getLsbD n then some false else none
  else if !s.bit (F.FIO_EN (n / 32)) then none
  else
    match s.pinFld F.FIO_PINCFG_FUNC n with
    | 4 => none
    | 6 => some true
    | _ =>
      match s.pinFld F.FIO_PINCFG_PULL n with
      | 1 => some true
      | 2 => some false
      | _ => none

/-- The level of a pin: the module's, else the venue's, else that of its pull. -/
def State.pinLevel (s : State) (n : Nat) : Bool :=
  match s.pinDrive n with
  | some v => v
  | none =>
    if s.pins.loose.getLsbD n then (s.pinPull n).getD (Config.pinFloat n s.tick) else s.pins.venue.getLsbD n

/-! Input signals. -/

/-- Whether pin `n` maps the capture input of MT`i`.`j`. -/
def State.mapsCapture (s : State) (i j n : Nat) : Bool :=
  s.bit (F.FIO_EN (n / 32)) && s.pinFld F.FIO_PINCFG_FUNC n == 3 && s.pinFld F.FIO_PINCFG_SEL n % 64 == 8 * i + j

/-- Whether the function of a pin maps a PIO lane. -/
def laneFunc (f : Nat) : Bool := f == 1 || (decide (4 ≤ f) && decide (f ≤ 6))

/-- Whether pin `n` maps the input of lane `l` of PE`i`.`j`. -/
def State.mapsLane (s : State) (i j l n : Nat) : Bool :=
  s.bit (F.FIO_EN (n / 32)) && laneFunc (s.pinFld F.FIO_PINCFG_FUNC n)
    && s.pinFld F.FIO_PINCFG_SEL n == 128 * i + 4 * j + l

/-- The one pin that satisfies `maps`; none when no pin or more than one does (R325). -/
def onePin (maps : Nat → Bool) : Option Nat :=
  match (List.range 128).filter maps with
  | [n] => some n
  | _ => none

/-- The level of the capture input of MT`i`.`j`. -/
def State.captureIn (s : State) (i j : Nat) : Bool :=
  match onePin (s.mapsCapture i j) with
  | some n => s.pinLevel n
  | none => false

/-- The capture inputs, by number 8`i` + `j`, that the pins of bank `b` name. -/
def State.captureSels (s : State) (b : Nat) : List Nat :=
  (List.range 32).filterMap fun i =>
    if s.pinFld F.FIO_PINCFG_FUNC (32 * b + i) = 3 then some (s.pinFld F.FIO_PINCFG_SEL (32 * b + i) % 64) else none

/-- The capture inputs `is` whose level is not what it was in `old`: their levels hold from now on (R320). -/
def State.inputsMoved (s old : State) (is : List Nat) : State :=
  is.foldl (fun s x =>
    if s.captureIn (x / 8) (x % 8) = old.captureIn (x / 8) (x % 8) then s
    else { s with pins := { s.pins with since := Store.set 0 s.pins.since x s.tick } }) s

/-- The edge flag of a pin, set by its IRQ mode when its synchronised level has become `v` (R329). -/
def State.flagEdge (s : State) (n : Nat) (v : Bool) : State :=
  let m := s.pinFld F.FIO_PINCFG_IRQ n
  if s.bit (F.FIO_EN (n / 32)) && ((m = 3 && v) || (m = 4 && !v) || m = 5) then
    (s.setBit ⟨(F.FIO_IRQ_FLAG_FLAG (n / 32)).key, n % 32, 1⟩ true).count (F.FIO_EDGES_COUNT (n / 32))
  else s

/-- The synchroniser of a pin follows its level (R326, R329, R414). -/
def State.seePin (s : State) (n : Nat) : State :=
  let v := s.pinLevel n
  if s.pins.seen.getLsbD n = v then s
  else
    let bit : BitVec 128 := 1 <<< n
    { s with pins := { s.pins with seen := s.pins.seen ^^^ bit } }.flagEdge n v

/-- The pins of bank `b` after a write to its page that `old` has not seen (R320, R326). -/
def State.bankWritten (s old : State) (b : Nat) : State :=
  (List.range 32).foldl (fun s i => s.seePin (32 * b + i)) (s.inputsMoved old (old.captureSels b ++ s.captureSels b))

/-- The PIO lanes whose input is high (R325, R332), by number 128`i` + 4`j` + `l`: those that exactly one pin maps, at a
high level. -/
def State.lanesHigh (s : State) : List Nat :=
  let maps := (List.range 128).filter fun n => s.bit (F.FIO_EN (n / 32)) && laneFunc (s.pinFld F.FIO_PINCFG_FUNC n)
  let lane := s.pinFld F.FIO_PINCFG_SEL
  (maps.filter fun n => s.pinLevel n && (maps.filter fun m => lane m == lane n).length == 1).map lane

/-- The sample of lane `l` of PE`i`.`j` in the rotation in progress (R332): taken at its clock 0. -/
def State.laneSample (s : State) (i j l : Nat) : Bool := s.pins.high.contains (128 * i + 4 * j + l)

/-- Whether the samples `now` of a rotation show a rise (or a fall) on a lane against those of the rotation before
(R334). -/
def edgeIn (was now : List Nat) (lane : Nat) (rise : Bool) : Bool :=
  now.contains lane == rise && was.contains lane != rise

/-- Whether the rotation in progress shows the edge `rise` (or a fall) on lane `l` of PE`i`.`j` (R334). -/
def State.laneEdge (s : State) (i j l : Nat) (rise : Bool) : Bool :=
  edgeIn s.pins.was s.pins.high (128 * i + 4 * j + l) rise

/-- Whether pin `n` maps an input signal that another pin maps too (R325). -/
def State.pinConflict (s : State) (n : Nat) : Bool :=
  let sel := s.pinFld F.FIO_PINCFG_SEL n
  let f := s.pinFld F.FIO_PINCFG_FUNC n
  let others (maps : Nat → Bool) : Bool := (List.range 128).any fun m => m != n && maps m
  s.bit (F.FIO_EN (n / 32)) &&
  (if f = 3 then others (s.mapsCapture (sel / 8 % 8) (sel % 8))
   else if laneFunc f then others (s.mapsLane (sel / 128) (sel / 4 % 32) (sel % 4))
   else false)

/-- The interrupt level of pin `n` (R329); in DORMANT the level that bank 0 drives to LANTERN (R331). -/
def State.pinIrq (s : State) (n : Nat) (dormant : Bool) : Bool :=
  let m := s.pinFld F.FIO_PINCFG_IRQ n
  if dormant then
    decide (n < 32) && (((m == 1 || m == 3) && s.pinLevel n) || ((m == 2 || m == 4) && !s.pinLevel n))
  else
    s.bit (F.FIO_EN (n / 32)) &&
    (match m with
     | 1 => s.pinLevel n
     | 2 => !s.pinLevel n
     | 3 => s.pinBit F.FIO_IRQ_FLAG_FLAG n
     | 4 => s.pinBit F.FIO_IRQ_FLAG_FLAG n
     | 5 => s.pinBit F.FIO_IRQ_FLAG_FLAG n
     | _ => false)

end Sys2Proof.Machine
end

