-- ==== Sys2Proof/Machine/Miq.lean ====
section
/-! DEFINITION. The module interrupt controller (R300 to R304) and LANTERN (R305 to R308). The controller is
level-only: a source is pending while its condition holds. -/

namespace Sys2Proof.Machine

/-- The condition bits of a PIO channel (R337): its flags, room in the TX FIFO, a word in the RX FIFO. -/
def State.pioConds (s : State) (i j : Nat) : Nat :=
  let c := s.pioCh i j
  getBits (s.word (F.PIO_FLAGS_STALE i j).key) 0 5 + (if c.tx.length < 4 then 32 else 0) + (if c.rx = [] then 0 else 64)

/-- The level of PIO channel group `g` of PE`i` (R337). -/
def State.pioGroup (s : State) (i g : Nat) : Bool :=
  (List.range 4).any fun x =>
    s.pioConds i (4 * g + x) &&& getBits (s.word (F.PIO_IE_FLAGS_IE i (4 * g + x)).key) 0 7 != 0

/-- The level of a module source (R304). In DORMANT the field is off but for the sources that LANTERN can
watch. -/
def State.srcLevel (s : State) (n : Nat) : Bool :=
  let dormant := s.power.mode == .dormant
  if n < 72 then s.bit ⟨(0x40 + 4 * (n / 32)) / 4, n % 32, 1⟩
  else if n < 80 then s.bit ⟨0x4C / 4, n - 72, 1⟩
  else if n < 96 then s.bit (F.PRT_STATUS_CHG (n - 80))
  else if n < 128 then s.bit (F.STN_STATUS_CHG (n - 96))
  else if n < 192 then
    let i := (n - 128) / 8
    let j := (n - 128) % 8
    getBits (s.word (F.MTM_FLAGS_CAP i j).key) 0 3 &&& s.fld (F.MTM_CH_CTRL_IE i j) != 0
  else if n < 320 then s.pinIrq (n - 192) dormant
  else if n < 352 then s.pioGroup ((n - 320) / 8) ((n - 320) % 8)
  else if n = 352 then s.isPfw
  else if n = 353 then s.bit F.PWR_STATUS_FEED_A_CHG
  else if n = 354 then s.bit F.PWR_STATUS_FEED_B_CHG
  else if n = 355 then s.bit F.RTC_STATUS_ALARM && s.bit F.RTC_ALARM_CTRL_IE_ALARM
  else if n = 356 then
    (s.bit F.RTC_STATUS_CAL_REJECT || s.bit F.RTC_STATUS_CENTURY_WRAP) && s.bit F.RTC_ALARM_CTRL_IE_FLAGS
  else if n = 357 then s.bit F.NVS_STATUS_PFW || s.bit F.NVS_STATUS_WRITE_FAIL
  else if n = 358 then s.bit F.FWU_STATUS_NOTICE
  else if n = 359 then s.bit F.PNL_STATUS_INTERRUPTED
  else if n = 360 then s.cont.fencedStacks.contains 0
  else if n = 361 then s.cont.fencedStacks.contains 1
  else if n = 362 then s.bit F.GTE_STATUS_DROP_SEEN
  else if n = 363 then s.bit F.MOD_CONT_STATUS_SUP_TAKEOVER
  else if n = 364 then if dormant then s.power.wakeDrive != 0 else s.bit F.GTE_STATUS_WAKE_RX
  else false

/-- A field of MIQ.SRC or MIQ.TH in use: as it stood when the gate cycle began (R303). -/
def State.miqFld (s : State) (f : Fld) : Nat := getBits (s.wordBefore f.key) f.lo f.w

/-- The threshold of a TARGET (R300): 1 SUP-A, 2 SUP-B, 3 EVENT. -/
def State.threshold (s : State) (target : Nat) : Nat :=
  if target = 1 then s.miqFld F.MIQ_TH_TH_SUPA
  else if target = 2 then s.miqFld F.MIQ_TH_TH_SUPB
  else s.miqFld F.MIQ_TH_TH_EVENT

/-- Whether a source qualifies for a target (R300). -/
def State.qualifies (s : State) (target n : Nat) : Bool :=
  s.miqFld (F.MIQ_SRC_TARGET n) == target && decide (1 ≤ s.miqFld (F.MIQ_SRC_PRIO n))
    && decide (s.threshold target < s.miqFld (F.MIQ_SRC_PRIO n)) && s.srcLevel n

/-- The interrupt input of supervisor A (1) or B (2) (R300). -/
def State.supInput (s : State) (target : Nat) : Bool := (List.range 512).any (s.qualifies target)

/-- The next gate cycle begins: what the accesses of the last one did is complete (R6, R7, R45, R48, R49, R303). -/
def State.newCycle (s : State) : State :=
  { s with bus := { s.bus with wrote := [], owners := [], counts := [], before := s.regs } }

/-- The next gate cycle begins, and the host sources that no longer qualify will raise an EVENT again (R301): a drop
within one gate cycle is not seen. Every command that can change a level, and is no page-bus access, ends with this. -/
def State.settle (s : State) : State :=
  let s := s.newCycle
  { s with miq := s.miq.filter (s.qualifies 3) }

/-- The next start of a line or frame of timebase `n` after tick `a`, and the next fall of its strobe (R324). -/
def State.strobeTicks (s : State) (n : Nat) (line : Bool) (a : Nat) : List Nat :=
  let b := Store.get TbSet.reset s.tb n
  let period := if line then b.lineTicks else b.lines * b.lineTicks
  let from_ := b.origin + (a - b.origin) / period * period
  if a < b.origin then [b.origin, b.origin + 100] else [from_ + 100, from_ + period, from_ + period + 100]

/-- Ticks after `a` and up to `b` at which the level of a pin that a clock of the module drives is seen at both its
values, if it takes both in that time: the edges of strobes and of the PTP pulse, and every tick of an audio frame. -/
def State.pinTicks (s : State) (a b : Nat) : List Nat :=
  let strobes := (List.range 4).flatMap fun n => s.strobeTicks n true a ++ s.strobeTicks n false a
  let second := a / 100000000 * 100000000
  let pulses := [second + 10000000, second + 100000000, second + 110000000]
  (((List.range (min (b - a) 2084)).map fun i => a + 1 + i) ++ strobes ++ pulses).filter fun x => a < x && x ≤ b

/-- Whether a source of the pins does not qualify at some tick up to `tick` (R301): its condition has dropped, for many
gate cycles, also where it holds again at `tick`. -/
def State.drops (s : State) (tick n : Nat) : Bool :=
  192 ≤ n && n < 320 && (s.pinTicks s.tick tick).any fun x => !{ s with tick := x }.qualifies 3 n

/-- The EVENT of a module source (R301). For HOST-A, EVENTs of sources that wait beyond 256 are not queued,
and are sent again when room returns (R347). -/
def State.sourceEvent (s : State) (n : Nat) : State :=
  let m : HostMsg := .event 1 (BitVec.ofNat 16 n) (BitVec.ofNat 8 (s.miqFld (F.MIQ_SRC_VECTOR n))) []
  let waiting := (s.gate.held.filter fun h => match h with
    | .event 1 _ _ _ => true
    | _ => false).length
  let s := if s.bit F.GTE_CTRL_EVT_A then
      if 256 ≤ waiting then { s with gate := { s.gate with missed := s.gate.missed ++ [n] } } else s.toHost .a m
    else s
  if s.bit F.GTE_CTRL_EVT_B then s.toHost .b m else s

/-- Whether a module source qualifies whose EVENT has not been sent (R301). -/
def State.eventDue (s : State) (n : Nat) : Bool := s.qualifies 3 n && !s.miq.contains n

/-- The EVENT of a module source that begins to qualify (R301). -/
def State.raiseEvent (s : State) (n : Nat) : State :=
  { s with miq := s.miq ++ [n] }.sourceEvent n |>.count F.MIQ_EVENTS_SENT_COUNT

/-- A module source with TARGET EVENT begins to qualify (R301): it is judged by the MIQ entries in use in this gate
cycle, and else by those of the next (R303). -/
def execEvent (n : Fin 512) (s : State) : Out :=
  if s.eventDue n then .next (s.raiseEvent n)
  else if s.settle.eventDue n then .next (s.settle.raiseEvent n)
  else .next s.settle

/-! LANTERN. -/

/-- Whether a module source can wake the module (R304). -/
def wakeCapable (n : Nat) : Bool :=
  (192 ≤ n && n < 224) || n == 353 || n == 354 || n == 355 || n == 364

/-- Whether selection `i` acts: it is enabled and names a wake-capable source (R305). -/
def State.selActs (s : State) (i : Nat) : Bool :=
  s.bit (F.LAN_SEL_EN i) && wakeCapable (s.fld (F.LAN_SEL_SOURCE i))

/-- The level of selection `i`, while it acts. -/
def State.selLevel (s : State) (i : Nat) : Bool := s.selActs i && s.srcLevel (s.fld (F.LAN_SEL_SOURCE i))

/-- LANTERN records the selections `is`, in rising order, that it recognises at one sample (R307). -/
def State.lanternRecord (s : State) : List Nat → State
  | [] => s
  | i :: is =>
    let s := (i :: is).foldl (fun s j => s.setBit ⟨F.LAN_HIT_HIT.key, j, 1⟩ true) s
    if s.bit F.LAN_CAUSE_VALID then s
    else ((s.setFld F.LAN_CAUSE_SOURCE (s.fld (F.LAN_SEL_SOURCE i))).setFld F.LAN_CAUSE_SEL i).setBit F.LAN_CAUSE_VALID true

/-- The successive samples at which a selection has been high, up to 3, at one more sample. A level that has been
recognised stays so until the module starts. -/
def State.lanCount (s : State) (i : Nat) : Nat :=
  let old := Store.get 0 s.lan i
  if 3 ≤ old then old else if s.selLevel i then old + 1 else 0

/-- LANTERN's sample of the selected levels in DORMANT (R306, R307). An accepted WAKE drives its source for 1 ms, 32
samples (R351). -/
def State.lanternSample (s : State) : State :=
  let new := (List.range 32).filter fun i => Store.get 0 s.lan i < 3 && s.lanCount i == 3
  let lan := (List.range 32).foldl (fun l i => Store.set 0 l i (s.lanCount i)) s.lan
  { s with lan := lan, power := { s.power with wakeDrive := s.power.wakeDrive - 1 } }.lanternRecord new

/-- The selections whose level has held long enough to be recognised (R306). A level is recognised at its third
successive sample, when it has held for more than two LANTERN clocks, 61.0 µs, and at most three, 91.6 µs. -/
def State.recognised (s : State) : List Nat := (List.range 32).filter fun i => decide (3 ≤ Store.get 0 s.lan i)

/-- The wake counted as the module leaves DORMANT (R307). -/
def State.lanternWake (s : State) : State :=
  { s with lan := [] }.setFld F.LAN_DORMANT_WAKES_COUNT (min 65535 (s.fld F.LAN_DORMANT_WAKES_COUNT + 1))

end Sys2Proof.Machine
end

