-- ==== Sys2Proof/Machine/PioClock.lean ====
section
/-! DEFINITION. The rotations of the field I/O clock (R332, R333, R336): the turns of the PIO channels' prescalers, and
what happens at clock 0 of a rotation. -/

namespace Sys2Proof.Machine

/-- The divisor of a channel's prescaler (R311). -/
def State.pioDiv (s : State) (i j : Nat) : Nat := max 256 (256 * s.fld (F.PIO_DIV_N i j) + s.fld (F.PIO_DIV_F i j))

/-- Whether a channel runs (R337). -/
def State.pioRuns (s : State) (i j : Nat) : Bool :=
  s.bit (F.PIO_EN i) && (s.word (F.PIO_RUN_RUN i).key).getLsbD j

/-- RUN of a channel set or cleared; STATUS.ANY_RUN follows. -/
def State.setRun (s : State) (i j : Nat) (b : Bool) : State :=
  let s := s.setBit ⟨(F.PIO_RUN_RUN i).key, j, 1⟩ b
  s.setBit (F.PIO_STATUS_ANY_RUN i) (s.word (F.PIO_RUN_RUN i).key != 0)

/-- The number of instructions of a channel's program. -/
def State.pioLen (s : State) (i j : Nat) : Nat := s.fld (F.PIO_CH_CFG_LEN_M1 i j) + 1

/-- Entry `e` of the instruction memory of PE`i`: a write applies from the next rotation (R333). -/
def State.imem (s : State) (i e : Nat) : Nat :=
  let f := Fld.ofByte (0x16100 + 0x1000 * i + 2 * (e % 1024)) 0 16
  getBits ((Store.find? s.pins.imem f.key).getD (s.word f.key)) f.lo f.w

/-- The current instruction of a channel. -/
def State.pioInstr (s : State) (i j : Nat) : Nat :=
  s.imem i (s.fld (F.PIO_CH_CFG_BASE i j) + s.fld (F.PIO_PC_OFFSET i j))

/-- A field of an instruction. -/
def ifld (w lo n : Nat) : Nat := w / 2 ^ lo % 2 ^ n

/-- The turns of channel `j` up to the present (R332): its turn in a rotation comes at clock `j`, tick `j` / 2 of the
rotation. -/
def State.turnsOf (s : State) (j : Nat) : Nat := (s.tick + 16 - j / 2) / 16

/-- The turns of a channel's prescaler counted up to the present; of a channel that does not run, the ticks
pass. -/
def State.pioSync (s : State) (i j : Nat) : State :=
  let c := s.pioCh i j
  let (acc, k) := prescale (s.pioDiv i j) c.acc (s.turnsOf j - c.turns)
  s.setPioCh i j { c with acc := acc, owed := if s.pioRuns i j then c.owed + k else 0, turns := max c.turns (s.turnsOf j) }

/-- A group register's effect on a channel, when the rotation after the one in progress begins (R336). -/
def State.pioAct (s : State) : PioAct → State
  | .start i j =>
    let s := s.pioSync i j
    let s := s.setPioCh i j { s.pioCh i j with acc := 0, owed := 0, txs := 0, rxs := 0, wait := .none }
    let s := (s.setWord (F.PIO_PC_OFFSET i j).key 0).setWord (F.PIO_SHIFT_TX_COUNT i j).key 0
    ((s.setFld (F.PIO_K0_COUNT i j) 0).setFld (F.PIO_K1_COUNT i j) 0).setRun i j true
  | .stop i j => (s.pioSync i j).setRun i j false
  | .restart i j =>
    let s := s.pioSync i j
    s.setPioCh i j { s.pioCh i j with acc := 0 }

/-- The edge WAITs whose edge the rotation with the samples `now` shows (R334). -/
def State.pioEdges (s : State) (now : List Nat) : State :=
  { s with pio := s.pio.map fun (n, c) =>
      let w := s.pioInstr (n / 32) (n % 32)
      let seen := c.wait == .edge false && edgeIn s.pins.high now (4 * n + ifld w 0 2) (ifld w 10 2 == 2)
      (n, if seen then { c with wait := .edge true } else c) }

/-- Rotations begin, up to rotation `r` (R332, R333, R336): at clock 0 of the first of them the lanes are sampled, the
group registers take effect, ahead of its turns, and the instruction memory is as written. -/
def State.newRotation (s : State) (r : Nat) : State :=
  let b := s.rotation + 1
  let now := { s with tick := 16 * b }.lanesHigh
  let ended := s.pins.acts.foldl State.pioAct { s.pioEdges now with tick := 16 * b - 1 }
  { ended with tick := s.tick, pins := { s.pins with
    high := now, was := if r = b then s.pins.high else now, acts := [], imem := [] } }

end Sys2Proof.Machine
end

