-- ==== Sys2Proof/Machine/TenantTime.lean ====
section
/-! DEFINITION. How tenant time passes: the inputs that enter at a line start (R80, R81), the line and
the frame start (R64, R146, R150), pacing and lateness (R69 to R73), rings, their commit and the mirror
stream (R271 to R280). -/

namespace Sys2Proof.Machine

/-! Inputs. -/

/-- A module-view write to a tenant page as the tenant-view bytes it writes: tenant address and byte
(R33). Only bytes that the tenant view has. -/
def viewBytes (key : Nat) (mask data : Word) : List (Addr × Byte) :=
  let k := 4 * key / 0x1000
  let off := 4 * key % 0x1000
  (List.range 4).filterMap fun i =>
    let o := off + i
    let x := if 0x24 ≤ o && o < 0xA0 then some (o - 0x20)
      else if 0x100 ≤ o && o < 0x180 then some (o - 0x80) else none
    if byteOf mask i = 0 then none
    else x.map fun x => (BitVec.ofNat 24 (0xF000 + 0x100 * k + x), byteOf data i)

/-- A module-view write to a word of a tenant's pages, as it enters at cycle `e` (R14, R35). -/
def Tenant.enterWrite (g : Geo) (t : Tenant) (e key : Nat) (mask data : Word) : Tenant :=
  if 4 * key % 0x1000 = 8 then
    let t := (t.syncPage g e (4 * key / 0x1000)).storeWord e (g.effectPos e) key mask data
    if key = F.MIX_CTRL_SWAP.key && mask.getLsbD F.MIX_CTRL_SWAP.lo && data.getLsbD F.MIX_CTRL_SWAP.lo then
      t.setBit F.MIX_STATUS_SWAP_PENDING true
    else t
  else if key = F.BLT_QUOTA_MPIX.key then t.storeWord e (g.effectPos e) key mask data
  else
    let ws := viewBytes key mask data
    if ws = [] then t else t.ioStore g e ws

/-- A byte of the tenant's pages set. -/
def Tenant.setByte (t : Tenant) (off : Nat) (v : Byte) : Tenant :=
  t.setFld ⟨off / 4, 8 * (off % 4), 8⟩ v.toNat

/-- Bytes of the tenant's pages set from an offset up. -/
def Tenant.setBytes (t : Tenant) (off : Nat) : List Byte → Tenant
  | [] => t
  | b :: bs => (t.setByte off b).setBytes (off + 1) bs

/-- A mailbox message (R341): its length, and its bytes followed by zeros. -/
def Tenant.enterMail (t : Tenant) (data : List Byte) : Tenant :=
  (t.setByte 0x7F (BitVec.ofNat 8 data.length)).setBytes 0x80
    ((data ++ List.replicate 32 0).take 32)

/-- A save-commit completion (R359). -/
def Tenant.enterSave (t : Tenant) (e : Nat) (ok : Bool) : Tenant :=
  let t := t.hwSet e F.SAV_FLAGS_DONE 1
  let t := if ok then t else t.hwSet e F.SAV_FLAGS_ERR 1
  (t.setFld F.SAV_COMMIT_NO_COUNT (t.fld F.SAV_COMMIT_NO_COUNT + 1)).count F.SAV_COMMITS_COUNT

/-- An input report applied to its block, or dropped while INP.CTRL.EN is 0 (R197). -/
def Tenant.enterReport (g : Geo) (t : Tenant) (e : Nat) (r : Report) : Tenant :=
  if t.bit ⟨0x9008 / 4, 0, 1⟩ then
    let base := 0xEC00 + 256 * r.slot
    let no : Half := (t.core.ramByte (base + 1) ++ t.core.ramByte base) + 1
    let bytes := leBytes 2 no ++ [BitVec.ofNat 8 r.data.length, t.core.ramByte (base + 3)]
      ++ (r.data ++ List.replicate 252 0).take 252
    (t.pokeAll g e ((addrs (BitVec.ofNat 24 base) 256).zip bytes)).count F.INP_REPORTS_COUNT
  else t.count F.INP_DROPPED_COUNT

/-- The PRESENT bits of the blocks at the input line (R197). -/
def Tenant.enterPresent (g : Geo) (t : Tenant) (e : Nat) (bits : BitVec 4) : Tenant :=
  if t.bit ⟨0x9008 / 4, 0, 1⟩ then
    let ws := (List.range 4).map fun k =>
      (BitVec.ofNat 24 (0xEC03 + 256 * k), if bits.getLsbD k then (1 : Byte) else 0)
    (t.pokeAll g e ws).setFld F.INP_STATUS_PRESENT bits.toNat
  else t

/-- An input that enters at cycle `e`. A termination of a channel's item enters at its burst, and a
stop or a continuation of tenant time has no effect on registers or memory. -/
def Tenant.enter1 (g : Geo) (e : Nat) (t : Tenant) : Input → Tenant
  | .write key mask data => t.enterWrite g e key mask data
  | .mail data => t.enterMail data
  | .saveDone ok => t.enterSave e ok
  | .report r => t.enterReport g e r
  | .present b => t.enterPresent g e b
  | .calendar c => t.setBytes 0x70 (leBytes 9 c)
  | .dmaFault _ _ => t
  | .hold => t
  | .resume => t
  | .park => t
  | .unpark => t

/-- A report accepted for a tenant: at most 8 per entry wait, the oldest is dropped (R198). -/
def Tenant.queueReport (t : Tenant) (r : Report) : Tenant :=
  let mine := t.reports.filter fun x => x.ent == r.ent
  if 8 ≤ mine.length then
    match mine with
    | x :: _ => { t with reports := t.reports.erase x ++ [r] }.count F.INP_OVERRUNS_COUNT
    | [] => t
  else { t with reports := t.reports ++ [r] }

/-- The order of inputs that enter at one point (R81). -/
def Input.order : Input → Nat
  | .hold | .resume | .park | .unpark | .dmaFault _ _ => 0
  | .write _ _ _ => 1
  | .mail _ => 2
  | .saveDone _ => 3
  | .report _ => 4
  | .present _ => 5
  | .calendar _ => 6

/-- Inputs in the order of R81; within one kind the order of arrival stays. -/
def sortInputs (is : List Input) : List Input :=
  (List.range 7).flatMap fun n => is.filter fun i => i.order == n

/-- An entry recorded in the journal and sent in the mirror stream (R80, R274). -/
def Tenant.note (t : Tenant) (l : Nat) (i : Input) : Tenant :=
  let e : JEntry := ⟨l, i⟩
  { t with
    journal := t.journal ++ [e]
    mirror := t.mirror.map fun m => if m.live then { m with stream := m.stream ++ [.journal e] } else m }

/-- Whether an input is a stop of tenant time, which precedes the start of its line (R73, R74). -/
def Input.isStop : Input → Bool
  | .hold => true
  | .park => true
  | _ => false

/-- Whether an input enters at a burst and not at a line start. -/
def Input.isFault : Input → Bool
  | .dmaFault _ _ => true
  | _ => false

/-- Whether an input is a calendar snapshot. -/
def Input.isCalendar : Input → Bool
  | .calendar _ => true
  | _ => false

/-- Whether an input says which stations are present. -/
def Input.isPresent : Input → Bool
  | .present _ => true
  | _ => false

/-- The inputs that enter at the start of absolute line `l`, and the tenant without them: on replay, up to the end of
the journal, those of the journal (R82), otherwise those that wait and, at the input line, the accepted reports. A
frame start has its calendar snapshot and its continuation, and an input line its stations, from the journal or anew
where the journal ends before them. -/
def Tenant.takeInputs (g : Geo) (t : Tenant) (l : Nat) (cal : BitVec 72) (present : BitVec 4) :
    List Input × Tenant :=
  let atInput := l % g.lines = g.inputLine
  let atFrame := l % g.lines = 0
  let mine := (t.replay.filter fun e => e.line = l && !e.input.isFault).map JEntry.input
  let replays := mine.any (fun i => !i.isStop) || t.replay.any fun e => l < e.line
  let is := mine ++ (if atFrame then t.resumeJ else []) ++ (if replays then [] else t.inputs)
    ++ (if atInput && !replays then t.reports.map .report else [])
    ++ (if atInput && !mine.any Input.isPresent then [.present present] else [])
    ++ (if atFrame && !mine.any Input.isCalendar then [.calendar cal] else [])
  (sortInputs is, { t with
    replay := t.replay.filter fun e => l < e.line || e.input.isFault
    inputs := if replays then t.inputs else []
    reports := if atInput && !replays then [] else t.reports
    resumeJ := if atFrame then [] else t.resumeJ })

/-- The inputs of line `l` applied at its first cycle `e`, journaled (R80, R81). -/
def Tenant.enterInputs (g : Geo) (t : Tenant) (l e : Nat) (cal : BitVec 72) (present : BitVec 4) :
    Tenant :=
  let (is, t) := t.takeInputs g l cal present
  is.foldl (fun t i => (t.note l i).enter1 g e i) t

/-! Line and frame starts. -/

/-- The palette bytes of a tenant's memory, the fourth byte of each entry left out (R147, R148). -/
def Core.palNow (c : Core) : Memory :=
  (List.range 1024).foldl (fun m i =>
    if i % 4 = 3 then m else memSet m i (c.ramByte (0xE800 + i))) []

/-- The palette snapshot at the start of a frame (R146, R147). -/
def Tenant.snapPalette (t : Tenant) (frame : Nat) : Tenant :=
  if t.bit ⟨0x3008 / 4, 0, 1⟩ then
    let now := t.core.palNow
    let changed := (List.range 256).filter fun i =>
      !t.core.palValid || (List.range 3).any fun j =>
        memGet now (4 * i + j) != memGet t.core.palBytes (4 * i + j)
    let t := { t with core := { t.core with
        palBytes := now, palValid := true, pal := t.core.pal ++ [({ frame := frame, bytes := now, changed := changed } : PalSnap)] } }
    let t := t.setBit F.PAL_STATUS_PENDING false
    if changed = [] then t else t.count F.PAL_SNAPSHOTS_COUNT
  else { t with core := { t.core with palValid := false } }

/-- The reset entry at cycle 0 of frame 0 (R91): vector 0 from the first bytes of the image. -/
def Tenant.resetEntry (g : Geo) (t : Tenant) : Tenant :=
  let t := t.onCpu fun _ => Cpu.reset
  let (t, bs) := t.vectorRead g 0 (addrs 0x20000 4)
  let t := t.onCpu fun c => c.setPc (leVec 24 bs)
  { t with core := { t.core with now := 4, entered := true } }

/-- The count of timer `k` at the line end before a line that starts at cycle `e` (R316): a tick at `e` keeps the
count before it. -/
def Tenant.holdCount (t : Tenant) (k e : Nat) : Tenant :=
  let x := t.core.timer k
  if x.upTo ≤ e then { t with core := t.core.setTimer k { x with lineCount := x.count } } else t

/-- The start of absolute line `begun` at its first cycle `e`: inputs, samplings of the frame, the
pixel quota, the sprite table for the line's evaluation, the DMA requests. -/
def Tenant.beginLine (g : Geo) (t : Tenant) (e : Nat) (cal : BitVec 72) (present : BitVec 4) : Tenant :=
  let l := t.core.begun
  let t := (t.holdCount 0 e |>.holdCount 1 e |>.holdCount 2 e |>.holdCount 3 e).enterInputs g l e cal present
  let t := if l % g.lines = 0 then (t.snapPalette (l / g.lines)).rasterSample e l else t
  let t := if t.core.entered then t else t.resetEntry g
  let t := if l = 0 then { t with core := { t.core with bal := t.ppl g } } else t.refillQuota g e
  let sat := if l % g.lines < g.h then t.core.satNow else t.core.sat
  let t := { t with core := { t.core with begun := l + 1, sat := sat } }
  let t := (t.setFld F.TEN_BEAM_LINE (l % g.lines)).setFld F.TEN_BEAM_FRAME (l / g.lines)
  t.lineRequests g e

/-! Wall time. -/

/-- The wall-clock start of absolute line `l` of a tenant (R69); lines before the last binding's have
that of the one before (R73). -/
def Tenant.lineTick (g : Geo) (t : Tenant) (l : Nat) : Nat :=
  if t.bindLine ≤ l then t.bindTick + (l - t.bindLine) * g.lineTicks
  else t.oldTick + (l - t.oldLine) * g.lineTicks

/-- The wall-clock tick to which the binding maps a tenant cycle (R222). -/
def Tenant.cycleTick (g : Geo) (t : Tenant) (c : Nat) : Nat :=
  t.lineTick g (g.lineOf c) + g.lineCyc c * g.lineTicks / g.cpl

/-- The earliest tick at which a tenant begins line `l` (R70). -/
def Tenant.release (g : Geo) (t : Tenant) (l : Nat) : Nat := t.lineTick g l - g.lead * g.lineTicks

/-- The first tick from `from_` on at which a frame of a timebase starts (R57, R69). -/
def TbSet.frameFrom (b : TbSet) (from_ : Nat) : Nat :=
  b.origin + ceilDiv (from_ - b.origin) (b.lines * b.lineTicks) * (b.lines * b.lineTicks)

/-- Lines by which a running tenant is behind at a tick (R72). -/
def Tenant.lagAt (g : Geo) (t : Tenant) (tick : Nat) : Nat :=
  t.bindLine + (tick - t.bindTick) / g.lineTicks - t.core.begun

/-- TEN.LAG, MAX_LAG and TENANT_LAG at the current tick (R72). -/
def State.updateLag (s : State) (k : Nat) : State :=
  let g := s.geo k
  let t := s.tenant k
  if t.fld F.TEN_CONT_STATE = 2 && t.bindTick ≤ s.tick then
    let lag := min 65535 (t.lagAt g s.tick)
    let t := t.setFld F.TEN_LAG_LAG_LINES lag
    let t := t.setFld F.TEN_MAX_LAG_COUNT (max (t.fld F.TEN_MAX_LAG_COUNT) lag)
    if lag = 0 then s.setTenant k { t with lagWarned := false }
    else if g.lagWarn != 0 && g.lagWarn < lag && !t.lagWarned then
      (s.setTenant k { t with lagWarned := true }).notify 0x0109 [(k, lag)]
    else s.setTenant k t
  else s.setTenant k ({ t with lagWarned := false }.setFld F.TEN_LAG_LAG_LINES 0)

/-- The calendar snapshot (R368): hundredths, seconds, minutes, hours, weekday, day, month, year, in
BCD. -/
def State.calendar (s : State) : BitVec 72 :=
  let w := F.RTC_TIME_HUND.key
  let time := s.word w
  let date := s.word F.RTC_DATE_DAY.key
  leVec 72 (leBytes 4 time ++ [BitVec.ofNat 8 (getBits date 13 3), BitVec.ofNat 8 (getBits date 0 8),
    BitVec.ofNat 8 (getBits date 8 5)] ++ leBytes 2 (date.extractLsb' 16 16))

/-- Whether station entry `n` is present (STATE 2) and enabled for a tenant, and its slot. -/
def State.entSlot (s : State) (n k : Nat) : Option Nat :=
  let i := n / 64
  let j := n % 64
  if s.bit (F.STN_ENT_CTRL_EN i j) && s.fld (F.STN_ENT_CTRL_TENANT i j) = k
      && s.fld (F.STN_STATE_STATE i j) = 2 then some (s.fld (F.STN_ENT_CTRL_SLOT i j)) else none

/-- The blocks whose stations are present (R197). -/
def State.presentBits (s : State) (k : Nat) : BitVec 4 :=
  BitVec.ofNat 4 ((List.range 2048).foldl (fun n e =>
    match s.entSlot e k with
    | some j => n ||| 2 ^ j
    | none => n) 0)

/-- Whether a tenant's context waits because its seven line buffers are full and its last line is not
rendered (R163). -/
def Tenant.buffersFull (g : Geo) (t : Tenant) : Bool :=
  7 ≤ t.bufs.length && decide (g.canvasFrom t.rendered < t.core.begun)

/-! What contexts wait for. -/

/-- Whether a shared unit holds the context back (R232). -/
def Tenant.unitLate (g : Geo) (t : Tenant) : Bool :=
  [Ev.dma 0, Ev.dma 1, Ev.trail, Ev.qdm, Ev.sav].any fun x => match t.due g x with
    | some c => decide (c ≤ t.core.now)
    | none => false

/-- What a tenant's context waits for (R25): of several, a ring commit, line buffers, the journal or a credit, the pace,
a shared unit, WAIT or FENCE, in that order. -/
def State.waitingOn (s : State) (k : Nat) : Nat :=
  let t := s.tenant k
  let g := s.geo k
  let line := (t.ready g .line).isSome
  if t.fld F.TEN_CONT_STATE != 2 then 5
  else if t.ring.isSome then 6
  else if (line && t.buffersFull g) || !t.journaled || s.mirrorStalled k then 3
  else if line && s.tick < t.release g t.core.begun then 1
  else if t.unitLate g then 4
  else if t.waiting then 2
  else 0

/-- The ready contexts of every engine, in the sample that the engines take once per µs (R25). -/
def State.sampleReady (s : State) : State :=
  { s with ready := s.tenants.foldl (fun n (k, t) => match Tenant.engine t with
      | some e => if !t.waitPromotion && s.waitingOn k == 0 then Store.set 0 n e (Store.get 0 n e + 1) else n
      | none => n) [] }

/-- The module's wall clock moved on to a tick, if it is not past it. Each µs the engines sample their contexts, a set of
the calendar applies at a LANTERN tick (R364), and the gate cycle in progress ends. -/
def State.advance (s : State) (tick : Nat) : State :=
  if tick ≤ s.tick then s
  else
    let s := { s with miq := s.miq.filter fun n => !s.drops tick n }
    let s := if lanternTicks s.tick < lanternTicks tick then s.rtcTick else s
    let s := if s.rotation < tick / 16 then s.newRotation (tick / 16) else s
    let s := if s.tick / 100 < tick / 100 then { s with tick := tick / 100 * 100 }.sampleReady else s
    { s with tick := tick }.settle

/-- The tenant made ready for the start of its next line at tick `at_`, and the cycle, when that line
starts a frame or not as `frame` says. -/
def State.lineReady (s : State) (k at_ : Nat) (frame : Bool) : Option (Tenant × Nat) :=
  let g := s.geo k
  let t := s.tenant k
  if t.executes && decide (t.core.begun % g.lines = 0) == frame && !t.buffersFull g then
    match t.ready g .line with
    | some (t', e) => if t.release g t.core.begun ≤ max s.tick at_ then some (t', e) else none
    | none => none
  else none

/-- A tenant whose tenant time stops at a frame start (R73, R74). -/
def Tenant.stopAt (t : Tenant) : Tenant :=
  match t.stop with
  | .none => t
  | .hold => ({ t with stop := .none }.note t.core.begun .hold).setFld F.TEN_CONT_STATE 3
  | .park => ({ t with stop := .none }.note t.core.begun .park).setFld F.TEN_CONT_STATE 4

/-- Tenant time of tenant `k` stops at its frame start, at tick `at_` (R73, R74). Its lag is judged before, while it is
RUNNING, and is 0 after (R72). -/
def State.stopTenant (s : State) (k at_ : Nat) : State :=
  let s := (s.advance at_).updateLag k
  (s.setTenant k (s.tenant k).stopAt).updateLag k

/-- Tenant `k`, made ready as `t`, begins its line at cycle `e` and tick `at_`. Its lag is judged before, where it
is greatest, and after (R72). -/
def State.startLine (s : State) (k at_ : Nat) (t : Tenant) (e : Nat) (cal : BitVec 72) : State :=
  let s := ((s.advance at_).setTenant k t).updateLag k
  let g := s.geo k
  let t := s.tenant k
  let present := if t.core.begun % g.lines = g.inputLine then s.presentBits k else 0
  (s.setTenant k (t.beginLine g e cal present)).updateLag k

/-- The start of a tenant line that starts no frame (R64, R70, R80). -/
def execTenantLineStart (k : Tn) (at_ : Nat) (s : State) : Out :=
  match s.lineReady k at_ false with
  | none => .next s
  | some (t, e) => .next (s.startLine k at_ t e 0)

/-- The start of a tenant frame (R73, R74, R80, R91, R146, R150): a pending stop takes effect in place
of it. -/
def execTenantFrameStart (k : Tn) (at_ : Nat) (s : State) : Out :=
  let g := s.geo k
  let t := s.tenant k
  let due := match t.ready g .line with
    | some _ => true
    | none => false
  if t.executes && t.core.begun % g.lines = 0 && t.stop != .none && t.ring.isNone && due then
    .next (s.stopTenant k at_)
  else
    match s.lineReady k at_ true with
    | none => .next s
    | some (t, e) => .next (s.startLine k at_ t e s.calendar)

/-- The wall clock reaches LEAD lines before the start of a waiting tenant's next line (R70). -/
def execPaceRelease (k : Tn) (at_ : Nat) (s : State) : Out :=
  let g := s.geo k
  let t := s.tenant k
  if t.executes && t.core.begun * g.cpl ≤ t.core.now && s.tick < t.release g t.core.begun
      && t.release g t.core.begun ≤ at_ then .next ((s.advance at_).updateLag k)
  else .next s

/-! Rings. -/

/-- The ring point after the one at cycle `r` (R271). -/
def Geo.ringAfter (g : Geo) (r : Nat) : Nat :=
  if 3200 < g.lineTicks && r % g.cpl = 0 && 2 ≤ g.cpl then r + g.cpl / 2 else (r / g.cpl + 1) * g.cpl

/-- The CPU at the end of the instruction or entry sequence in progress (R106), as it stands now: without inputs that
enter at the line start at which it reads its vector. -/
def Tenant.endCpu (g : Geo) (t : Tenant) : Cpu :=
  ({ t with core := { t.core with begun := t.core.begun + 1 } }.prepTo g (t.core.now + 1) 0).core.cpu

/-- A ring taken in the tenant (R271, R273): its state is captured and the marker sent. Within an instruction or an
entry sequence the captured state holds what is left of it. -/
def Tenant.takeRing (g : Geo) (t : Tenant) (next closed : Nat) : Tenant :=
  let no := t.core.ringNo
  let c := { t.core with nextRing := next, ringNo := no + 1 }
  { t with
    core := c, ring := some ⟨no, c, t.endCpu g, closed, t.journal.length⟩
    mirror := t.mirror.map fun m => if m.live then { m with stream := m.stream ++ [.marker no] } else m }

/-- A heartbeat of an engine (R284). -/
def State.heartbeat (s : State) (e : Nat) : State :=
  (s.count (F.ENG_HEARTBEATS_COUNT e)).setBit (F.ENG_STATUS_HB_IDLE e) false

/-- The state with something done for the engine of a tenant. -/
def State.onEngine (s : State) (t : Tenant) (h : State → Nat → State) : State :=
  match t.engine with
  | some e => h s e
  | none => s

/-- A line completed at the current tick, LATE when its deadline is past (R71). -/
def State.closeLine (s : State) (k l : Nat) : State :=
  let t := s.tenant k
  if t.lineTick (s.geo k) (l + 1) < s.tick then
    (s.setTenant k (t.count F.TEN_LATE_LINES_COUNT)).onEngine t fun s e => s.count (F.ENG_LATE_LINES_COUNT e)
  else s

/-- A ring at its ring point, or an extra one when the staged volume has reached 4 KiB (R271, R278). -/
def execRingTake (k : Tn) (at_ : Nat) (s : State) : Out :=
  let g := s.geo k
  let t := s.tenant k
  if !t.executes || t.ring.isSome then .next s
  else
    match t.ready g .ring with
    | some (t, r) =>
      let s := (s.advance at_).setTenant k (t.takeRing g (g.ringAfter r) (r / g.cpl))
      let s := s.onEngine t State.heartbeat
      if r % g.cpl = 0 && 0 < r then .next ((s.closeLine k (r / g.cpl - 1)).updateLag k) else .next s
    | none =>
      match t.between g with
      | some t =>
        if t.pressed then
          let s := s.advance at_
          let s := s.setTenant k (t.takeRing g t.core.nextRing ((t.core.nextRing - 1) / g.cpl))
          .next (s.onEngine t fun s e => (s.heartbeat e).count (F.RNG_PRESSURE_RINGS_COUNT e))
        else .next s
      | none => .next s

/-- Writes of a staging area applied to an image. -/
def applyStaged (m : Memory) (es : List MEntry) : Memory :=
  es.foldl (fun m e => match e with
    | .write bs => bs.foldl (fun m w => memSet m w.1 w.2) m
    | _ => m) m

/-- A list up to and after its first marker of a number. -/
def splitMarker (no : Nat) : List MEntry → List MEntry × Option (List MEntry)
  | [] => ([], none)
  | e :: r =>
    if e = .marker no then ([], some r)
    else
      let (a, b) := splitMarker no r
      (e :: a, b)

/-- The mirror after the commit of a ring (R275); none while its stream is not yet staged. A mirror that
is not warm has no image to hold the ring up. -/
def Mirror.commit (m : Mirror) (warm : Bool) (no : Nat) : Option Mirror :=
  match splitMarker no m.staging with
  | (before, some after) => some { m with staging := after, image := applyStaged m.image before, synced := true }
  | (_, none) => if warm then none else some m

/-- CPU.RING_PC and RING_STATE of a committed ring (R107). -/
def Tenant.ringRegs (t : Tenant) (c : Cpu) : Tenant :=
  ((((((t.setFld F.CPU_RING_PC_PC c.pc.toNat).setFld F.CPU_RING_STATE_F c.f.toNat).setFld
    F.CPU_RING_STATE_CPL c.cpl.toNat).setBit F.CPU_RING_STATE_WAIT c.wait.isSome).setFld
    F.CPU_RING_STATE_RS_DEPTH c.rs.length).setBit F.CPU_RING_STATE_FENCE c.fence.isSome)

/-- The logs of writes to target registers and video RAM without what only lines before absolute line `l`
need: those lines have been rendered and closed. -/
def Core.prune (c : Core) (l : Nat) : Core :=
  let old := c.rlog.filter fun e => e.pos < posOf l 0
  { c with
    regs := old.foldl (fun r e =>
      Store.set (tenantRst e.key) r e.key (blend e.mask e.val (Store.get (tenantRst e.key) r e.key))) c.regs
    rlog := c.rlog.filter fun e => posOf l 0 ≤ e.pos
    vold := c.vold.filter fun o => posOf l 0 < o.pos
    kept := c.kept.filter fun k => l ≤ k.line }

/-- A ring commits in the tenant (R275, R277): its record is kept, the lines it closes may leave, and
the samples of ticks before it go to the audio router, mapped to wall time by the binding (R222). -/
def Tenant.commitRing (g : Geo) (t : Tenant) (r : RingTaken) (m : Option Mirror) : Tenant :=
  let c := r.captured
  let sent (o : OutSample) : Bool := o.no < c.snd.ticks
  let t := t.ringRegs r.shown
  { t with
    ring := none, mirror := m, handed := r.closed, journal := t.journal.drop r.journaled
    move := t.move.map fun x => { x with rings := x.rings + 1 }
    mirrorMove := t.mirrorMove.map fun x => { x with rings := x.rings + 1 }
    record := { c with snd := { c.snd with out := [] } }, recordValid := true
    routed := t.routed ++ c.snd.out.map fun o =>
      ({ no := o.no, tick := t.cycleTick g (g.tickCycle o.no), main := o.main, fast := o.fast } : Routed)
    core := { t.core with snd := { t.core.snd with out := t.core.snd.out.filter fun o => !sent o } }.prune
      (min t.rendered r.closed) }

/-- The mirror that a commit leaves, when nothing holds the ring up (R275). -/
def Tenant.commits (t : Tenant) (r : RingTaken) : Option (Option Mirror) :=
  if t.waitPromotion then none
  else
    match t.mirror with
    | none => some none
    | some m => (m.commit (t.fld F.TEN_MIRROR_MSTATE = 2) r.no).map some

end Sys2Proof.Machine
end

