-- ==== Sys2Proof/Machine/StepRows.lean ====
section
/-! DEFINITION. The commands of the tenant-time units: raster, line match, sprites, timers, sound,
trails, quick DMA, sector DMA, and the tenant stores that start them. A command whose event is not the
tenant's next one changes nothing. A store that has a row of its own is the effect of the store at the
tenant's current instruction boundary. -/

namespace Sys2Proof.Machine

/-- What an event of tenant `k` does when it is the next one: `h` gives the tenant from its geometry,
the tenant and the cycle. -/
def runEvent (k : Tn) (ev : Ev) (h : Geo → Tenant → Nat → Tenant) (s : State) : Out :=
  match (s.tenant k).ready (s.geo k) ev with
  | none => .next s
  | some (t, e) => if t.executes then .next (s.setTenant k (h (s.geo k) t e)) else .next s

/-- What a tenant does at its current instruction boundary, at that cycle. -/
def runBoundary (k : Tn) (h : Geo → Tenant → Nat → Tenant) (s : State) : Out :=
  match s.atBoundary k with
  | none => .next s
  | some t => .next (s.setTenant k (h (s.geo k) t t.core.now))

/-- A store of one byte to an I/O address at the tenant's boundary. -/
def storeAt (a : Addr) (v : Byte) (g : Geo) (t : Tenant) (e : Nat) : Tenant := t.ioStore g e [(a, v)]

/-! Raster, line match, sprites, beam. -/

/-- The raster list entry is performed or skipped, and the next one read (R155). -/
def execRasterEntry (k : Tn) (s : State) : Out := runEvent k .raster (fun g t e => t.rasterStep g e) s

/-- A line-match unit matches (R160). -/
def execLineMatch (k : Tn) (u : Fin 4) (s : State) : Out :=
  runEvent k (.lineMatch u) (fun _ t e => t.matchStep e u) s

/-- The sprites of a canvas line are evaluated (R140). -/
def execSpriteEvaluation (k : Tn) (s : State) : Out :=
  runEvent k .sprite (fun g t _ => t.spriteStep g) s

/-- A tenant read that includes RAS offset 0x0A captures the beam (R159). -/
def execBeamCapture (k : Tn) (s : State) : Out := runBoundary k (fun g t e => t.captureBeam g e) s

/-! Sound. -/

/-- Work of the engine of a tenant, when it is on one. -/
def State.tenantWork (s : State) (t : Tenant) (h : EngWork → EngWork) : State :=
  match t.engine with
  | some e => s.work e h
  | none => s

/-- The deadline of a tenant's next audio tick when it is due, as a fraction of ticks of the wall clock, and its context
(R78): the time to which the tenant's binding maps the tick's cycle. -/
def State.sampleDue (s : State) (k : Nat) : Option (Nat × Nat × Nat) :=
  let g := s.geo k
  let t := s.tenant k
  match t.ready g .audio with
  | some (_, e) =>
    if t.executes then some (t.lineTick g (e / g.cpl) * g.cpl + e % g.cpl * g.lineTicks, g.cpl, t.ctx) else none
  | none => none

/-- Whether no other tenant of the engine has a due sample that the sound unit takes before that of tenant `k`: an earlier
deadline first, then the lower context (R78). -/
def State.sampleFirst (s : State) (k : Nat) : Bool :=
  match s.sampleDue k with
  | none => false
  | some (n, d, x) => s.tenants.all fun (j, t) =>
    j == k || (s.tenant k).engine == none || t.engine != (s.tenant k).engine ||
    match s.sampleDue j with
    | none => true
    | some (n', d', x') => decide (n * d' < n' * d) || (decide (n * d' = n' * d) && decide (x < x'))

/-- A tenant audio tick (R78, R208). -/
def execAudioTick (k : Tn) (s : State) : Out :=
  if s.sampleFirst k then
    runEvent k .audio (fun g t e => t.tickStep g e) (s.tenantWork (s.tenant k) fun w => { w with samples := w.samples + 1 })
  else .next s

/-- A tenant store to SND.KEYON (R213): both bytes by one instruction. -/
def execKeyon (k : Tn) (v : Half) (s : State) : Out :=
  runBoundary k (fun g t e => t.ioStore g e ((addrs 0xF504 2).zip (leBytes 2 v))) s

/-- A tenant store to SND.KEYOFF (R213). -/
def execKeyoff (k : Tn) (v : Half) (s : State) : Out :=
  runBoundary k (fun g t e => t.ioStore g e ((addrs 0xF506 2).zip (leBytes 2 v))) s

/-- A tenant store to MIX.CTRL; with SWAP 1 it sets SWAP_PENDING (R220). -/
def execSwap (k : Tn) (v : Byte) (s : State) : Out := runBoundary k (storeAt 0xF601 v) s

/-! Timers. -/

/-- Whether the next tick of timer `k` is a return to 0 (R310). -/
def Tenant.timerReturns (t : Tenant) (k : Nat) : Bool :=
  t.fld (F.TMR_RELOAD_RELOAD k) ≤ (t.core.timer k).count.toNat

/-- The prescaler of timer `k` ticks at cycle `e` (R310, R311): the count advances or returns to 0,
which sets WRAP and makes the request of the timer (R314). -/
def Tenant.timerStep (g : Geo) (t : Tenant) (k e : Nat) : Tenant :=
  let x := t.core.timer k
  let n := g.eventsIn (t.fld (F.TMR_CFG_SRC k)) x.upTo e
  let wraps := t.timerReturns k
  let x := { x with
    acc := x.acc + 256 * n - t.timerDiv k, upTo := e + 1, count := if wraps then 0 else x.count + 1
    lineCount := if e = t.core.begun * g.cpl then x.count else x.lineCount }
  let t := { t with core := t.core.setTimer k x }
  if wraps then ((t.hwSet e (F.TMR_FLAG_WRAP k) 1).count F.TMR_WRAPS_COUNT).dmaEvent (5 + k) e else t

/-- The tick of a tenant timer's prescaler, when it is the tenant's next event and the count then returns to 0 or
not, as `returns` says. -/
def runTimer (k : Tn) (u : Fin 4) (returns : Bool) (s : State) : Out :=
  match (s.tenant k).ready (s.geo k) (.timer u) with
  | none => .next s
  | some (t, e) =>
    if t.executes && t.timerReturns u == returns then .next (s.setTenant k (t.timerStep (s.geo k) u e)) else .next s

/-- A tenant timer's prescaler ticks and its count does not return to 0 (R311). -/
def tenantPrescaler (t : Tn) (k : Fin 4) (s : State) : Out := runTimer t k false s

/-- A tenant timer returns to 0 (R314). -/
def execTimerWrap (t : Tn) (k : Fin 4) (s : State) : Out := runTimer t k true s

/-- A tenant read of COUNT_LO latches the high byte (R315). -/
def execTimerCountRead (t : Tn) (k : Fin 4) (s : State) : Out := runBoundary t (fun _ x _ => x.latchCount k) s

/-- A tenant write to COUNT_HI loads the count (R315). -/
def execTimerCountLoad (t : Tn) (k : Fin 4) (hi : Byte) (s : State) : Out :=
  runBoundary t (storeAt (BitVec.ofNat 24 (0xF719 + 16 * k)) hi) s

/-- A tenant write of CLR (R315). -/
def execTimerClear (t : Tn) (k : Fin 4) (s : State) : Out :=
  runBoundary t (fun g x e => (x.syncTimer g e k).clearTimer k) s

/-! The blitter. -/

/-- A tenant store to BLT.GO (R243). -/
def execBltGo (k : Tn) (v : Byte) (s : State) : Out := runBoundary k (storeAt 0xFB07 v) s

/-- The sector of a tenant's slot. -/
def Tenant.sector (t : Tenant) : Nat := t.fld F.TEN_PLACE_SLOT / 144

/-- CTRL.EN of the sector BLT page. -/
def F.SBLT_EN (sec : Nat) : Fld := ⟨(0x41008 + 0x20000 * sec) / 4, 0, 1⟩

/-- Whether the credits of a tenant's engine let the sector blitter perform a step of its trail (R17): the launch of
one that begins, the writes into the bank, and their mirror stream. -/
def State.trailFlows (s : State) (k : Nat) (tr : Trail) : Bool :=
  match (s.tenant k).engine with
  | some e => (tr.started || !s.stalledAt e .trailLaunch) && !s.stalledAt e .blitWrite && !s.mirrorStalled k
  | none => true

/-- The trail's step of tenant `k` at its last cycle, when it is due, its engine's credits allow it and the sector
blitter, not gated (R386), performs steps: the tenant, its trail, the sampled entry and the cycle. -/
def State.trailReady (s : State) (k : Tn) : Option (Tenant × Trail × TEntry × Nat) :=
  match (s.tenant k).ready (s.geo k) .trail with
  | none => none
  | some (t, e) =>
    match t.core.trail with
    | none => none
    | some tr =>
      match tr.bytes with
      | none => none
      | some b =>
        if t.executes && !s.gated && s.bit (F.SBLT_EN t.sector) && s.trailFlows k tr then
          some (t, tr, TEntry.ofBytes b, e) else none

/-- A trail command with code `op` performed at its last cycle by `h`. -/
def runTrail (k : Tn) (op : Nat) (h : Geo → Tenant → Nat → Addr → TEntry → Tenant) (s : State) : Out :=
  match s.trailReady k with
  | none => .next s
  | some (t, tr, x, e) =>
    if x.op = op && (x.stop (s.geo k) tr.entry).isNone then .next (s.setTenant k (h (s.geo k) t e tr.entry x))
    else .next s

/-- Writes of a unit's step that no longer match their slot's occupant: suppressed and counted, one for each
pixel, byte or element (R289). -/
def State.suppress (s : State) (t : Tenant) (n : Nat) : State :=
  match t.engine with
  | some e => s.countN (F.RNG_SUPPRESSED_COUNT e) n
  | none => s

/-- Whether an item is stale: its tag is not the tenant's current one (R252, R289). -/
def Tenant.stale (t : Tenant) (x : Tag) : Bool := x != t.tag

/-- A stale trail's step stops at its end, and its writes are suppressed ("In-flight items", R289). -/
def State.endTrailStep (s : State) (k : Tn) (op : Nat) : State :=
  let g := s.geo k
  let t := s.tenant k
  match t.core.trail with
  | none => s
  | some tr =>
    match tr.bytes with
    | none => s
    | some b =>
      let x := TEntry.ofBytes b
      if x.op != op || (x.stop g tr.entry).isSome then s
      else
        let n := if x.skipped then 0 else (x.pixelWrites g t ((t.core.trailDue g).getD t.core.now)).length
        (s.setTenant k { t with core := { t.core with trail := none } }).suppress t n

/-- Whether a tenant's trail is stale. -/
def Tenant.trailStale (t : Tenant) : Bool := t.core.trail.any fun x => t.stale x.tag

/-- A rectangle command with code `op`; the sector's counters of pixels and staged steps (R236, R241). -/
def runRect (k : Tn) (op : Nat) (s : State) : Out :=
  if (s.tenant k).trailStale then .next (if s.gated then s else s.endTrailStep k op)
  else match s.trailReady k with
  | none => .next s
  | some (t, tr, x, e) =>
    if x.op = op && (x.stop (s.geo k) tr.entry).isNone then
      let g := s.geo k
      let n := if x.skipped then 0 else (x.pixelWrites g t e).length
      let s := s.setTenant k (t.rectStep g e tr.entry x)
      let s := s.countN (F.SBLT_PIXELS_COUNT t.sector) n
      .next (if x.staged then s.count (F.SBLT_STAGED_COUNT t.sector) else s)
    else .next s

/-- END (R236). -/
def execEnd (k : Tn) (s : State) : Out :=
  runTrail k 0 (fun _ t e _ _ => ((t.count F.BLT_COMMANDS_COUNT).hwSet e F.BLT_STAT_DONE 1).endTrail) s

/-- COPY (R236, R238, R241). -/
def execCopy (k : Tn) (s : State) : Out := runRect k 1 s

/-- FILL (R236). -/
def execFill (k : Tn) (s : State) : Out := runRect k 2 s

/-- COPYKEY (R236). -/
def execCopykey (k : Tn) (s : State) : Out := runRect k 3 s

/-- XFORM (R236, R240). -/
def execXform (k : Tn) (s : State) : Out := runRect k 4 s

/-- LINK (R236). -/
def execLink (k : Tn) (s : State) : Out :=
  runTrail k 5 (fun _ t e _ x => (t.count F.BLT_COMMANDS_COUNT).nextEntry e x.src) s

/-- WAIT_LINE (R239). -/
def execWaitLine (k : Tn) (s : State) : Out :=
  runTrail k 6 (fun _ t e a _ => (t.count F.BLT_COMMANDS_COUNT).nextEntry e (a + 16)) s

/-- SIGNAL (R236, R244). -/
def execSignal (k : Tn) (s : State) : Out :=
  runTrail k 7 (fun _ t e a x =>
    ((t.count F.BLT_COMMANDS_COUNT).hwSet e F.BLT_SIG_SIG (2 ^ (x.arg.toNat % 8))).nextEntry e (a + 16)) s

/-- A trail stops at an invalid entry (R237). -/
def execTrailStop (k : Tn) (s : State) : Out :=
  match s.trailReady k with
  | none => .next s
  | some (t, tr, x, e) =>
    match x.stop (s.geo k) tr.entry with
    | none => .next s
    | some b =>
      .next (s.setTenant k ((t.hwSet e (if b = 3 then F.BLT_STAT_BAD_OP else F.BLT_STAT_BAD_ENTRY) 1).endTrail))

/-! Quick DMA. -/

/-- A tenant store to QDM.GO (R245). -/
def execQdmGo (k : Tn) (v : Byte) (s : State) : Out := runBoundary k (storeAt 0xFA0E v) s

/-- A quick DMA step at its last cycle (R230, R245); the writes of a stale one are suppressed (R289). -/
def execQuickDmaTransfer (k : Tn) (s : State) : Out :=
  let t := s.tenant k
  match t.core.qdm.filter fun q => t.stale q.tag with
  | some q => .next ((s.setTenant k { t with core := { t.core with qdm := none } }).suppress t q.len)
  | none => if s.mirrorStalled k then .next s else runEvent k .qdm (fun g t e => t.qdmStep g e) s

/-! Sector DMA. -/

/-- A tenant store to a channel's GO (R246). -/
def execDmaGo (k : Tn) (c : Fin 2) (v : Byte) (s : State) : Out :=
  runBoundary k (storeAt (BitVec.ofNat 24 (0xFC12 + 0x20 * c)) v) s

/-- The register page and index of physical channel `ch` of a sector. -/
def chPage (sec ch : Nat) : Nat := 4 * sec + ch / 16

/-- Whether a physical channel is busy. -/
def State.chBusy (s : State) (sec ch : Nat) : Bool := s.bit (F.SDMA_CH_BUSY (chPage sec ch) (ch % 16))

/-- Whether a physical channel works: its page is enabled (R423) and the unit is not gated (R386). -/
def State.chEn (s : State) (sec ch : Nat) : Bool :=
  !s.gated && s.bit ⟨(0x42008 + 0x20000 * sec + 0x1000 * (ch / 16)) / 4, 0, 1⟩

/-- The physical channel that an item of channel `c` of tenant `k` holds, if one is assigned. -/
def State.chOf (s : State) (sec k c : Nat) : Option Nat :=
  (List.range 64).find? fun ch => s.chBusy sec ch
    && s.fld (F.SDMA_CH_TENANT (chPage sec ch) (ch % 16)) == k
    && s.fld (F.SDMA_CH_TCH (chPage sec ch) (ch % 16)) == c

/-- Whether the sector DMA unit is stopped. -/
def State.dmaStopped (s : State) (sec : Nat) : Bool := s.bit (F.SDMA_STATUS_STOPPED (4 * sec))

/-- A field of the four DMA pages of a sector set. -/
def State.setDmaStatus (s : State) (sec : Nat) (f : Nat → Fld) (b : Bool) : State :=
  (List.range 4).foldl (fun s p => s.setBit (f (4 * sec + p)) b) s

/-- Whether the item of a channel is stale. -/
def Tenant.dmaStale (t : Tenant) (c : Fin 2) : Bool := (t.core.dma c).any fun i => t.stale i.tag

/-- A waiting item is given one of the sector's free physical channels (R246, "Sector DMA"); which one
is the unit's choice, `pick` among the free ones. A stale item gets none (R252), and a gated unit gives none
(R386). -/
def execDmaChannelAssign (k : Tn) (c : Fin 2) (pick : Nat) (s : State) : Out :=
  let t := s.tenant k
  let sec := t.sector
  let free := (List.range 64).filter fun ch => !s.chBusy sec ch && s.chEn sec ch
  match free[pick % free.length]? with
  | some ch =>
    if (t.core.dma c).isSome && !t.dmaStale c && (s.chOf sec k c).isNone && t.fld F.TEN_PLACE_SLOT < 1152
        && !s.dmaStopped sec && !s.gated then
      let p := chPage sec ch
      let j := ch % 16
      .next ((((s.setFld (F.SDMA_CH_TENANT p j) k).setFld (F.SDMA_CH_TCH p j) c).setBit (F.SDMA_CH_BUSY p j) true).setBit
        (F.SDMA_CH_TERMINATED p j) false)
    else .next s
  | none => .next s

/-- The burst in progress of a channel's item, when it is due: the tenant, the item and the cycle. -/
def State.burstReady (s : State) (k : Tn) (c : Fin 2) : Option (Tenant × DmaItem × Nat) :=
  match (s.tenant k).ready (s.geo k) (.dma c) with
  | none => none
  | some (t, e) =>
    match t.core.dma c with
    | none => none
    | some i => if t.executes then some (t, i, e) else none

/-- Whether the credits of a tenant's engine let channel `ch` of its sector take a burst, and its writes go to the
mirror (R17). -/
def State.burstFlows (s : State) (k ch : Nat) : Bool :=
  !s.mirrorStalled k &&
  match (s.tenant k).engine with
  | some e => !s.stalledAt e fun a => .dmaBurst a ch
  | none => true

/-- Whether the journal that the tenant replays terminates the item of channel `c` at its burst whose last cycle
is `e` (R250). -/
def Tenant.replaysFault (t : Tenant) (c : Fin 2) (e : Nat) : Bool :=
  t.replay.any fun x => decide (x.input = .dmaFault c e)

/-- The item of channel `c` terminated at its burst whose last cycle is `e`, which is journaled (R250). -/
def Tenant.terminate (t : Tenant) (c : Fin 2) (e : Nat) (i : DmaItem) : Tenant :=
  let core := t.core.setDma c (some { i with terminated := true, failed := false })
  let replay := t.replay.filter fun x => decide (x.input ≠ .dmaFault c e)
  { t with core := core, replay := replay }.note t.core.begun (.dmaFault c e)

/-- The physical channel of an item is free once the item has completed. -/
def State.freeCh (s : State) (sec ch : Nat) (t : Tenant) (c : Nat) : State :=
  if (t.core.dma c).isNone then s.setBit (F.SDMA_CH_BUSY (chPage sec ch) (ch % 16)) false else s

/-- A stale burst in progress stops at its end, and its writes are suppressed (R289). -/
def State.endBurst (s : State) (k : Tn) (c : Fin 2) : State :=
  let t := s.tenant k
  match t.core.dma c with
  | none => s
  | some i =>
    match i.busy with
    | none => s
    | some (_, n) => (s.setTenant k { t with core := t.core.setDma c none }).suppress t n

/-- Words of a critical read that the other stack's copy corrects: those that `n` says, of a read that reads HBM
while both stacks are in service (R265, R266). -/
def State.correct (s : State) (reads : Bool) (n : Nat) : State :=
  if reads && s.cont.fencedStacks = [] then s.countN F.MOD_HBM_CORRECTED_COUNT n else s

/-- A channel burst at its last cycle (R230, R247, R250). `corrected` is the number of words that the
other stack's copy corrects. A burst that meets a bus error does not write: BUS_ERROR is its event. -/
def execDmaBurst (k : Tn) (c : Fin 2) (corrected : Nat) (s : State) : Out :=
  if (s.tenant k).dmaStale c then .next (if s.gated then s else s.endBurst k c)
  else match s.burstReady k c with
  | none => .next s
  | some (t, i, e) =>
    let g := s.geo k
    let sec := t.sector
    match s.chOf sec k c with
    | none => .next s
    | some ch =>
      let t := if t.replaysFault c e then t.terminate c e i else t
      let i := (t.core.dma c).getD i
      let open_ := s.chEn sec ch && (!s.dmaStopped sec || (s.sdma sec).running.contains ch)
      if open_ && s.burstFlows k ch && !i.failed && (i.terminated || !t.burstBusError g e i) then
        let reads := !i.terminated && t.burstReadsHbm g e i
        let t' := t.burstStep g c e
        let s := ((s.setTenant k t').correct reads corrected).setBit
          (F.SDMA_CH_TERMINATED (chPage sec ch) (ch % 16)) i.terminated
        .next (s.freeCh sec ch t' c)
      else .next s

/-- A sector DMA read meets a bus error (R248, R249): by the tenant's own addresses, or, with `hbm`, an
uncorrectable HBM word that the other stack's copy cannot correct, in a burst that reads HBM. The unit stops all its
channels. -/
def execBusError (k : Tn) (c : Fin 2) (hbm : Bool) (s : State) : Out :=
  match s.burstReady k c with
  | none => .next s
  | some (t, i, e) =>
    let sec := t.sector
    match s.chOf sec k c with
    | none => .next s
    | some ch =>
      let hbm := hbm && t.burstReadsHbm (s.geo k) e i
      let open_ := s.chEn sec ch && (!s.dmaStopped sec || (s.sdma sec).running.contains ch)
      if open_ && !i.terminated && !i.failed && !t.replaysFault c e
          && (hbm || t.burstBusError (s.geo k) e i) then
        let t := { t with core := t.core.setDma c (some { i with failed := hbm }) }
        let s := s.setTenant k t
        let s := s.setSdma sec ⟨[], (s.sdma sec).dead, (s.sdma sec).faulted⟩
        let s := s.setDmaStatus sec F.SDMA_STATUS_STOPPED true
        let s := s.setDmaStatus sec F.SDMA_STATUS_RESTARTING true
        let s := (s.setBit (F.SEC_STATUS_DMA_STOPPED sec) true).secNotice sec
        let s := if hbm then s.count F.MOD_HBM_UNCORRECTED_COUNT else s
        .next ((s.count (F.SDMA_BUS_ERRORS_COUNT (4 * sec))).tell 0x0205 sec)
      else .next s

/-- A restarted burst that its tenant has reached and that fails: by its own addresses, or, with `fails`, by an HBM
read. The tenant made ready, the item and its last cycle. -/
def State.restartFails (s : State) (k : Tn) (c : Fin 2) (fails : Bool) : Option (Tenant × DmaItem × Nat) :=
  match s.burstReady k c with
  | none => none
  | some (t, i, e) =>
    let g := s.geo k
    if !i.terminated && (t.burstBusError g e i || (fails && t.burstReadsHbm g e i)) then some (t, i, e) else none

/-- The supervisor restarts a busy channel of a stopped unit from its burst (R249): `fails` says that
an HBM read fails again. A channel whose burst fails is terminated, which is journaled (R250). A burst that its tenant
has not reached neither writes nor fails in the time that the restart allows. -/
def execDmaChannelRestart (sec : Sec) (ch : Fin 64) (fails : Bool) (s : State) : Out :=
  let x := s.sdma sec
  let p := chPage sec ch
  let j := ch.val % 16
  let next := (List.range 64).find? fun n => s.chBusy sec n && !x.running.contains n
  if s.dmaStopped sec && !s.gated && next = some ch.val then
    let k : Tn := Fin.ofNat 1024 (s.fld (F.SDMA_CH_TENANT p j))
    let c : Fin 2 := if s.fld (F.SDMA_CH_TCH p j) = 0 then 0 else 1
    let s := s.count (F.SDMA_RESTARTS_COUNT (4 * sec))
    match s.restartFails k c fails with
    | some (t, i, e) =>
      let s := ((s.setTenant k (t.terminate c e i)).count (F.SDMA_TERMINATIONS_COUNT (4 * sec))).setBit
        (F.SDMA_CH_TERMINATED p j) true
      .next (s.setSdma sec ⟨x.running ++ [ch.val], x.dead + 1, x.faulted ++ [k.val]⟩)
    | none =>
      let s := s.onTenant k fun t =>
        { t with core := t.core.setDma c ((t.core.dma c).map fun i => { i with failed := false }) }
      .next (s.setSdma sec { x with running := x.running ++ [ch.val] })
  else .next s

/-- The restarts end (R249): STOPPED and RESTARTING clear, DMA_RESUMED with the number of terminated
channels, DMA_FAULT for each tenant affected. -/
def execDmaResumed (sec : Sec) (s : State) : Out :=
  let x := s.sdma sec
  let left := (List.range 64).any fun n => s.chBusy sec n && !x.running.contains n
  if s.dmaStopped sec && !left && !s.gated then
    let s := s.setDmaStatus sec F.SDMA_STATUS_STOPPED false
    let s := s.setDmaStatus sec F.SDMA_STATUS_RESTARTING false
    let s := s.setBit (F.SEC_STATUS_DMA_STOPPED sec) false
    let s := s.notify 0x0206 [(sec.val, x.dead)]
    let s := x.faulted.eraseDups.foldl (fun s k => s.tell 0x0207 k) s
    .next (s.setSdma sec ⟨[], 0, []⟩)
  else .next s

end Sys2Proof.Machine
end

