-- ==== Sys2Proof/Machine/Video.lean ====
section
/-! DEFINITION. The video unit (R78, R130 to R144, R163): which line is rendered next, and its pixels. -/

namespace Sys2Proof.Machine

/-! Reading what a pixel sees. -/

/-- A byte of video RAM at offset `o` (modulo 0x8000) as a pixel at effect position `pos` reads it
(R132, R144): as it stood before the first write that takes effect later. -/
def Core.vramAt (c : Core) (pos o : Nat) : Byte :=
  let a := 0x4000 + o % 0x8000
  match c.vold.find? (fun w => w.addr = a && pos < w.pos) with
  | some w => w.old
  | none => c.ramByte a

/-- A field of a target register at an effect position (R143, R156). -/
def Tenant.fldAt (t : Tenant) (pos : Nat) (f : Fld) : Nat :=
  getBits (t.core.targetWord (t.word f.key) f.key pos) f.lo f.w

/-- Pixel (`fx`, `fy`) of pattern `tile` at byte offset `base` (R131). -/
def Core.pattern (c : Core) (pos : Nat) (bpp8 : Bool) (base tile fx fy : Nat) : Nat :=
  if bpp8 then (c.vramAt pos (base + tile * 64 + fy * 8 + fx)).toNat
  else
    let b := (c.vramAt pos (base + tile * 32 + fy * 4 + fx / 2)).toNat
    if fx % 2 = 0 then b % 16 else b / 16

/-- The depth of a plane: none when it is off (R136). -/
def depthOf (d : Nat) : Option Bool := if d = 1 then some false else if d = 2 then some true else none

/-- Plane `p` at canvas pixel (`x`, `n`): the index of its pixel, when it is opaque there (R133 to R136). -/
def Tenant.planePixel (t : Tenant) (pos p x n : Nat) : Option Nat :=
  match depthOf (t.fldAt pos (F.VID_MODE_DEPTH p)) with
  | none => none
  | some bpp8 =>
    let mw := 32 * 2 ^ t.fldAt pos (F.VID_MODE_MAPW p)
    let mh := 32 * 2 ^ t.fldAt pos (F.VID_MODE_MAPH p)
    let sx := t.fldAt pos (F.VID_SCROLLX_SCROLL p) % (mw * 8)
    let sy := t.fldAt pos (F.VID_SCROLLY_SCROLL p) % (mh * 8)
    let nowrap := t.fldAt pos ⟨0x1008 / 4, 1, 1⟩ == 1 && t.fldAt pos F.VID_NOWRAP_NOWRAP / 2 ^ p % 2 == 1
    if nowrap && (mw * 8 ≤ x + sx || mh * 8 ≤ n + sy) then none
    else
      let px := (x + sx) % (mw * 8)
      let py := (n + sy) % (mh * 8)
      let o := 2 * t.fldAt pos (F.VID_MAPBASE_MAPBASE p) + (py / 8 * mw + px / 8) * 2
      let e : Half := t.core.vramAt pos (o + 1) ++ t.core.vramAt pos o
      let fx := if e.getLsbD 14 then 7 - px % 8 else px % 8
      let fy := if e.getLsbD 15 then 7 - py % 8 else py % 8
      let v := t.core.pattern pos bpp8 (32 * t.fldAt pos (F.VID_PATBASE_PATBASE p)) (e.toNat % 1024) fx fy
      let ofs := t.fldAt pos (F.PAL_OFS_OFS p)
      if v = 0 then none
      else if bpp8 then some ((v + ofs) % 256)
      else some ((e.toNat / 1024 % 16 * 16 + v + ofs) % 256)

/-- A kept sprite at canvas pixel (`x`, `n`): the index of its pixel, when it covers it and is opaque
there (R138, R139). -/
def Tenant.spritePixel (t : Tenant) (pos : Nat) (b : BitVec 64) (x n : Nat) : Option Nat :=
  let w := 8 * ((b.extractLsb' 11 3).toNat + 1)
  let h := spriteHeight b
  let dx : Int := x - (b.extractLsb' 0 11).toInt
  let dy : Int := n - spriteY b
  if dx < 0 || w ≤ dx || dy < 0 || h ≤ dy then none
  else
    let sx := if b.getLsbD 29 then w - 1 - dx.toNat else dx.toNat
    let sy := if b.getLsbD 30 then h - 1 - dy.toNat else dy.toNat
    let bpp8 := b.getLsbD 46
    let tile := ((b.extractLsb' 32 10).toNat + sy / 8 * (w / 8) + sx / 8) % 1024
    let v := t.core.pattern pos bpp8 (32 * t.fldAt pos F.SPR_PATBASE_PATBASE) tile (sx % 8) (sy % 8)
    let ofs := (b.extractLsb' 48 8).toNat + t.fldAt pos F.PAL_OFS_SPR_OFS
    if v = 0 then none
    else if bpp8 then some ((v + ofs) % 256)
    else some (((b.extractLsb' 42 4).toNat * 16 + v + ofs) % 256)

/-- A rank of the layer order (R141): a plane or a sprite group. -/
inductive Layer where
  | plane (p : Nat)
  | group (g : Nat)
deriving DecidableEq, Repr

/-- The layer of a code: 0 to 3 planes A to D, 4 to 7 sprite groups 0 to 3. -/
def layerOf (code : Nat) : Layer := if code < 4 then .plane code else .group (code - 4)

/-- The ranks front to back (R141). -/
def Tenant.ranks (t : Tenant) (pos : Nat) : List Layer :=
  if t.fldAt pos ⟨0x1008 / 4, 1, 1⟩ = 1 then
    (List.range 8).foldl (fun ls k =>
      let l := layerOf (t.fldAt pos (F.VID_ORDER_LAYER k))
      if t.fldAt pos (F.VID_ORDER_SKIP k) = 1 || ls.contains l then ls else ls ++ [l]) []
  else
    [3, 2, 1, 0].flatMap fun g =>
      .group g :: ((List.range 4).filter fun p => t.fldAt pos (F.VID_MODE_PRIO p) == g).map .plane

/-- The index of a layer at a pixel, where it is opaque (R142). -/
def Tenant.layerPixel (t : Tenant) (pos x n : Nat) (kept : List (BitVec 64)) : Layer → Option Nat
  | .plane p => t.planePixel pos p x n
  | .group g =>
    if t.fldAt pos ⟨0x2008 / 4, 0, 1⟩ = 1 then
      (kept.filter fun b => (b.extractLsb' 14 2).toNat == g).findSome? fun b => t.spritePixel pos b x n
    else none

/-- Canvas pixel (`x`, `n`) of absolute line `l` (R130, R142). -/
def Tenant.pixel (t : Tenant) (l n x : Nat) (kept : List (BitVec 64)) : Byte :=
  let pos := posOf l x
  let back := t.fldAt pos F.PAL_BACKDROP_BACKDROP
  BitVec.ofNat 8 (if t.fldAt pos ⟨0x1008 / 4, 0, 1⟩ = 1 then
      ((t.ranks pos).findSome? (t.layerPixel pos x n kept)).getD back
    else back)

/-! Rendering. -/

/-- The absolute canvas line that the video unit may render next of a tenant (R78, R163): executed up to
the last cycle whose write could affect its pixels, its sprites evaluated, a line buffer free. -/
def Tenant.renderable (g : Geo) (t : Tenant) : Option Nat :=
  let l := g.canvasFrom t.rendered
  let c := l * g.cpl + g.vis
  let st := t.fld F.TEN_CONT_STATE
  let reached := allEvents.all fun x => match t.due g x with
    | some e => if x = .raster then decide (c < e) else decide (c ≤ e)
    | none => true
  let sampled := match t.core.trail with
    | some tr => tr.bytes.isSome || decide (c ≤ tr.sampleAt)
    | none => true
  let posted := match t.core.posted with
    | some p => decide (c ≤ p.cycle)
    | none => true
  if 2 ≤ st && st ≤ 4 && !t.waitPromotion && t.bufs.length < 7 && l < t.core.begun && c ≤ t.core.now
      && reached && sampled && posted then some l
  else none

/-- The lines ready to render on an engine: deadline, context, tenant, line. -/
def State.renderQueue (s : State) (e : Nat) : List (Nat × Nat × Nat × Nat) :=
  s.tenants.filterMap fun (k, t) =>
    if t.engine = some e then
      (t.renderable (s.geo k)).map fun l =>
        (t.lineTick (s.geo k) l + (s.geo k).lineTicks, t.ctx, k, l)
    else none

/-- The first of the lines by deadline, then by context (R78). -/
def firstLine (q : List (Nat × Nat × Nat × Nat)) : Option (Nat × Nat × Nat × Nat) :=
  q.foldl (fun b x => match b with
    | none => some x
    | some y => if x.1 < y.1 || (x.1 = y.1 && x.2.1 < y.2.1) then some x else some y) none

/-- The kept sprites of a line (R140, R145). -/
def Core.keptAt (c : Core) (l : Nat) : List (BitVec 64) :=
  match c.kept.find? fun k => k.line == l with
  | some k => k.sprites
  | none => []

/-- A line rendered into a line buffer. -/
def Tenant.render (g : Geo) (t : Tenant) (l : Nat) : Tenant :=
  let kept := t.core.keptAt l
  { t with
    bufs := t.bufs ++ [⟨l, (List.range g.w).map fun x => t.pixel l (l % g.lines) x kept⟩]
    rendered := l + 1 }

/-- The video unit of an engine renders the ready line with the earliest deadline (R78). -/
def execLineRender (e : Eng) (s : State) : Out :=
  match firstLine (s.renderQueue e) with
  | none => .next s
  | some (_, _, k, l) =>
    .next ((s.setTenant k ((s.tenant k).render (s.geo k) l)).work e fun w => { w with lines := w.lines + 1 })

end Sys2Proof.Machine
end

