-- ==== Sys2Proof/Machine/Stop.lean ====
section
/-! DEFINITION. Stopping and continuing tenant time (R69, R73, R74, R194): what the tenant commands, the
station policy and the power commands share. -/

namespace Sys2Proof.Machine

/-- The next tenant frame bound to the first timebase frame that starts at `from_` or later (R69). -/
def Tenant.bind (t : Tenant) (b : TbSet) (from_ : Nat) : Tenant :=
  { t with oldLine := t.bindLine, oldTick := t.bindTick
           bindLine := t.core.begun, bindTick := b.frameFrom from_ }

/-- TEN.CONT.STATE: 0 EMPTY, 1 LOADED, 2 RUNNING, 3 HELD, 4 PARKED, 5 RESETTING. -/
def Tenant.st (t : Tenant) : Nat := t.fld F.TEN_CONT_STATE

/-- The timebase settings of a tenant. -/
def State.tbOf (s : State) (t : Tenant) : TbSet := Store.get TbSet.reset s.tb (t.fld F.TEN_GEOM_TB)

/-- A running tenant is to be held at its next frame start (R73), by a host or by the module's station
policy (R194). A stop that is already asked for stays the host's; DESIGN CHOICE: while a PARK is pending, which
stops the tenant at the same frame start, a HOLD changes nothing. -/
def Tenant.askHold (t : Tenant) (byModule : Bool) : Tenant :=
  if t.st != 2 then t
  else
    match t.stop with
    | .none => { t with stop := .hold, heldByModule := byModule }
    | .hold => { t with heldByModule := t.heldByModule && byModule }
    | .park => t

/-- A tenant runs again from its next frame, bound by the timebase from tick `from_` on; the input `i`
is journaled at that frame start (R73, R74). -/
def State.continueTenant (s : State) (k from_ : Nat) (i : Input) : State :=
  let t := s.tenant k
  let t := t.bind (s.tbOf t) from_
  (s.setTenant k ({ t with stop := .none, heldByModule := false, parkedByModule := false
                           resumeJ := t.resumeJ ++ [i] }.setFld F.TEN_CONT_STATE 2)).updateLag k

/-- RESUME of a held tenant (R73). -/
def State.resumeTenant (s : State) (k : Nat) : State := s.continueTenant k (s.tick + 100000) .resume

/-- PARK (R74): at the next frame start of a running tenant, at once of a held one. -/
def Tenant.askPark (t : Tenant) (byModule : Bool) : Tenant :=
  if t.st = 2 then { t with stop := .park, parkedByModule := byModule }
  else if t.st = 3 then
    { (t.note t.core.begun .park) with parkedByModule := byModule }.setFld F.TEN_CONT_STATE 4
  else t

/-- The engines that a tenant's copy and its mirror stand on. -/
def Tenant.engines (t : Tenant) : List Nat :=
  (match t.engine with
    | some e => [e]
    | none => []) ++
  (if t.fld F.TEN_MIRROR_MSTATE != 0 && t.fld F.TEN_MIRROR_MSLOT < 1152 then
    [t.fld F.TEN_MIRROR_MSLOT / 16] else [])

/-- UNPARK (R74): engines in retention are woken first, which takes 200 µs. -/
def State.unparkTenant (s : State) (k : Nat) : State :=
  let es := (s.tenant k).engines
  let woke := es.any fun e => s.estate e == 6
  let s := es.foldl State.wakeEngine s
  s.continueTenant k (s.tick + (if woke then 20000 else 0) + 100000) .unpark

/-- A PARKED tenant HELD again, as it was before (R97, R288). -/
def Tenant.holdParked (t : Tenant) : Tenant :=
  { (t.note t.core.begun .unpark) with parkedByModule := false }.setFld F.TEN_CONT_STATE 3

/-- The module's own hold ends (R194): a hold that has not taken effect is taken back, a held tenant
resumes. -/
def State.releaseHold (s : State) (k : Nat) : State :=
  let t := s.tenant k
  if !t.heldByModule then s
  else if t.st = 2 && t.stop == .hold then
    s.setTenant k { t with stop := .none, heldByModule := false }
  else if t.st = 3 then s.resumeTenant k
  else s

end Sys2Proof.Machine
end

