-- ==== Sys2Proof/Machine/Push.lean ====
section
/-! DEFINITION. Region push (R179 to R193, R200): station entries, the port queues, REGION messages,
BEAM_MARK and transmission. -/

namespace Sys2Proof.Machine

/-! Station entries. -/

/-- A field of a station entry. -/
def State.efld (s : State) (f : Nat → Nat → Fld) (e : Nat) : Nat := s.fld (f (e / 64) (e % 64))

/-- A one-bit field of a station entry. -/
def State.ebit (s : State) (f : Nat → Nat → Fld) (e : Nat) : Bool := s.efld f e == 1

/-- The state with a field of a station entry set. -/
def State.setEfld (s : State) (f : Nat → Nat → Fld) (e v : Nat) : State := s.setFld (f (e / 64) (e % 64)) v

/-- The state with an RC counter of a station entry one higher. -/
def State.ecount (s : State) (f : Nat → Nat → Fld) (e : Nat) : State := s.count (f (e / 64) (e % 64))

/-- The active port of an entry (R195). -/
def State.entryPort (s : State) (e : Nat) : Nat :=
  if s.ebit F.STN_PORTS_ACTIVE_B e then s.efld F.STN_PORTS_PORT_B e else s.efld F.STN_PORTS_PORT_A e

/-- The MAC address of an entry. -/
def State.entryMac (s : State) (e : Nat) : BitVec 48 :=
  BitVec.ofNat 16 (s.efld F.STN_MAC_HI_MAC e) ++ BitVec.ofNat 32 (s.efld F.STN_MAC_LO_MAC e)

/-- CTRL.EN of a port page. -/
def F.PRT_EN (p : Nat) : Fld := ⟨(0x600008 + 0x10000 * p) / 4, 0, 1⟩

/-- Whether a field port is in service: it has its link, and CTRL.EN is 1 (R200). -/
def State.portUp (s : State) (p : Nat) : Bool := s.bit (F.PRT_STATUS_LINK_UP p) && s.bit (F.PRT_EN p)

/-- The enabled entries of a tenant, in order. -/
def State.entriesOf (s : State) (k : Nat) : List Nat :=
  (List.range 2048).filter fun e => s.ebit F.STN_ENT_CTRL_EN e && s.efld F.STN_ENT_CTRL_TENANT e == k

/-- CTRL.EN of the STN page of an entry (R423). -/
def F.STN_EN (e : Nat) : Fld := ⟨(0x20008 + 0x1000 * (e / 64)) / 4, 0, 1⟩

/-- The enabled entries of a tenant whose station is present (STATE 2). What goes to an entry whose STN page is disabled
waits (R423). -/
def State.presentOf (s : State) (k : Nat) : List Nat :=
  (s.entriesOf k).filter fun e => s.efld F.STN_STATE_STATE e == 2

/-- CTRL.EN of the PSH page (R423). -/
def F.PSH_EN : Fld := ⟨0x1B008 / 4, 0, 1⟩

/-- PRESENT_DELAY of an entry in frames: 0 acts as 1. -/
def State.presentDelay (s : State) (e : Nat) : Nat := max 1 (s.efld F.STN_ENT_CTRL_PRESENT_DELAY e)

/-- The ticks of a frame of a geometry. -/
def Geo.framePeriod (g : Geo) : Nat := g.lines * g.lineTicks

/-- The number of regions of a canvas (R179). -/
def Geo.regions (g : Geo) : Nat := g.w / 16 * (g.h / 16)

/-- The current epoch of a tenant. -/
def Tenant.epoch (t : Tenant) : Half := BitVec.ofNat 16 (t.fld F.TEN_CONT_EPOCH)

/-- Every region of an entry marked dirty. -/
def State.dirtyAll (s : State) (e : Nat) : State := s.setEntry e { s.entry e with clean := [] }

/-- Regions of an entry marked dirty. -/
def State.dirty (s : State) (e : Nat) (rs : List Nat) : State :=
  s.setEntry e { s.entry e with clean := (s.entry e).clean.filter fun r => !rs.contains r }

/-- Every region of an entry dirty and its next frame to be sent in full (R194, R195, R200, R424). A
frame in progress no longer counts as sent in full. -/
def State.wantFull (s : State) (e : Nat) : State :=
  let x := s.entry e
  s.setEntry e { x with clean := [], fullReq := true, frames := x.frames.map fun f => { f with full := false } }

/-! Discards. -/

/-- The items and messages of an entry discarded (R200, absent or EN cleared). -/
def State.discardEntry (s : State) (e : Nat) : State :=
  let items := s.push.filter fun i => i.ent == e
  let (s, n) := (List.range 16).foldl (fun (s, n) p =>
    let q := s.port p
    let gone := (q.audio ++ q.queue).filter fun m => m.ent == e
    (s.setPort p { q with audio := q.audio.filter fun m => m.ent != e
                          queue := q.queue.filter fun m => m.ent != e }, n + gone.length)) (s, items.length)
  let s := { s with push := s.push.filter fun i => i.ent != e }
  let x := s.entry e
  (s.setEntry e { x with clean := [], frames := [] }).countN F.PSH_ABSENT_DISCARDS_COUNT n

/-- Messages of a port that satisfy `which` discarded, their regions marked dirty (R200, no link, CTRL.EN
cleared, or a switch). -/
def State.discardPort (s : State) (p : Nat) (which : RspMsg → Bool) : State :=
  let q := s.port p
  let gone := (q.audio ++ q.queue).filter which
  let s := s.setPort p { q with audio := q.audio.filter fun m => !which m
                                queue := q.queue.filter fun m => !which m }
  let s := gone.foldl (fun s m => s.dirty m.ent m.regions) s
  s.countN F.PSH_PORT_DOWN_DISCARDS_COUNT gone.length

/-- The items and messages of a tenant discarded as stale (R200, R289). -/
def State.discardTenant (s : State) (k : Nat) : State :=
  let items := s.push.filter fun i => i.tenant == k
  let (s, n) := (List.range 16).foldl (fun (s, n) p =>
    let q := s.port p
    let gone := (q.audio ++ q.queue).filter fun m => m.tenant == k
    (s.setPort p { q with audio := q.audio.filter fun m => m.tenant != k
                          queue := q.queue.filter fun m => m.tenant != k }, n + gone.length)) (s, items.length)
  let s := { s with push := s.push.filter fun i => i.tenant != k }
  let s := (s.entriesOf k).foldl (fun s e => s.setEntry e { s.entry e with frames := [] }) s
  s.countN F.PSH_STALE_DISCARDS_COUNT n

/-- A message queued on the active port of its entry, AUDIO in its own class (R185); without a port in
service it is discarded (R200). -/
def State.queueRsp (s : State) (m : RspMsg) : State :=
  let p := s.entryPort m.ent
  if s.portUp p then
    let q := s.port p
    s.setPort p (if m.typ = 3 then { q with audio := q.audio ++ [m] } else { q with queue := q.queue ++ [m] })
  else (s.dirty m.ent m.regions).count F.PSH_PORT_DOWN_DISCARDS_COUNT

/-! Frame store. -/

/-- The HBM key of an offset within a stack, outside the critical region. -/
def hbmKey (stack off : Nat) : Nat := stack * 2 ^ 34 + off

/-- The key of a byte of a tenant's areas: at `off` from 0x1_4000_0000 of its own stack, or from
0x1_8800_0000 of the other one once relocated (R264, R266). -/
def areaKey (k : Nat) (relocated : Bool) (off : Nat) : Nat :=
  if relocated then hbmKey (1 - k % 2) (0x188000000 + off) else hbmKey (k % 2) (0x140000000 + off)

/-- The key of the first byte of the buffer of frame `f` (R176, R264). DESIGN CHOICE: the spec does not say which of the
two buffers takes frame 0; even frames take the one at offset 0. -/
def frameKey (k : Nat) (relocated : Bool) (f : Nat) : Nat :=
  areaKey k relocated (k / 2 * 0x140000 + f % 2 * 0x4B000)

/-- The key of the first byte of a tenant's overlay area (R264). -/
def overlayKey (k : Nat) (relocated : Bool) : Nat :=
  areaKey k relocated (0x28000000 + k / 2 * 0x100000)

/-- The 256 bytes of a region of frame `f` in raster order (R179, R180, R184). -/
def State.regionBytes (s : State) (k f r : Nat) : List Byte :=
  let g := s.geo k
  let cols := max 1 (g.w / 16)
  let base := frameKey k (s.tenant k).compo.relocated f + r / cols * 16 * 640 + r % cols * 16
  (List.range 16).flatMap fun y => memBytes s.hbm (base + y * 640) 16

/-! Records (R189). -/

/-- The literals gathered so far as one code. -/
def rleFlush (lit : List Byte) : List Byte :=
  if lit = [] then [] else BitVec.ofNat 8 (0x80 + (lit.length - 1)) :: lit

/-- The length of the run of `v` at the head of a list, at most `n`. -/
def runLen (v : Byte) : Nat → List Byte → Nat
  | n + 1, b :: bs => if b = v then 1 + runLen v n bs else 0
  | _, _ => 0

/-- The RLE8 codes of a list, within `fuel` codes: a run of 2 to 128 equal bytes as a repeat code, other
bytes gathered as literals. DESIGN CHOICE: R189 fixes the codes, and leaves open which of the encodings of a region the
module makes. -/
def rle8 : Nat → List Byte → List Byte → List Byte
  | 0, lit, _ => rleFlush lit
  | _, lit, [] => rleFlush lit
  | n + 1, lit, b :: bs =>
    let r := 1 + runLen b 127 bs
    if 2 ≤ r then rleFlush lit ++ [BitVec.ofNat 8 (r - 1), b] ++ rle8 n [] (bs.drop (r - 1))
    else if lit.length = 127 then rleFlush (lit ++ [b]) ++ rle8 n [] bs
    else rle8 n (lit ++ [b]) bs

/-- A REGION record of region `r` (R189). -/
def record (r : Nat) (px : List Byte) : List Byte :=
  let rle := rle8 256 [] px
  let (enc, data) :=
    if px.all fun b => b == px.headD 0 then (0, px.take 1)
    else if rle.length < 256 then (1, rle) else (2, px)
  beBytes 2 (BitVec.ofNat 16 (enc * 2 ^ 14 + r)) ++ beBytes 2 (BitVec.ofNat 16 data.length) ++ data

/-! REGION messages. -/

/-- The longest prefix of `items` that goes into one REGION message: one entry, tenant, epoch, frame and
band, at most 5 records and 1,500 bytes. -/
def packItems (s : State) (cols : Nat) (first : PushItem) (size n : Nat) : List PushItem → List (PushItem × List Byte)
  | [] => []
  | i :: r =>
    let px := s.regionBytes i.tenant i.frame i.region
    let sz := size + (record i.region px).length
    if n < 5 && i.ent == first.ent && i.tenant == first.tenant && i.epoch == first.epoch
        && i.frame == first.frame && i.region / cols == first.region / cols && sz ≤ 1500 then
      (i, px) :: packItems s cols first sz (n + 1) r
    else []

/-- The FrameTx of a frame with something done to it; a frame that has none gets one. -/
def Entry.onFrame (x : Entry) (f endTick : Nat) (h : FrameTx → FrameTx) : Entry :=
  if x.frames.any fun t => t.frame == f then
    { x with frames := x.frames.map fun t => if t.frame == f then h t else t }
  else { x with frames := x.frames ++ [h ⟨f, false, 0, [], false, endTick⟩] }

/-- The tick of the wall-clock end of frame `f` in the tenant's binding (R69, R186). -/
def Tenant.frameEnd (g : Geo) (t : Tenant) (f : Nat) : Nat :=
  t.lineTick g ((f + 1) * g.lines - 1) + g.lineTicks

/-- The present time of frame `f` at an entry (R186). -/
def State.presentTime (s : State) (e k endTick : Nat) : Nat :=
  endTick + s.presentDelay e * (s.geo k).framePeriod

/-- The items of a message become records handed to the port (R181): signatures stored, dirty marks
cleared, counted. DESIGN CHOICE: the records that BEAM_MARK's REGIONS counts (R188) are those handed to the port, later
discarded from its queue (R200) or not. -/
def State.handRecords (s : State) (first : PushItem) (ps : List (PushItem × List Byte)) : State :=
  let x := s.entry first.ent
  let x := ps.foldl (fun x (i, px) =>
    { x with sigs := Store.set 0 x.sigs i.region (crc32 px)
             clean := i.region :: x.clean.filter fun r => r != i.region }) x
  let g := s.geo first.tenant
  let endTick := (s.tenant first.tenant).frameEnd g first.frame
  let x := x.onFrame first.frame endTick fun f => { f with records := f.records + ps.length }
  let swept := (ps.filter fun p => p.1.swept).length
  ((s.setEntry first.ent x).countN F.PSH_REGIONS_SENT_COUNT ps.length).countN F.PSH_SWEEP_REGIONS_COUNT swept

/-- The push items of a compositor that the push engine may take: none while PSH.CTRL.EN is 0, and none of an entry
whose STN page is disabled (R423). An entry's items are taken in the order queued, also across a move of its tenant to
another sector (R185). -/
def State.openItems (s : State) (c : Nat) : List PushItem :=
  if s.bit F.PSH_EN then
    s.push.filter fun i => i.sec == c && s.bit (F.STN_EN i.ent) && (s.push.find? fun x => x.ent == i.ent).all fun x => x.sec == c
  else []

/-- Whether the push engine has no credit for a field port (R17). -/
def State.egressStalled (s : State) (p : Nat) : Bool := if h : p < 16 then s.stalled (.egress ⟨p, h⟩) else false

/-- The push engine takes the next item in round-robin order of the compositors (R19): it discards it
(R200), or encodes one REGION message from it and the items that follow it (R184, R189). Without a credit for the port it
holds what it would send (R17). DESIGN CHOICE: an item that it takes while the port has no link counts as one message in
PORT_DOWN_DISCARDS (log entry 126). -/
def execRegion (s : State) : Out :=
  let order := (List.range 8).map fun i => (s.pushNext + i) % 8
  match order.find? fun c => s.openItems c != [] with
  | none => .next s
  | some c =>
    let s₀ := s
    let mine := s.openItems c
    let s := { s with pushNext := (c + 1) % 8 }
    match mine with
    | [] => .next s
    | i :: _ =>
      let drop := { s with push := s.push.erase i }
      let present := s.ebit F.STN_ENT_CTRL_EN i.ent && s.efld F.STN_STATE_STATE i.ent == 2
        && s.efld F.STN_ENT_CTRL_TENANT i.ent == i.tenant
      if i.epoch != (s.tenant i.tenant).epoch then .next (drop.count F.PSH_STALE_DISCARDS_COUNT)
      else if !present then .next ((drop.dirty i.ent [i.region]).count F.PSH_ABSENT_DISCARDS_COUNT)
      else if !s.portUp (s.entryPort i.ent) then
        .next ((drop.dirty i.ent [i.region]).count F.PSH_PORT_DOWN_DISCARDS_COUNT)
      else if s.egressStalled (s.entryPort i.ent) then .next s₀
      else
        let ps := packItems s (max 1 ((s.geo i.tenant).w / 16)) i 22 0 mine
        let payload := beBytes 4 (BitVec.ofNat 32 i.frame) ++ [BitVec.ofNat 8 ps.length, 0]
          ++ ps.flatMap fun (j, px) => record j.region px
        let endTick := (s.tenant i.tenant).frameEnd (s.geo i.tenant) i.frame
        let s := { s with push := ps.foldl (fun (q : List PushItem) (p : PushItem × List Byte) => q.erase p.1) s.push }
        let s := s.handRecords i ps
        .next (s.queueRsp { ent := i.ent, tenant := i.tenant, epoch := i.epoch, typ := 1, payload := payload
                            frame := i.frame, full := false, regions := ps.map fun (p : PushItem × List Byte) => p.1.region
                            present := s.presentTime i.ent i.tenant endTick })

/-! BEAM_MARK. -/

/-- The oldest frame of an entry whose last push item is queued to the port and whose wall-clock end has
come (R186). -/
def State.markReady (s : State) (e tick : Nat) : Option FrameTx :=
  match (s.entry e).frames with
  | [] => none
  | f :: _ =>
    if s.bit F.PSH_EN && s.bit (F.STN_EN e) && f.done && f.endTick ≤ tick && !(s.push.any fun i => i.ent == e && i.frame == f.frame)
    then some f
    else none

/-- The BEAM_MARK of the next frame of an entry is queued (R186, R188, R191), once the port has a credit (R17). -/
def execBeamMark (e : Ent) (at_ : Nat) (s : State) : Out :=
  match s.markReady e (max s.tick at_) with
  | none => .next s
  | some f =>
    if s.portUp (s.entryPort e) && s.egressStalled (s.entryPort e) then .next s
    else
    let s := s.advance at_
    let k := s.efld F.STN_ENT_CTRL_TENANT e
    let g := s.geo k
    let x := s.entry e
    let s := s.setEntry e { x with frames := x.frames.drop 1 }
    let present := s.presentTime e k f.endTick
    let payload := beBytes 4 (BitVec.ofNat 32 f.frame) ++ beBytes 8 (BitVec.ofNat 64 present)
      ++ beBytes 2 (BitVec.ofNat 16 f.records) ++ [if f.full then 1 else 0, BitVec.ofNat 8 (g.w / 16),
        BitVec.ofNat 8 (g.h / 16), 0]
    .next (s.queueRsp { ent := e, tenant := k, epoch := (s.tenant k).epoch, typ := 4, payload := payload
                        frame := f.frame, full := f.full, regions := [], present := present })

/-! Transmission. -/

/-- The bytes of an RSP message: header, payload, padding to 46 (R187). -/
def rspBytes (m : RspMsg) (seq : Word) : List Byte :=
  let bs := [BitVec.ofNat 8 (0x10 + m.typ.toNat), 0] ++ beBytes 2 (BitVec.ofNat 16 m.ent)
    ++ beBytes 2 (BitVec.ofNat 16 m.tenant) ++ beBytes 2 m.epoch ++ beBytes 4 seq
    ++ beBytes 2 (BitVec.ofNat 16 m.payload.length) ++ [0, 0] ++ m.payload
  bs ++ List.replicate (46 - bs.length) 0

/-- The tag of frames with a VID (R202): none for 0. -/
def State.vlanTag (s : State) (p vid : Nat) : Option VlanTag :=
  if vid = 0 then none else some ⟨BitVec.ofNat 3 (s.fld (F.PRT_CFG_PCP p)), BitVec.ofNat 12 vid⟩

/-- A message sent on a port: numbered in the entry's series (R192), addressed and tagged by the entry (R202). DESIGN
CHOICE: the first SEQ after START-up is 1, and the series goes on over EN cleared and set (R192 gives no start). The
BEAM_MARK of a frame sent in full clears FULL_PENDING, unless a later full frame is still due (R193). -/
def State.transmit (s : State) (p : Nat) (m : RspMsg) : State :=
  let seq := s.efld F.STN_TX_SEQ_SEQ m.ent + 1
  let s := s.setEfld F.STN_TX_SEQ_SEQ m.ent seq
  let frame : WireFrame := .rsp (s.entryMac m.ent) (s.vlanTag p (s.efld F.STN_PORTS_VID m.ent))
    (BitVec.ofNat 16 (s.fld F.PSH_CFG_ETHERTYPE)) (rspBytes m (BitVec.ofNat 32 seq))
  let q := s.port p
  let s := (s.setPort p { q with sent := q.sent ++ [frame] }).count (F.PRT_TX_FRAMES_COUNT p)
  let x := s.entry m.ent
  if m.typ = 4 && m.full && !x.fullReq && !(x.frames.any fun f => f.full) then
    s.setEfld F.STN_STATE_FULL_PENDING m.ent 0
  else s

/-- Whether a port's transmitter is on: else the module asserts TX_DISABLE of its cage (R418). -/
def State.txOn (s : State) (p : Nat) : Bool := s.bit (F.PRT_EN p) && s.bit (F.PRT_CFG_TX_ON p)

/-- Whether a queued message may be sent: it waits while the PSH page, or the STN page of its entry, is disabled (R423).
DESIGN CHOICE: AUDIO and PALETTE wait so too, in the port's queue (log entry 127). -/
def State.sendable (s : State) (m : RspMsg) : Bool := s.bit F.PSH_EN && s.bit (F.STN_EN m.ent)

/-- A field port transmits its next queued message (R185): AUDIO first, but none that would begin after
its present time (R200). -/
def execFrameTransmit (p : PortNo) (at_ : Nat) (s : State) : Out :=
  if !s.portUp p || !s.txOn p then .next s
  else
    let s := s.advance at_
    let q := s.port p
    let audio := q.audio.filter fun m => !decide (m.present < s.tick)
    let s := s.countN F.PSH_LATE_AUDIO_COUNT (q.audio.length - audio.length)
    match audio.find? s.sendable, q.queue.find? s.sendable with
    | some m, _ => .next ((s.setPort p { q with audio := audio.erase m }).transmit p m)
    | none, some m => .next ((s.setPort p { q with audio := audio, queue := q.queue.erase m }).transmit p m)
    | none, none => .next (s.setPort p { q with audio := audio })

end Sys2Proof.Machine
end

