-- ==== Sys2Proof/Machine/Compose.lean ====
section
/-! DEFINITION. Composition (R163 to R177, R182): the overlay set and its commit, the layers of a pixel,
the frame store, and what the start of a frame and the end of a band set off. -/

namespace Sys2Proof.Machine

/-! The latched overlay set. -/

/-- A word of the latched set, by its word offset in the TEN page. -/
def Compo.word (c : Compo) (key : Nat) : Word := Store.get (tenantRst key) c.latched key

/-- A field of the latched set. -/
def Compo.fld (c : Compo) (f : Fld) : Nat := getBits (c.word f.key) f.lo f.w

/-- The words of the overlay set: 0x200 to 0x26F of the TEN page (R170). -/
def overlayWords : List Nat := (List.range 28).map fun i => 0x80 + i

/-- The staged set moved into use (R170, R171). -/
def Tenant.latchOverlay (t : Tenant) : Tenant :=
  let latched := overlayWords.foldl (fun l k => Store.set (tenantRst k) l k (t.word k)) t.compo.latched
  { t with compo := { t.compo with latched := latched, told := false } }.setBit F.TEN_OVL_CTRL_PENDING false

/-- A commit (R170): PENDING, and the BATCH of the write. -/
def Tenant.commitOverlay (t : Tenant) : Tenant :=
  let t := t.setBit F.TEN_OVL_CTRL_PENDING true
  { t with compo := { t.compo with batch := BitVec.ofNat 8 (t.fld F.TEN_OVL_CTRL_BATCH), told := false } }

/-- The byte of overlay palette entry `i` and component `j` in the latched set (R169). -/
def Compo.ovlByte (c : Compo) (i j : Nat) : Byte :=
  let o := 0x240 + 3 * i + j
  BitVec.ofNat 8 (getBits (c.word (o / 4)) (8 * (o % 4)) 8)

/-! A composed pixel. -/

/-- The offset in the overlay area of the value of layer O`k+1` at a canvas pixel that it covers
(R165). -/
def Compo.offsetAt (c : Compo) (k x n : Nat) : Option Nat :=
  let w := c.fld (F.TEN_OVL_SIZE_WIDTH k)
  let h := c.fld (F.TEN_OVL_SIZE_HEIGHT k)
  let ox : Int := x - (BitVec.ofNat 11 (c.fld (F.TEN_OVL_POS_X k))).toInt
  let oy : Int := n - (BitVec.ofNat 11 (c.fld (F.TEN_OVL_POS_Y k))).toInt
  if c.fld (F.TEN_OVL_MODE_MODE k) != 0 && w ≤ 640 && h ≤ 480 && 0 ≤ ox && ox < w && 0 ≤ oy && oy < h then
    some ((c.fld (F.TEN_OVL_IMAGE_OFFSET16 k) * 16 + oy.toNat * w + ox.toNat) % 1048576)
  else none

/-- The result of layer O`k+1` on index `b` (R165, R166); a byte that cannot be read leaves `b` (R175). -/
def Compo.layer (c : Compo) (read : Nat → Option Byte) (k x n b : Nat) : Nat :=
  match (c.offsetAt k x n).bind read with
  | none => b
  | some v =>
    let m := if c.fld F.TEN_OVL_CTRL_RESERVE = 1 then 240 + v.toNat % 16 else v.toNat
    match c.fld (F.TEN_OVL_MODE_MODE k) with
    | 1 => m
    | 2 => if v.toNat = c.fld (F.TEN_OVL_MODE_KEY k) then b else m
    | 3 => if c.fld (F.TEN_OVL_MODE_WLO k) ≤ b && b ≤ c.fld (F.TEN_OVL_MODE_WHI k) then m else b
    | _ => b

/-- The layers drawn, bottom to top: 0 is the tenant, 1 to 3 are O1 to O3 (R167). -/
def Compo.stack (c : Compo) : List Nat :=
  if c.fld F.TEN_OVL_CTRL_PROG_ORDER = 0 then [0, 1, 2, 3]
  else
    let order := c.fld F.TEN_OVL_CTRL_ORDER
    let ls := (List.range 4).foldl (fun ls i =>
      let l := order / 4 ^ i % 4
      if ls.contains l then ls else ls ++ [l]) []
    if ls.contains 0 then ls else 0 :: ls

/-- The composed index of a canvas pixel whose tenant index is `p` (R168). -/
def Compo.pixel (c : Compo) (read : Nat → Option Byte) (x n p : Nat) : Nat :=
  c.stack.foldl (fun b l => if l = 0 then p else c.layer read (l - 1) x n b) p

/-! Previews (R344). -/

/-- A PREVIEW_DATA message to each host with a preview of tenant `k` in force that `want` selects. -/
def State.toPreviews (s : State) (k : Nat) (want : Preview → Bool) (m : Preview → HostMsg) : State :=
  (s.previews.filter fun p => p.tenant == k && want p).foldl (fun s p => s.toHost p.host (m p)) s

/-- The bytes R, G, B of the 256 palette entries that the stations receive (R169, R190). -/
def Compo.rgb (c : Compo) : List Byte :=
  (List.range 256).flatMap fun i => (List.range 3).map fun j =>
    if 240 ≤ i && c.reserve then c.ovlPal.getD (3 * (i - 240) + j) 0 else memGet c.palLast (4 * i + j)

/-- The preview of frame `f`, which has just become the front buffer: its lines and its palette. The
preview ends after its last frame. -/
def State.previewFrame (s : State) (k f : Nat) : State :=
  let g := s.geo k
  let c := (s.tenant k).compo
  let base := frameKey k c.relocated f
  let s := (List.range g.h).foldl (fun s n =>
    s.toPreviews k (fun p => p.kind.getLsbD 0) fun _ =>
      .preview (BitVec.ofNat 16 k) 0 (BitVec.ofNat 16 n) (BitVec.ofNat 32 f) (memBytes s.hbm (base + n * 640) 640)) s
  let s := s.toPreviews k (fun p => p.kind.getLsbD 0) fun _ =>
    .preview (BitVec.ofNat 16 k) 1 (Config.previewLine k f) (BitVec.ofNat 32 f) c.rgb
  let left := s.previews.map fun p => if p.tenant = k then { p with left := p.left - 1 } else p
  { s with previews := left.filter fun p => p.left != 0 }

/-! The start of a frame. -/

/-- The OVERLAY_WRITE bytes accepted before the boundary applied to the overlay area (R172); bytes
outside the area are none. -/
def State.applyOverlay (s : State) (k : Nat) : State :=
  let t := s.tenant k
  let base := overlayKey k t.compo.relocated
  let hbm := t.compo.writes.foldl (fun h w =>
    if w.off < 1048576 then memPut h (base + w.off) (w.data.take (1048576 - w.off)) else h) s.hbm
  let tags := (t.compo.writes.filter fun w => w.last).map fun w => w.batch
  { s with hbm := hbm }.setTenant k
    { t with compo := { t.compo with writes := [], applied := (t.compo.applied ++ tags).eraseDups } }

/-- A tenant whose stack is fenced moves to the relocation reserve, and its layers are off until a new
commit (R266). -/
def Tenant.relocate (t : Tenant) : Tenant :=
  let off := (List.range 3).foldl (fun (l : Store Word) i =>
    let key := (F.TEN_OVL_MODE_MODE i).key
    Store.set (tenantRst key) l key (setBits (Store.get (tenantRst key) l key) 0 2 0)) t.compo.latched
  { t with compo := { t.compo with relocated := true, latched := off } }

/-- The latch decision at a frame boundary (R171). -/
def State.decideOverlay (s : State) (k : Nat) : State :=
  let t := s.tenant k
  if !t.bit F.TEN_OVL_CTRL_PENDING then s
  else if t.compo.batch = 0 || t.compo.applied.contains t.compo.batch then s.setTenant k t.latchOverlay
  else
    let u := t.count F.TEN_OVL_DEFERRED_COUNT
    let s := s.setTenant k { u with compo := { u.compo with told := true } }
    if t.compo.told then s else s.tell 0x010A k

/-- Runs of consecutive entries: start and count, from a rising list. -/
def runsOf (is : List Nat) : List (Nat × Nat) :=
  is.foldr (fun i rs => match rs with
    | (a, n) :: r => if a = i + 1 then (i, n + 1) :: r else (i, 1) :: (a, n) :: r
    | [] => [(i, 1)]) []

/-- The payload of a PALETTE message with entries `is` (R190). -/
def palettePayload (f : Nat) (rgb : List Byte) (is : List Nat) : List Byte :=
  let rs := runsOf is
  beBytes 4 (BitVec.ofNat 32 f) ++ [BitVec.ofNat 8 rs.length, 0] ++ rs.flatMap fun (a, n) =>
    [BitVec.ofNat 8 a, BitVec.ofNat 8 (n - 1)] ++ (rgb.drop (3 * a)).take (3 * n)

/-- The palette snapshots of frame `f` taken into the compositor's palette, and the entries that count
as changed (R146, R147, R169). DESIGN CHOICE: where R147 counts all 256 entries as changed, after PAL.CTRL.EN has been 0,
the overlay entries count only where they differ, since their snapshot does not depend on EN (log entry 124). -/
def Tenant.takePalette (t : Tenant) (f : Nat) : Tenant × List Nat :=
  let c := t.compo
  let res := c.fld F.TEN_OVL_CTRL_RESERVE == 1
  let ovl := (List.range 48).map fun i => c.ovlByte (i / 3) (i % 3)
  let snap := t.record.pal.find? fun p => p.frame == f
  let own := match snap with
    | some p => p.changed.filter fun i => !(res && 240 ≤ i)
    | none => []
  let top := (List.range 16).filter fun i => res != c.reserve || (res && (List.range 3).any fun j =>
    ovl.getD (3 * i + j) 0 != c.ovlPal.getD (3 * i + j) 0)
  let last := match snap with
    | some p => p.bytes
    | none => c.palLast
  let have_ := c.palHave || snap.isSome
  let changed := (List.range 256).filter fun i => own.contains i || (240 ≤ i && top.contains (i - 240))
  let keep (ps : List PalSnap) : List PalSnap := ps.filter fun p => decide (f < p.frame)
  ({ t with compo := { c with palLast := last, palHave := have_, ovlPal := ovl, reserve := res }
            core := { t.core with pal := keep t.core.pal }
            record := { t.record with pal := keep t.record.pal } }, changed)

/-- The start of frame `f` for a present entry (R182, R193): whether it is sent in full, its sweep, its
PALETTE message. -/
def State.startEntry (s : State) (k f : Nat) (changed : List Nat) (e : Nat) : State :=
  let g := s.geo k
  let t := s.tenant k
  let x := s.entry e
  let n := g.regions
  let period := s.efld F.STN_REFRESH_REFRESH_PERIOD e
  let ptr := s.efld F.STN_REFRESH_SWEEP_PTR e
  let m := if period = 0 then 0 else ceilDiv n period
  let sweep := (List.range m).map fun i => (ptr + i) % n
  let s := if m = 0 then s else s.setEfld F.STN_REFRESH_SWEEP_PTR e ((ptr + m) % n)
  let endTick := t.frameEnd g f
  let tx : FrameTx := ⟨f, x.fullReq, 0, sweep, false, endTick⟩
  let s := s.setEntry e { x with fullReq := false, frames := x.frames ++ [tx] }
  let is := if x.fullReq then List.range 256 else changed
  if is = [] then s
  else s.queueRsp { ent := e, tenant := k, epoch := t.epoch, typ := 2, payload := palettePayload f t.compo.rgb is
                    frame := f, full := x.fullReq, regions := [], present := s.presentTime e k endTick }

/-- The compositor takes line 0 of frame `f` (R170 to R172, R176, R182, R266). -/
def State.openFrame (s : State) (k f : Nat) : State :=
  let s := if f = 0 then s else s.previewFrame k (f - 1)
  let s := if s.cont.fencedStacks.contains (k % 2) && !(s.tenant k).compo.relocated then
    s.onTenant k Tenant.relocate else s
  let s := (s.applyOverlay k).decideOverlay k
  let (t, changed) := (s.tenant k).takePalette f
  let s := s.setTenant k t
  (s.presentOf k).foldl (fun s e => s.startEntry k f changed e) s

/-! The end of a band. -/

/-- The push items of a complete band for an enabled entry (R181). A frame is on its way to the entry only while its
station is present; the items of an entry whose station is waiting or absent are for R200 to discard. -/
def State.bandItems (s : State) (k f j : Nat) (sigs : List (Nat × Word)) (e : Nat) : State :=
  let g := s.geo k
  let t := s.tenant k
  let here := s.efld F.STN_STATE_STATE e == 2
  let x := if here then (s.entry e).onFrame f (t.frameEnd g f) id else s.entry e
  let tx := x.frames.find? fun t => t.frame == f
  let full := match tx with
    | some t => t.full
    | none => false
  let sweep := match tx with
    | some t => t.sweep
    | none => []
  let items := (sigs.filter fun (r, v) => full || !x.clean.contains r || Store.get 0 x.sigs r != v || sweep.contains r).map
    fun (r, _) => ({ sec := t.sector, tenant := k, epoch := t.epoch, ent := e, frame := f, region := r
                     swept := sweep.contains r } : PushItem)
  let last := decide ((j + 1) * 16 = g.h)
  let x := if here then x.onFrame f 0 fun t => { t with done := t.done || last } else x
  { s with push := s.push ++ items }.setEntry e x

/-- Band `j` of frame `f` is complete (R26, R180, R181). While the tenant's stack is fenced and its next
frame has not begun, nothing is pushed (R266). -/
def State.closeBand (s : State) (k f j : Nat) : State :=
  let lost := s.cont.fencedStacks.contains (k % 2) && !(s.tenant k).compo.relocated
  let cols := (s.geo k).w / 16
  let sigs := if lost then [] else
    (List.range cols).map fun i => (j * cols + i, crc32 (s.regionBytes k f (j * cols + i)))
  (s.entriesOf k).foldl (fun s e => s.bandItems k f j sigs e) s

/-! Taking a line. -/

/-- The first buffered line of a tenant, when its ring has committed (R277). -/
def Tenant.headLine (t : Tenant) : Option LineBuf :=
  match t.bufs with
  | b :: _ => if b.line < t.handed then some b else none
  | [] => none

/-- Whether line `l` of a tenant waits for the release of its band (R177). -/
def State.bandHeld (s : State) (k l : Nat) : Bool :=
  let g := s.geo k
  let f := l / g.lines
  let j := l % g.lines / 16
  s.push.any fun i => i.tenant == k && i.frame + 2 == f && i.region / max 1 (g.w / 16) == j

/-- The tenants of an engine with a line for the compositor, by context; none while the engine has no credit for its
line hand-off or at its fabric port (R17). -/
def State.linesOf (s : State) (e : Nat) : List (Nat × Nat × LineBuf) :=
  if s.stalledAt e .handoff || s.portStalled e then []
  else s.tenants.filterMap fun (k, t) =>
    if t.engine = some e then t.headLine.map fun b => (t.ctx, k, b) else none

/-- Whether a compositor holds a line back: one that ends a band, because it has no credit for push items, or one that
starts a frame, because the push engine has none for a port to which its PALETTE goes (R17). -/
def State.itemsHeld (s : State) (sec k l : Nat) : Bool :=
  (l % (s.geo k).lines % 16 == 15 && (if h : sec < 8 then s.stalled (.pushItem ⟨sec, h⟩) else false))
    || (l % (s.geo k).lines == 0 && (s.presentOf k).any fun e => s.portUp (s.entryPort e) && s.egressStalled (s.entryPort e))

/-- The lines that newly wait for the release of their band, counted (R177). DESIGN CHOICE: the rule does not say
whether the lines behind a held one wait too; only a tenant's first line counts, once. -/
def State.countStalls (s : State) (sec : Nat) : State :=
  (List.range 9).foldl (fun s i =>
    (s.linesOf (9 * sec + i)).foldl (fun s (_, k, b) =>
      let t := s.tenant k
      if s.bandHeld k b.line then
        if t.compo.waiting = some b.line then s
        else (s.setTenant k { t with compo := { t.compo with waiting := some b.line } }).count
          (F.CMP_RELEASE_STALLS_COUNT sec)
      else s) s) s

/-- The line that a compositor takes next: engines in round-robin order, the contexts of an engine in
round-robin order (R19). -/
def State.nextLine (s : State) (sec : Nat) : Option (Nat × Nat × Nat × LineBuf) :=
  let c := Store.get Cmp.reset s.cmp sec
  ((List.range 9).map fun i => (c.engine + 1 + i) % 9).findSome? fun i =>
    let ls := (s.linesOf (9 * sec + i)).filter fun (_, k, b) => !s.bandHeld k b.line && !s.itemsHeld sec k b.line
    ((List.range 20).map fun j => (Store.get 0 c.ctx i + 1 + j) % 20).findSome? fun x =>
      (ls.find? fun l => l.1 == x).map fun (_, k, b) => (i, x, k, b)

/-- CTRL.EN of a CMP page. -/
def F.CMP_EN (sec : Nat) : Fld := ⟨(0x46008 + 0x20000 * sec) / 4, 0, 1⟩

/-- The reads of a tenant's overlay area on one line: none at the offsets `bad` (R175). -/
def State.overlayRead (s : State) (k : Nat) (bad : List Nat) (o : Nat) : Option Byte :=
  if bad.contains o then none
  else some (memGet s.hbm (overlayKey k (s.tenant k).compo.relocated + o))

/-- An overlay read error of a layer on a line (R175). DESIGN CHOICE: its event has one item, the tenant, with the
number of the sector (log entry 125). -/
def State.overlayError (s : State) (sec k : Nat) : State :=
  ((s.count (F.CMP_OVL_ERRORS_COUNT sec)).count F.MOD_HBM_UNCORRECTED_COUNT).notify
    Config.overlayErrorCode [(k, sec)]

/-- Line `n` of frame `f` of tenant `k` composed into the frame store (R164 to R168, R175, R176). The reads
of a layer on a line are one read, and only layers in the stack are read: each that fails is an error of its own. -/
def State.compose (s : State) (sec k f n : Nat) (bad : List Nat) (pix : List Byte) : State :=
  let c := (s.tenant k).compo
  let row := (List.range pix.length).map fun x =>
    BitVec.ofNat 8 (c.pixel (s.overlayRead k bad) x n (pix.getD x 0).toNat)
  let failed := (List.range 3).filter fun l => c.stack.contains (l + 1) &&
    (List.range pix.length).any fun x => match c.offsetAt l x n with
      | some o => bad.contains o
      | none => false
  let s := { s with hbm := memPut s.hbm (frameKey k c.relocated f + n * 640) row }
  failed.foldl (fun s _ => s.overlayError sec k) s

/-- A compositor takes a finished line (R163, R176, R177, R19); `badBytes` are the offsets of the
tenant's overlay area whose read fails on this line. In PARKED the compositors are gated (R386). -/
def execComposeLine (sec : Sec) (badBytes : List Nat) (s : State) : Out :=
  if !s.bit (F.CMP_EN sec) || s.gated then .next s
  else
    let s := s.countStalls sec
    match s.nextLine sec with
    | none => .next s
    | some (i, x, k, b) =>
      let g := s.geo k
      let c := Store.get Cmp.reset s.cmp sec
      let s := { s with cmp := Store.set Cmp.reset s.cmp sec ⟨i, Store.set 0 c.ctx i x⟩ }
      let f := b.line / g.lines
      let n := b.line % g.lines
      let s := s.onTenant k fun t => { t with bufs := t.bufs.drop 1, compo := { t.compo with waiting := none } }
      let s := if n = 0 then s.openFrame k f else s
      let s := (s.compose sec k f n badBytes b.pix).count (F.CMP_LINES_COUNT sec)
      .next (if n % 16 = 15 then s.closeBand k f (n / 16) else s)

end Sys2Proof.Machine
end

