-- ==== Sys2Proof/Machine/Router.lean ====
section
/-! DEFINITION. The audio router (R222 to R228) and the commit of a ring, which passes samples to it
(R275, R277). -/

namespace Sys2Proof.Machine

/-- A sample pair of a path: main for 0, fast for 1. -/
def Routed.pair (r : Routed) (path : Nat) : Pair := if path = 1 then r.fast else r.main

/-- The samples 48`j` to 48`j`+47 at the router. -/
def Tenant.block (t : Tenant) (j : Nat) : List Routed :=
  t.routed.filter fun r => decide (48 * j ≤ r.no ∧ r.no < 48 * j + 48)

/-- The 48 pairs of a block, left then right, through a 16-bit byte order. -/
def pairBytes (order : Half → List Byte) (path : Nat) (bs : List Routed) : List Byte :=
  bs.flatMap fun r => order (BitVec.ofInt 16 (r.pair path).l) ++ order (BitVec.ofInt 16 (r.pair path).r)

/-- The path of the audio of a preview: R344 says the one that PATH of the request names, R223 the one that
MIX.ROUTE.PREVIEW_PATH names; where the two differ the spec leaves it open. -/
def Tenant.previewPath (t : Tenant) (p : Preview) : Nat :=
  if Config.previewByRequest then p.path.toNat % 2 else t.fld F.MIX_ROUTE_PREVIEW_PATH

/-- AUDIO message `j` to every present entry (R222), and its preview (R223, R344). -/
def State.sendAudio (s : State) (k j : Nat) : State :=
  let t := s.tenant k
  let bs := t.block j
  let path := t.fld F.MIX_ROUTE_STN_PATH
  let base := match bs with
    | b :: _ => b.tick
    | [] => 0
  let s := (s.presentOf k).foldl (fun s e =>
    let present := base + s.presentDelay e * (s.geo k).framePeriod
    let payload := beBytes 4 (BitVec.ofNat 32 (48 * j)) ++ beBytes 8 (BitVec.ofNat 64 present) ++ [48, 0]
      ++ pairBytes (beBytes 2) path bs
    s.queueRsp { ent := e, tenant := k, epoch := t.epoch, typ := 3, payload := payload, frame := 0
                 full := false, regions := [], present := present }) s
  s.toPreviews k (fun p => p.kind.getLsbD 1) fun p =>
    .preview (BitVec.ofNat 16 k) 2 (Config.previewLine k j) (Config.previewFrame k j)
      (pairBytes (leBytes 2) (t.previewPath p) bs)

/-- The complete blocks at the router sent; samples that no destination can need any more are dropped:
every sink delay is below 4,096 samples. -/
def State.sendBlocks (s : State) (k : Nat) : State :=
  let t := s.tenant k
  let produced := t.routed.foldl (fun n r => max n (r.no + 1)) 0
  let s := (List.range (produced / 48 - t.audioNext)).foldl (fun s i => s.sendAudio k (t.audioNext + i)) s
  s.onTenant k fun t => { t with
    audioNext := max t.audioNext (produced / 48)
    routed := t.routed.filter fun r => decide (produced < r.no + 4096) }

/-- Whether the sound unit of a tenant's engine has no credit for the audio router (R17). -/
def State.audioHeld (s : State) (t : Tenant) : Bool :=
  match t.engine with
  | some e => s.stalledAt e .audio
  | none => false

/-- A ring commits (R275): nothing holds it up any more, its record is kept, the lines it closes may
leave (R277), its samples pass to the router (R222); without a credit the sound unit holds them (R17). -/
def execRingCommit (k : Tn) (s : State) : Out :=
  let t := s.tenant k
  match t.ring with
  | none => .next s
  | some r =>
    match t.commits r with
    | none => .next s
    | some m =>
      let s := s.setTenant k (t.commitRing (s.geo k) r m)
      let s := s.onEngine t fun s e => s.count (F.RNG_RINGS_COUNT e)
      .next (if s.audioHeld t then s else s.sendBlocks k)

/-! Field-side sinks. -/

/-- A sink by number. -/
def State.sink (s : State) (i : Nat) : Sink := Store.get Sink.reset s.sinks i

/-- The state with a sink replaced. -/
def State.setSink (s : State) (i : Nat) (x : Sink) : State :=
  { s with sinks := Store.set Sink.reset s.sinks i x }

/-- The PTP tick of sink sample `n` (R225). -/
def sinkTick (n : Nat) : Nat := ceilDiv (n * 6250) 3

/-- What a source contributes at a sink sample: the pair, the slips, and the next sample that it plays (R225). `n` is the
oldest sample that the sink has not played or skipped in this epoch. A source that is not RUNNING contributes 0 and raises
nothing. -/
def State.sourceSample (s : State) (k path delay tick n : Nat) : Pair × Nat × Nat :=
  let t := s.tenant k
  let g := s.geo k
  if t.st != 2 then (⟨0, 0⟩, 0, n)
  else
    let due := t.routed.filter fun r => decide (r.tick + delay ≤ tick ∧ n ≤ r.no)
    match due.getLast? with
    | some r => (r.pair path, r.no - n, r.no + 1)
    | none => (⟨0, 0⟩, if t.cycleTick g (g.tickCycle n) + delay ≤ tick then 1 else 0, n)

/-- The fields of a sink's sets: A for false, B for true. -/
def sinkSrc (b : Bool) : (Nat → Nat → Fld) × (Nat → Nat → Fld) × (Nat → Nat → Fld) × (Nat → Nat → Fld) :=
  if b then (F.PSH_SRC_B_TENANT, F.PSH_SRC_B_PATH, F.PSH_SRC_B_GAIN, F.PSH_SRC_B_SRC_EN)
  else (F.PSH_SRC_A_TENANT, F.PSH_SRC_A_PATH, F.PSH_SRC_A_GAIN, F.PSH_SRC_A_SRC_EN)

/-- One source of a sink mixed in (R226). What a sink has played is kept by tenant and path: `prev` is
what it had played before this sample. -/
def State.mixSource (s : State) (i : Nat) (b : Bool) (delay tick : Nat) (prev : Store (Half × Nat))
    (acc : Pair × Nat × Store (Half × Nat))
    (j : Nat) : Pair × Nat × Store (Half × Nat) :=
  let (sum, slips, after) := acc
  let (ft, fp, fg, fe) := sinkSrc b
  if s.bit (fe i j) then
    let k := s.fld (ft i j)
    let path := s.fld (fp i j)
    let ep := (s.tenant k).epoch
    let played := match Store.find? prev (2 * k + path) with
      | some (p, n) => if p = ep then n else 0
      | none => 0
    let (v, n, nx) := s.sourceSample k path delay tick played
    let g : Int := s.fld (fg i j)
    (sum.add (v.map fun x => x * g / 128), slips + n, Store.put after (2 * k + path) (ep, nx))
  else acc

/-- A sink's set swap, when one is pending (R227). -/
def State.sinkSwapEffect (s : State) (i : Nat) : State :=
  if s.bit (F.PSH_SINK_CTRL_SWAP_PENDING i) then
    (s.setBit (F.PSH_SINK_CTRL_ACTIVE_B i) !(s.bit (F.PSH_SINK_CTRL_ACTIVE_B i))).setBit
      (F.PSH_SINK_CTRL_SWAP_PENDING i) false
  else s

/-- The sample of sink `i` that is due at tick `tick` (R225, R226, R228). -/
def State.sinkStep (s : State) (i tick : Nat) : State :=
  let s := s.sinkSwapEffect i
  let x := s.sink i
  let b := s.bit (F.PSH_SINK_CTRL_ACTIVE_B i)
  let delay := max 1 (s.fld (F.PSH_SINK_CTRL_DELAY_MS i)) * 100000
  let (hr, th, rel) := if b then (s.fld (F.PSH_SET_B_HEADROOM i), s.fld (F.PSH_SET_B_LIM_TH i), s.fld (F.PSH_SET_B_LIM_REL i))
    else (s.fld (F.PSH_SET_A_HEADROOM i), s.fld (F.PSH_SET_A_LIM_TH i), s.fld (F.PSH_SET_A_LIM_REL i))
  let (sum, slips, played) := (List.range 16).foldl (s.mixSource i b delay tick x.played) (⟨0, 0⟩, 0, x.played)
  let pre := sum.map fun v => v / 2 ^ min 4 hr
  let window := if s.bit (F.PSH_SINK_CTRL_LOOKAHEAD i) then (if x.pre.length = 49 then x.pre else [])
    else x.pre.drop (x.pre.length - 1)
  let (gain, out) := match window with
    | v :: _ => limit (limTh th) 683 (derivedRelease rel) x.gain v window
    | [] => (x.gain, ⟨0, 0⟩)
  let out := if s.bit (F.PSH_SINK_CTRL_EN i) then out else ⟨0, 0⟩
  let s := s.setSink i { next := x.next + 1, gain := gain
                         pre := (if x.pre.length = 49 then x.pre.drop 1 else x.pre) ++ [pre]
                         played := played, out := out }
  s.countN (F.PSH_SINK_SLIPS_COUNT i) slips

/-- A field-side sink reaches its sample time (R225). -/
def execSinkSample (i : Fin 8) (at_ : Nat) (s : State) : Out :=
  let tick := sinkTick (s.sink i).next
  if tick ≤ max s.tick at_ then .next ((s.advance tick).sinkStep i tick) else .next s

end Sys2Proof.Machine
end

