-- ==== Sys2Proof/Machine/Station.lean ====
section
/-! DEFINITION. Stations and field ports (R192 to R207, R424): received messages, presence, dual homing,
entries, links, PTP, and the self-refresh of the HBM stacks (R204, R205). -/

namespace Sys2Proof.Machine

/-! Received RSP messages. -/

/-- CTRL.EN of the PTP page (R423). -/
def F.PTP_EN : Fld := ⟨0x1C008 / 4, 0, 1⟩

/-- Whether an entry is reached over a port: its first, or its second while DUAL is 1 (R196, R207). -/
def State.entryOn (s : State) (e p : Nat) : Bool :=
  s.efld F.STN_PORTS_PORT_A e == p || (s.ebit F.STN_ENT_CTRL_DUAL e && s.efld F.STN_PORTS_PORT_B e == p)

/-- The enabled entry that a received frame's port, source MAC and VLAN match (R196, R202). -/
def State.matchEntry (s : State) (r : Rx) : Option Nat :=
  (List.range 2048).find? fun e => s.ebit F.STN_ENT_CTRL_EN e && s.bit (F.STN_EN e) && s.entryOn e r.port
    && s.entryMac e == r.mac && s.efld F.STN_PORTS_VID e == r.vid.toNat

/-- A message that is received over a port in service, counted, and accepted by R188 and R196: the entry
and the state; `ok` says that its payload matches its type, `restart` that its SEQ does not count. DEDUCED: a message
that matches no entry has no SEQ to be compared with and is counted in BAD_RX. -/
def State.accept (s : State) (r : Rx) (ok restart : Bool) : State × Option Nat :=
  let s := s.count (F.PRT_RX_FRAMES_COUNT r.port)
  if r.ver != 1 || !ok then (s.count F.PSH_BAD_RX_COUNT, none)
  else
    match s.matchEntry r with
    | none => (s.count F.PSH_BAD_RX_COUNT, none)
    | some e =>
      let fresh := !(s.entry e).heard || newer (s.word (F.STN_RX_SEQ_SEQ (e / 64) (e % 64)).key) r.seq
      if r.station.toNat != e && r.station != 0xFFFF then
        (s.count (if fresh then F.PSH_BAD_RX_COUNT else F.PSH_DUP_RX_COUNT), none)
      else if restart || fresh then
        let s := s.setEfld F.STN_RX_SEQ_SEQ e r.seq.toNat
        (s.setEntry e { s.entry e with heard := true }, some e)
      else (s.count F.PSH_DUP_RX_COUNT, none)

/-- A message that has come over a port in service is taken by `h`, once the input distributor has room for it. Without a
credit the port holds it, behind those that it holds already, and pauses its link partner (R17). -/
def State.receive (s : State) (p : PortNo) (i : Instr) (h : State → State) : State :=
  let q := s.port p
  if !s.portUp p then s
  else if s.stalled (.ingress p) || q.inbox != [] then (s.setPort p { q with inbox := q.inbox ++ [i] }).atZero (.ingress p)
  else h s

/-- What an INPUT does (R188, R196 to R198, R291). -/
def State.takeInput (r : Rx) (len : Byte) (data : List Byte) (s : State) : State :=
  match s.accept r (len.toNat ≤ 240 && data.length == len.toNat) false with
  | (s, none) => s
  | (s, some e) =>
    let k := s.efld F.STN_ENT_CTRL_TENANT e
    if r.epoch != (s.tenant k).epoch then s.ecount F.STN_STALE_RX_COUNT e
    else s.onTenant k fun t => t.queueReport ⟨s.efld F.STN_ENT_CTRL_SLOT e, e, r.seq, data⟩

/-- INPUT. -/
def execInput (r : Rx) (len : Byte) (data : List Byte) (s : State) : Out :=
  .next (s.receive r.port (.input r len data) (State.takeInput r len data))

/-- The STATE of an entry set to present or absent; its page notes the change (R206). -/
def State.setPresence (s : State) (e v : Nat) : State :=
  (s.setEfld F.STN_STATE_STATE e v).setBit (F.STN_STATUS_CHG (e / 64)) true

/-- Whether an absent entry with HOLD_POLICY 1 is left for a tenant (R194). -/
def State.absentHolder (s : State) (k : Nat) : Bool :=
  (s.entriesOf k).any fun e => s.ebit F.STN_ENT_CTRL_HOLD_POLICY e && s.efld F.STN_STATE_STATE e == 3

/-- The module's own hold of a tenant ends when no absent entry with HOLD_POLICY 1 is left (R194). -/
def State.checkHold (s : State) (k : Nat) : State := if s.absentHolder k then s else s.releaseHold k

/-- A STATUS message seen on a port of its entry, accepted or a copy (R195). -/
def State.seeStatus (s : State) (r : Rx) : State :=
  if r.ver != 1 then s
  else
    match s.matchEntry r with
    | some e => s.setEntry e { s.entry e with other := s.entryPort e != r.port }
    | none => s

/-- The registers and link reports of an accepted STATUS (R195, R206). -/
def State.statusRegs (s : State) (e : Nat) (flags : Byte) (last : Word) (late : Half) : State :=
  let x := s.entry e
  let rise := match x.late with
    | some v => (late - v).toNat
    | none => late.toNat
  let link := flags.toNat % 4
  let active := if s.ebit F.STN_PORTS_ACTIVE_B e then link / 2 else link % 2
  let s := (s.setEfld F.STN_STATE_LINK_RX e link).setEfld F.STN_LAST_PRESENTED_FRAME e last.toNat
  let s := s.countN (F.STN_LATE_PRESENTS_COUNT (e / 64) (e % 64)) rise
  s.setEntry e { x with late := some late, linkBad := if active = 1 then 0 else x.linkBad + 1 }

/-- What a STATUS does (R188, R194, R195, R424). -/
def State.takeStatus (r : Rx) (flags : Byte) (lastPresented : Word) (latePresents : Half) (s : State) : State :=
  match (s.seeStatus r).accept r true false with
  | (s, none) => s
  | (s, some e) =>
    let s := s.statusRegs e flags lastPresented latePresents
    if s.efld F.STN_STATE_STATE e = 2 then s
    else
      let k := s.efld F.STN_ENT_CTRL_TENANT e
      let s := ((s.setPresence e 2).wantFull e).tell 0x0302 e
      s.checkHold k

/-- STATUS. -/
def execStatus (r : Rx) (flags : Byte) (lastPresented : Word) (latePresents : Half) (s : State) : Out :=
  .next (s.receive r.port (.status r flags lastPresented latePresents) (State.takeStatus r flags lastPresented latePresents))

/-- What an accepted RESYNC_REQ does (R193, R206): nothing but its count while FULL_PENDING is set. -/
def State.resync (s : State) (e reason : Nat) : State :=
  let s := s.count F.PSH_RESYNC_REQS_COUNT
  if s.ebit F.STN_STATE_FULL_PENDING e then s
  else
    let s := s.ecount F.STN_RESYNCS_COUNT e
    let s := if reason = 1 then s.ecount F.STN_GAPS_COUNT e else s
    let s := s.setEfld F.STN_STATE_FULL_PENDING e 1
    s.setEntry e { s.entry e with clean := [], fullReq := true }

/-- What a RESYNC_REQ does (R188, R193, R196, R206). DESIGN CHOICE: a REASON outside 1 to 4, which the table does not
name, is accepted like 2 and 4. -/
def State.takeResync (r : Rx) (reason : Byte) (s : State) : State :=
  match s.accept r true (reason == 3) with
  | (s, none) => s
  | (s, some e) =>
    let s := if reason = 3 then s.setEntry e { s.entry e with late := none } else s
    s.resync e reason.toNat

/-- RESYNC_REQ. -/
def execResyncReq (r : Rx) (lastSeq : Word) (reason : Byte) (s : State) : Out :=
  .next (s.receive r.port (.resyncReq r lastSeq reason) (State.takeResync r reason))

/-- A message that a port has held is taken. -/
def State.takeHeld (s : State) : Instr → State
  | .input r len data => s.takeInput r len data
  | .status r flags last late => s.takeStatus r flags last late
  | .resyncReq r _ reason => s.takeResync r reason
  | _ => s

/-- The oldest message that a port holds is taken: the input distributor has room for one (R17). -/
def State.openInbox (s : State) (p : PortNo) : State :=
  match (s.port p).inbox with
  | i :: r => (s.setPort p { s.port p with inbox := r }).takeHeld i
  | [] => s

/-! Presence and dual homing. -/

/-- A present station has had no STATUS accepted for 1 s (R194). -/
def execStationAbsent (e : Ent) (s : State) : Out :=
  if s.ebit F.STN_ENT_CTRL_EN e && s.efld F.STN_STATE_STATE e == 2 then
    let k := s.efld F.STN_ENT_CTRL_TENANT e
    let s := ((s.setPresence e 3).discardEntry e).tell 0x0301 e
    .next (if s.ebit F.STN_ENT_CTRL_HOLD_POLICY e then s.onTenant k (Tenant.askHold · true) else s)
  else .next s

/-- A dual-homed entry switches its active port (R195, R200). -/
def State.switchPort (s : State) (e : Nat) : State :=
  let s := s.discardPort (s.entryPort e) fun m => m.ent == e
  let s := s.setEfld F.STN_PORTS_ACTIVE_B e (1 - s.efld F.STN_PORTS_ACTIVE_B e)
  let s := s.wantFull e
  let s := s.setEntry e { s.entry e with linkBad := 0, other := false }
  s.tell 0x0303 e

/-- PORT_SWITCH (R195): the active port has lost its link, two successive STATUS messages report it not
received, or STATUS has come over the other port only for 100 ms. -/
def execPortSwitch (e : Ent) (s : State) : Out :=
  let x := s.entry e
  if s.ebit F.STN_ENT_CTRL_EN e && s.ebit F.STN_ENT_CTRL_DUAL e
      && (!s.bit (F.PRT_STATUS_LINK_UP (s.entryPort e)) || 2 ≤ x.linkBad || x.other) then .next (s.switchPort e)
  else .next s

/-! Writes to station entries. -/

/-- Whether setting EN of an entry with the given ENT_CTRL word is refused (R207). -/
def State.enRefused (s : State) (e : Nat) (w : Word) : Bool :=
  let k := getBits w 16 10
  let slot := getBits w 4 2
  let dual := getBits w 1 1 == 1
  let mine := s.entriesOf k
  let ports := s.efld F.STN_PORTS_PORT_A e :: (if dual then [s.efld F.STN_PORTS_PORT_B e] else [])
  4 ≤ mine.length || (mine.any fun x => s.efld F.STN_ENT_CTRL_SLOT x == slot)
    || (List.range 2048).any fun x => x != e && s.ebit F.STN_ENT_CTRL_EN x && s.entryMac x == s.entryMac e
      && s.efld F.STN_PORTS_VID x == s.efld F.STN_PORTS_VID e && ports.any fun p => s.entryOn x p

/-- What setting EN does (R194, R195, R424). -/
def State.enableEntry (s : State) (e : Nat) : State :=
  let s := (s.setEfld F.STN_STATE_STATE e 1).setEfld F.STN_PORTS_ACTIVE_B e 0
  let x := s.entry e
  s.setEntry e { x with clean := [], frames := [], fullReq := false, heard := false, late := none
                        linkBad := 0, other := false }

/-- What clearing EN does (R194, R198, R200): the input reports not yet applied are discarded and counted too. -/
def State.disableEntry (s : State) (e : Nat) : State :=
  let k := s.efld F.STN_ENT_CTRL_TENANT e
  let s := s.discardEntry e
  let s := s.countN F.PSH_ABSENT_DISCARDS_COUNT ((s.tenant k).reports.filter fun r => r.ent == e).length
  let s := s.onTenant k fun t => { t with reports := t.reports.filter fun r => r.ent != e }
  (s.setEfld F.STN_STATE_STATE e 0).checkHold k

/-- The bits of ENT_CTRL that accept writes only while EN is 0 (R206): DUAL, SLOT, TENANT. -/
def entLocked : Word := maskOf 1 1 ||| maskOf 4 2 ||| maskOf 16 10

/-- ENT_REJECT of an entry's page (R206, R207). -/
def State.entReject (s : State) (e : Nat) : State := s.countNow (F.STN_ENT_REJECT_COUNT (e / 64))

/-- A page-bus write to ENT_CTRL, of the bits in `mask` (R206, R207, R194, R200). -/
def State.writeEntCtrl (s : State) (e : Nat) (mask data : Word) : State :=
  let key := (F.STN_ENT_CTRL_EN (e / 64) (e % 64)).key
  let old := s.word key
  let en := old.getLsbD 0
  let rw : Word := entLocked ||| maskOf 0 1 ||| maskOf 2 1 ||| maskOf 6 2
  let w := blend (mask &&& rw) data old
  let force := mask.getLsbD 8 && data.getLsbD 8
  if !en && w.getLsbD 0 then
    if s.enRefused e w then s.entReject e
    else
      let s := (s.setWord key w).enableEntry e
      if force then s.resync e 0 else s
  else
    let locked := if en then entLocked else 0
    let s := if (w ^^^ old) &&& locked != 0 then s.entReject e else s
    let w := blend (mask &&& rw &&& ~~~locked) data old
    let s := s.setWord key w
    if en && !w.getLsbD 0 then s.disableEntry e
    else
      let k := s.efld F.STN_ENT_CTRL_TENANT e
      let s := if en && old.getLsbD 2 && !w.getLsbD 2 then s.checkHold k
        else if en && !old.getLsbD 2 && w.getLsbD 2 && s.efld F.STN_STATE_STATE e = 3 then
          s.onTenant k (Tenant.askHold · true)
        else s
      if en && force then s.resync e 0 else s

/-- A page-bus write to a word of an entry that accepts writes only while EN is 0: PORTS, MAC_LO, MAC_HI
(R206). `rw` are the word's RW bits: a write that reaches any of them while EN is 1 is ignored and counted. -/
def State.writeEntLocked (s : State) (e key : Nat) (rw mask data : Word) : State :=
  if s.ebit F.STN_ENT_CTRL_EN e then (if mask &&& rw = 0 then s else s.entReject e)
  else s.setWord key (blend (mask &&& rw) data (s.word key))

/-! Ports. -/

/-- A port lost from service: its queued messages are discarded (R200). -/
def State.portLost (s : State) (p : Nat) : State := s.discardPort p fun _ => true

/-- A port returned to service: the entries that it serves get their next frame in full (R200). DESIGN CHOICE: a port
serves the entries whose active port it is. -/
def State.portBack (s : State) (p : Nat) : State :=
  (List.range 2048).foldl (fun s e =>
    if s.ebit F.STN_ENT_CTRL_EN e && s.entryPort e == p then s.wantFull e else s) s

/-- A field port without its link (R200). -/
def State.linkLost (s : State) (p : Nat) : State :=
  if s.bit (F.PRT_STATUS_LINK_UP p) then
    let s := ((s.setBit (F.PRT_STATUS_LINK_UP p) false).setBit (F.PRT_STATUS_FEC_LOCK p) false).setBit
      (F.PRT_STATUS_CHG p) true
    (s.count (F.PRT_LINK_DOWNS_COUNT p)).portLost p
  else s

/-- A field port loses its link (R200). -/
def execLinkDown (p : PortNo) (s : State) : Out := .next (s.linkLost p)

/-- A field port gets its link (R200); `fecLock` says whether RS-FEC locks, where the port uses it
(R201). A port held in reset, or whose transmitter is off, has none. -/
def execLinkUp (p : PortNo) (fecLock : Bool) (s : State) : Out :=
  if s.bit (F.PRT_STATUS_LINK_UP p) || s.bit ⟨F.CLK_RST_PORT_PORT.key, p, 1⟩ || !s.bit (F.PRT_CFG_TX_ON p) then .next s
  else
    let fec := fecLock && s.bit (F.PRT_CFG_RSFEC p) && s.bit (F.PRT_CFG_SPEED25 p)
    let s := ((s.setBit (F.PRT_STATUS_LINK_UP p) true).setBit (F.PRT_STATUS_FEC_LOCK p) fec).setBit
      (F.PRT_STATUS_CHG p) true
    let s := s.setLock (82 + p) true
    .next (if s.bit (F.PRT_EN p) then s.portBack p else s)

/-- The signals of an SFP change (R418). -/
def execSfpChange (p : PortNo) (present los fault : Bool) (s : State) : Out :=
  let old := s.word (F.PRT_STATUS_CHG p).key
  let s := ((s.setBit (F.PRT_STATUS_SFP_PRESENT p) present).setBit (F.PRT_STATUS_SFP_LOS p) los).setBit
    (F.PRT_STATUS_TX_FAULT p) fault
  .next (if s.word (F.PRT_STATUS_CHG p).key = old then s else s.setBit (F.PRT_STATUS_CHG p) true)

/-- A received PAUSE frame (R201). DESIGN CHOICE: it is counted in RX_PAUSE alone, and RX_FRAMES and TX_FRAMES count
neither PAUSE frames nor frames that fail their FCS check (log entry 123). -/
def execPauseReceive (p : PortNo) (s : State) : Out :=
  if s.portUp p then .next (s.count (F.PRT_RX_PAUSE_COUNT p)) else .next s

/-- A received frame that is dropped and counted (R188, R201): one that fails its FCS check or (DESIGN CHOICE: in the
same counter, log entry 122) is longer than a frame may be, one that is neither RSP nor PTP, or an RSP message of a type
that the module does not accept or whose payload does not match its type. -/
def execRxUnknown (p : PortNo) (why : RxBad) (s : State) : Out :=
  if !s.portUp p then .next s
  else
    match why with
    | .fcs => .next (s.count (F.PRT_RX_FCS_ERR_COUNT p))
    | .long => .next (s.count (F.PRT_RX_FCS_ERR_COUNT p))
    | .foreign => .next ((s.count (F.PRT_RX_FRAMES_COUNT p)).count (F.PRT_RX_UNKNOWN_COUNT p))
    | .badRsp => .next ((s.count (F.PRT_RX_FRAMES_COUNT p)).count F.PSH_BAD_RX_COUNT)

/-! PTP (R203). -/

/-- Whether a port runs PTP. -/
def State.ptpOn (s : State) (p : Nat) : Bool := s.portUp p && s.txOn p && s.bit (F.PRT_CFG_PTP_EN p) && s.bit F.PTP_EN

/-- A frame put on a port's wire, counted. -/
def State.sendFrame (s : State) (p : Nat) (w : WireFrame) : State :=
  (s.setPort p { s.port p with sent := (s.port p).sent ++ [w] }).count (F.PRT_TX_FRAMES_COUNT p)

/-- A PTP message of a port (R203): to 01-1B-19-00-00-00, with the tag of PRT.CFG.PTP_VID and the domain of the PTP
page. -/
def State.ptpFrame (s : State) (p : Nat) (type : BitVec 4) (seqId : Half) (body : PtpBody) : WireFrame :=
  .ptp 0x011B19000000 (s.vlanTag p (s.fld (F.PRT_CFG_PTP_VID p))) 0x88F7 type (BitVec.ofNat 8 (s.fld F.PTP_CFG_DOMAIN))
    seqId body

/-- Sync and Follow_Up, which carries the egress time of Sync (two-step). -/
def execSyncSend (p : PortNo) (at_ : Nat) (s : State) : Out :=
  if s.ptpOn p then
    let s := s.advance at_
    let seq := (s.port p).syncSeq
    let s := s.setPort p { s.port p with syncSeq := seq + 1 }
    let s := s.sendFrame p (s.ptpFrame p 0x0 seq (.egress s.tick))
    let s := s.sendFrame p (s.ptpFrame p 0x8 seq (.egress s.tick))
    .next (s.count F.PTP_SYNC_SENT_COUNT)
  else .next s

/-- Announce: the priorities of PTP.CFG, clockClass 248, clockAccuracy 0xFE, timescale ARB. -/
def execAnnounceSend (p : PortNo) (s : State) : Out :=
  if s.ptpOn p then
    let seq := (s.port p).announceSeq
    let s := s.setPort p { s.port p with announceSeq := seq + 1 }
    .next (s.sendFrame p (s.ptpFrame p 0xB seq (.announce (BitVec.ofNat 8 (s.fld F.PTP_CFG_PRIORITY1))
      (BitVec.ofNat 8 (s.fld F.PTP_CFG_PRIORITY2)) 248 0xFE true)))
  else .next s

/-- Delay_Req answered with Delay_Resp, which carries its ingress time and names the requester. -/
def execDelayReq (p : PortNo) (mac : BitVec 48) (seqId : Half) (at_ : Nat) (s : State) : Out :=
  if s.ptpOn p then
    let s := (s.advance at_).count (F.PRT_RX_FRAMES_COUNT p)
    .next ((s.sendFrame p (s.ptpFrame p 0x9 seqId (.delay s.tick mac))).count F.PTP_DELAY_RESP_SENT_COUNT)
  else .next s

/-- A received Announce is counted and ignored. -/
def execForeignAnnounce (p : PortNo) (s : State) : Out :=
  if s.ptpOn p then .next ((s.count (F.PRT_RX_FRAMES_COUNT p)).count F.PTP_FOREIGN_ANNOUNCE_COUNT) else .next s

/-! Self-refresh of the HBM stacks (R204, R205). -/

/-- The slack of a message: its present time less TX_MARGIN less the current time, in ticks; none when
that is negative. -/
def State.slack (s : State) (present : Nat) : Nat :=
  present - 100 * s.fld F.PSH_TX_MARGIN_MARGIN - s.tick

/-- The least slack over the port queues, none when they are empty (R204). -/
def State.portSlack (s : State) : Option Nat :=
  (List.range 16).foldl (fun m p =>
    ((s.port p).audio ++ (s.port p).queue).foldl (fun m x => match m with
      | some v => some (min v (s.slack x.present))
      | none => some (s.slack x.present)) m) none

/-- The least tolerance that the compositors report: over the lines that wait for them, the line's deadline
plus two line periods less the current time (R267). -/
def State.lineSlack (s : State) : Option Nat :=
  s.tenants.foldl (fun m (k, t) =>
    let g := s.geo k
    (t.bufs.filter fun b => b.line < t.handed).foldl (fun m b =>
      let v := t.lineTick g b.line + 3 * g.lineTicks - s.tick
      match m with
      | some x => some (min x v)
      | none => some v) m) none

/-- The least tolerance reported to the stacks, within `bound` where a requester reports one that this
model does not hold. -/
def State.tolerance (s : State) (bound : Option Nat) : Option Nat :=
  [s.portSlack, s.lineSlack, bound].foldl (fun m v => match m, v with
    | some a, some b => some (min a b)
    | some a, none => some a
    | none, v => v) none

/-- SR status of a stack. -/
def F.STACK_SR (st : Nat) : Fld := if st = 0 then F.PSH_STATUS_STACK0_SR else F.PSH_STATUS_STACK1_SR

/-- Whether the tolerance exceeds 4 µs + SR_MARGIN (R205). -/
def State.tolerant (s : State) (bound : Option Nat) : Bool :=
  match s.tolerance bound with
  | some v => decide (100 * (4 + s.fld F.PSH_SR_CTRL_SR_MARGIN) < v)
  | none => true

/-- An HBM stack with no request queued enters self-refresh when the tolerance allows it (R205). -/
def execSelfRefreshEntry (stack : Fin 2) (tolerance : Option Nat) (s : State) : Out :=
  if s.bit F.PSH_SR_CTRL_SR_EN && s.tolerant tolerance && !s.cont.fencedStacks.contains stack.val then
    .next (s.setBit (F.STACK_SR stack) true)
  else .next s

/-- A stack leaves self-refresh on a request, or because the tolerance has fallen (R205). -/
def execSelfRefreshExit (stack : Fin 2) (s : State) : Out := .next (s.setBit (F.STACK_SR stack) false)

end Sys2Proof.Machine
end

