-- ==== Sys2Proof/Machine/Nvs.lean ====
section
/-! DEFINITION. The non-volatile store (R352 to R357) and the tenants' save pages (R358 to R361). -/

namespace Sys2Proof.Machine

/-! Pages. -/

/-- Two 16-bit halves of a page number as an event item (R372). -/
def pageItem (n : Nat) : Nat × Nat := (n / 65536, n % 65536)

/-- A page read (R353). -/
def State.readPage (s : State) (n : Nat) : State × List Byte :=
  let p := s.nvsPage n
  match p.current with
  | some c => (s, (p.slot c).bytes)
  | none => ((s.count F.NVS_BAD_PAGES_COUNT).notify 0x0401 [pageItem n], List.replicate 256 0)

/-! Save pages. -/

/-- An input for a tenant from outside tenant time, journaled where it enters (R80). -/
def Tenant.input (t : Tenant) (i : Input) : Tenant := { t with inputs := t.inputs ++ [i] }

/-- One page write of a commit has completed (R359). The completion of a commit of an older epoch reaches no
tenant (R360). -/
def State.saveWritten (s : State) (k : Nat) (ep : Half) (point : Nat) (ok : Bool) : State :=
  let t := s.tenant k
  match t.savJobs.find? fun j => j.epoch == ep && j.point == point with
  | none => s
  | some j =>
    let j' : SavJob := { j with left := j.left - 1, failed := j.failed || !ok }
    let rest := t.savJobs.filter fun x => x != j
    let t := if ok && ep == t.epoch then t.count F.SAV_PAGES_COUNT else t
    if j'.left = 0 then
      let t := { t with savJobs := rest }
      s.setTenant k (if ep = t.epoch then t.input (.saveDone !j'.failed) else t)
    else s.setTenant k { t with savJobs := rest ++ [j'] }

/-- What a completed page write means to its requester. -/
def State.nvsDone (s : State) (w : NvsWho) (ok : Bool) : State :=
  match w with
  | .save k ep pt => s.saveWritten k ep pt ok
  | .panel true => { s with panel := { s.panel with ready := s.panel.starting } }
  | _ => s

/-- NVS performs the next queued page write (R352, R355); `ok` is false when it fails its verification
after three attempts. -/
def State.nvsStep (s : State) (ok : Bool) : State :=
  match s.nvs.queue with
  | [] => s
  | w :: r =>
    let s := { s with nvs := { s.nvs with queue := r } }.writePage w.page (memBytes w.data 0 256) ok
    let s := if ok then s.count F.NVS_PAGE_WRITES_COUNT
      else (s.setBit F.NVS_STATUS_WRITE_FAIL true).notify 0x0402 [pageItem w.page]
    ((s.nvsDone w.who ok).nvsAdmit).nvsLevel

/-- A tenant store to SAV.GO (R358). -/
def execSavGo (k : Tn) (v : Byte) (s : State) : Out := runBoundary k (storeAt 0xFD08 v) s

/-- The pages of a mask, as bits. -/
def maskPages (m : Word) : List Nat := (List.range 32).filter fun p => m.getLsbD p

/-- The 256 bytes of save page `p` as a step at cycle `e` reads them (R358). -/
def Tenant.savePage (t : Tenant) (e p : Nat) : Memory :=
  memPut [] 0 ((List.range 256).map fun i => t.core.ramAt e (0x10000 + 256 * p + i))

/-- The commit step reads the selected pages at its last cycle, and they are queued to NVS, at most once for
a tenant, epoch and tenant-time point (R358, R359). -/
def execSavCommit (k : Tn) (s : State) : Out :=
  let g := s.geo k
  match (s.tenant k).ready g .sav with
  | none => .next s
  | some (t, e) =>
    match t.core.sav with
    | none => .next s
    | some x =>
      if !t.executes then .next s
      else
        let pages := maskPages x.mask
        let ws := pages.map fun p => ({ page := 32 * k + p, data := t.savePage e p, who := .save k x.epoch e } : NvsWrite)
        let t := { t with core := { t.core with sav := none } }
        if t.savSeen.contains (x.epoch, e) then .next (s.setTenant k t)
        else
          let t := { t with savSeen := t.savSeen ++ [(x.epoch, e)] }
          if pages = [] then .next (s.setTenant k (t.input (.saveDone true)))
          else
            let t := { t with savJobs := t.savJobs ++ [⟨x.epoch, e, pages.length, false⟩] }
            .next (ws.foldl (fun s w => s.nvsAsk w true) (s.setTenant k t))

/-- A write of 1 to SAV.ERASE (R361): 32 zero pages are queued and save RAM is zeroed, for an EMPTY or
LOADED tenant. -/
def State.saveErase (s : State) (k : Nat) : State :=
  let t := s.tenant k
  if t.st = 0 || t.st = 1 then
    let s := s.setTenant k { t with core := { t.core with mem := memClear t.core.mem 0x10000 0x2000 } }
    (List.range 32).foldl (fun s p => s.nvsAsk ⟨32 * k + p, [], .erase k⟩ false) s
  else s.setTenant k (t.count ⟨0xDF00 / 4, 0, 32⟩)

/-- The save pages of a tenant copied into its save RAM (R353, R357). -/
def State.loadSave (s : State) (k : Nat) : State :=
  (List.range 32).foldl (fun s p =>
    let (s, bs) := s.readPage (32 * k + p)
    s.onTenant k fun t => { t with core := { t.core with mem := memPut t.core.mem (0x10000 + 256 * p) bs } }) s

/-! Epochs (R290). -/

/-- The epoch of a tenant recorded in NVS. -/
def State.recordEpoch (s : State) (k : Nat) (ep : Half) : State :=
  let n := 36881 + k / 128
  let s := (s.readPage n).1
  let bs := s.pageLatest n
  let i := 2 * (k % 128)
  s.nvsRecord n (bs.take i ++ leBytes 2 ep ++ bs.drop (i + 2))

/-- The epoch after one: it wraps from 0xFFFE to 0. -/
def nextEpoch (ep : Half) : Half := if ep = 0xFFFE then 0 else ep + 1

/-- The epoch of a tenant rises, recorded first. -/
def State.raiseEpoch (s : State) (k : Nat) : State :=
  let ep := nextEpoch (s.tenant k).epoch
  (s.recordEpoch k ep).onTenant k fun t => t.setFld F.TEN_CONT_EPOCH ep.toNat

end Sys2Proof.Machine
end

