-- ==== Sys2Proof/Machine/Mirrors.lean ====
section
/-! DEFINITION. Slots and mirrors (R10, R274 to R280): which slots a copy and a mirror may have, the
occupancy registers, staging, cold and warm mirrors. -/

namespace Sys2Proof.Machine

/-! Slots. -/

/-- The slot that a tenant runs in, when it has one. -/
def Tenant.slot (t : Tenant) : Nat := t.fld F.TEN_PLACE_SLOT

/-- The mirror slot of a tenant, when it has one. -/
def Tenant.mslot (t : Tenant) : Nat := t.fld F.TEN_MIRROR_MSLOT

/-- A word of the RNG page of an engine that describes home slot `slot`. -/
def homeWord (slot : Nat) : Nat := (F.RNG_HOME_TENANT (slot / 16) (slot % 16)).key

/-- The word that describes mirror slot `slot`. -/
def mirrorWord (slot : Nat) : Nat := (F.RNG_MIRROR_TENANT (slot / 16) (slot % 16)).key

/-- Whether a home slot is occupied or reserved. -/
def State.homeOcc (s : State) (slot : Nat) : Bool := s.bit (F.RNG_HOME_OCC (slot / 16) (slot % 16))

/-- Whether a mirror slot is occupied. -/
def State.mirrorOcc (s : State) (slot : Nat) : Bool := s.bit (F.RNG_MIRROR_OCC (slot / 16) (slot % 16))

/-- Whether the supervisor may place something on an engine: it is in service, or in retention, from which
it is woken first (R74). -/
def State.usable (s : State) (e : Nat) : Bool := s.estate e == 0 || s.estate e == 6

/-- The engines that run a tenant or will run it: its own, and the one to which it moves. -/
def Tenant.runsOn (t : Tenant) : List Nat :=
  (match t.engine with
    | some e => [e]
    | none => []) ++ (match t.move with
    | some m => [m.dest / 16]
    | none => [])

/-- The mirrors on engine `m` of tenants that run, or after a move in progress will run, on engine `r` (R279). -/
def State.pairCount (s : State) (m r : Nat) : Nat :=
  ((List.range 16).filter fun i =>
    s.bit (F.RNG_MIRROR_OCC m i) && (s.tenant (s.fld (F.RNG_MIRROR_TENANT m i))).runsOn.contains r).length

/-- Whether the mirror of a tenant on engine `r` may be on engine `m` (R279). -/
def State.mayMirror (s : State) (m r : Nat) : Bool := m / 9 != r / 9 && decide (s.pairCount m r < 4)

/-- The mirror slots that a tenant running on the engines `rs` may have (R279). -/
def State.mirrorSlots (s : State) (rs : List Nat) : List Nat :=
  (List.range 1152).filter fun n =>
    !s.mirrorOcc n && s.usable (n / 16) && rs.all fun r => s.mayMirror (n / 16) r

/-- Whether home slot `n` is free and in service. -/
def State.homeFree (s : State) (n : Nat) : Bool := decide (n < 1152) && !s.homeOcc n && s.usable (n / 16)

/-- The engine of a tenant's mirror. -/
def Tenant.mengine (t : Tenant) : Option Nat := if t.mslot < 1152 then some (t.mslot / 16) else none

/-- The engines on which a tenant's mirror is and, while it moves, will be (R281). -/
def Tenant.mirrorsOn (t : Tenant) : List Nat :=
  (match t.mengine with
    | some e => [e]
    | none => []) ++ (match t.mirrorMove with
    | some m => [m.dest / 16]
    | none => [])

/-- Whether a copy of tenant `k` may have home slot `n` with its mirror where it is and where it moves to (R279). -/
def State.homeLegal (s : State) (k n : Nat) : Bool :=
  s.homeFree n &&
  (s.tenant k).mirrorsOn.all fun m =>
    m / 9 != n / 16 / 9 && (decide (s.pairCount m (n / 16) < 4) || (s.tenant k).runsOn.contains (n / 16))

/-- The home slots that a copy of tenant `k` may have. -/
def State.homeSlots (s : State) (k : Nat) : List Nat := (List.range 1152).filter (s.homeLegal k)

/-- A home slot taken by a tenant: occupied, with its mirror. -/
def State.takeHome (s : State) (k n : Nat) : State :=
  let t := s.tenant k
  let e := n / 16
  let h := n % 16
  let s := s.wakeEngine e
  let s := s.setWord (homeWord n) 0
  let s := (s.setFld (F.RNG_HOME_TENANT e h) k).setBit (F.RNG_HOME_OCC e h) true
  (s.setFld (F.RNG_HOME_MSLOT e h) t.mslot).setBit (F.RNG_HOME_MWARM e h) (t.fld F.TEN_MIRROR_MSTATE == 2)

/-- The home slot register of a tenant shows its mirror. -/
def State.showMirror (s : State) (k : Nat) : State :=
  let t := s.tenant k
  if t.slot < 1152 && !t.bit F.TEN_PLACE_TAKEOVER then
    (s.setFld (F.RNG_HOME_MSLOT (t.slot / 16) (t.slot % 16)) t.mslot).setBit
      (F.RNG_HOME_MWARM (t.slot / 16) (t.slot % 16)) (t.fld F.TEN_MIRROR_MSTATE == 2)
  else s

/-- The mirror slot register of a tenant's mirror shows its state and the tenant's home slot. -/
def State.showMState (s : State) (k : Nat) : State :=
  let t := s.tenant k
  let e := t.mslot / 16
  let m := t.mslot % 16
  if t.mslot < 1152 then
    let home := if t.slot < 1152 && !t.bit F.TEN_PLACE_TAKEOVER then t.slot else 0x7FF
    let st := if t.fld F.TEN_MIRROR_MSTATE = 2 then 2 else 1
    let s := (s.setFld (F.RNG_MIRROR_TENANT e m) k).setBit (F.RNG_MIRROR_OCC e m) true
    (s.setFld (F.RNG_MIRROR_MSTATE e m) st).setFld (F.RNG_MIRROR_HSLOT e m) home
  else s

/-- The running copy of a tenant leaves its slot or takeover context, and its sector DMA channels. -/
def State.freeRun (s : State) (k : Nat) : State :=
  let t := s.tenant k
  if t.slot < 1152 then
    let sec := t.sector
    let s := if t.bit F.TEN_PLACE_TAKEOVER then
        (s.setWord (F.RNG_TAKEOVER_TENANT (t.slot / 16) (t.fld F.TEN_PLACE_TCTX)).key 0).setWord (mirrorWord t.slot) 0
      else s.setWord (homeWord t.slot) 0
    let s := (List.range 2).foldl (fun s c => match s.chOf sec k c with
      | some ch => s.setBit (F.SDMA_CH_BUSY (chPage sec ch) (ch % 16)) false
      | none => s) s
    s.onTenant k fun t => ((t.setFld F.TEN_PLACE_SLOT 0x7FF).setBit F.TEN_PLACE_TAKEOVER false).setFld F.TEN_PLACE_TCTX 0
  else s

/-- The running copy of a tenant is at home slot `n`. -/
def State.placeHome (s : State) (k n : Nat) : State :=
  let s := (s.freeRun k).takeHome k n
  let s := s.onTenant k fun t => t.setFld F.TEN_PLACE_SLOT n
  s.showMState k

/-! Mirrors. -/

/-- The move of a mirror is given up: its new slot is free. -/
def State.cancelMirrorMove (s : State) (k : Nat) : State :=
  match (s.tenant k).mirrorMove with
  | none => s
  | some m => (s.setWord (mirrorWord m.dest) 0).onTenant k fun t => { t with mirrorMove := none }

/-- The mirror of a tenant ends and its slot is free; `lost` says that the next one replaces it (R280). -/
def State.dropMirror (s : State) (k : Nat) (lost : Bool) : State :=
  let s := s.cancelMirrorMove k
  let t := s.tenant k
  let s := if t.mslot < 1152 then s.setWord (mirrorWord t.mslot) 0 else s
  let had := decide (t.mslot < 1152)
  let s := s.onTenant k fun t =>
    ({ t with mirror := none, lostMirror := lost && (had || t.lostMirror) }.setFld F.TEN_MIRROR_MSLOT 0x7FF).setFld
      F.TEN_MIRROR_MSTATE 0
  s.showMirror k

/-- A mirror reserved in slot `n`: its live stream starts (R280). -/
def State.createMirror (s : State) (k n : Nat) : State :=
  let s := s.wakeEngine (n / 16)
  let s := s.onTenant k fun t =>
    ({ t with lostMirror := false
              mirror := some { stream := [], staging := [], image := [], live := true, synced := false
                               restored := t.lostMirror } }.setFld F.TEN_MIRROR_MSLOT n).setFld F.TEN_MIRROR_MSTATE 1
  (s.showMState k).showMirror k

/-- A mirror starts to move to slot `n` (R281): the replacement is reserved and warms, while the old one stays. -/
def State.startMirrorMove (s : State) (k n : Nat) : State :=
  let e := n / 16
  let m := n % 16
  let s := ((s.cancelMirrorMove k).wakeEngine e).setWord (mirrorWord n) 0
  let s := (s.setFld (F.RNG_MIRROR_TENANT e m) k).setBit (F.RNG_MIRROR_OCC e m) true
  let home := if (s.tenant k).slot < 1152 && !(s.tenant k).bit F.TEN_PLACE_TAKEOVER then (s.tenant k).slot else 0x7FF
  let s := (s.setFld (F.RNG_MIRROR_MSTATE e m) 1).setFld (F.RNG_MIRROR_HSLOT e m) home
  s.onTenant k fun t => { t with mirrorMove := some ⟨n, 0⟩ }

/-- The replacement of a mirror is complete and holds what the old one holds, whose slot is then free (R281). -/
def State.moveMirror (s : State) (k n : Nat) : State :=
  let old := (s.tenant k).mslot
  let s := s.onTenant k fun t => { t with mirrorMove := none }.setFld F.TEN_MIRROR_MSLOT n
  let s := (s.showMState k).showMirror k
  if old < 1152 then s.setWord (mirrorWord old) 0 else s

/-- The mirror goes cold (R278). -/
def State.coldMirror (s : State) (k : Nat) : State :=
  let slot := (s.tenant k).mslot
  let cold (m : Mirror) : Mirror :=
    { m with stream := [], staging := [], live := false, synced := false, restored := true }
  let s := s.onTenant k fun t => { t with mirror := t.mirror.map cold }.setFld F.TEN_MIRROR_MSTATE 3
  let s := (s.showMState k).showMirror k
  let s := if slot < 1152 then s.count (F.RNG_COLD_MIRRORS_COUNT (slot / 16)) else s
  s.tell 0x0105 k

/-- Whether an entry fits into the 8 KiB of a staging area (R274, R278). -/
def Mirror.fits (m : Mirror) (e : MEntry) : Bool :=
  m.staging.foldl (fun n e => n + e.size) 0 + e.size ≤ 8192

/-- Up to `n` entries of the stream placed into staging; none when one does not fit. -/
def Mirror.stage : Nat → Mirror → Option Mirror
  | 0, m => some m
  | n + 1, m =>
    match m.stream with
    | [] => some m
    | e :: r => if m.fits e then Mirror.stage n { m with stream := r, staging := m.staging ++ [e] } else none

/-- Whether a tenant is to have a mirror: it has been started, its copy is whole, and the engine that runs
it can be read (R280, R287, and the table of the tenant reset). -/
def State.wantsMirror (s : State) (k : Nat) : Bool :=
  let t := s.tenant k
  2 ≤ t.st && t.st ≤ 4 && !t.bit F.TEN_CONT_LOST && !t.waitPromotion &&
  match t.engine with
  | some e => s.estate e == 0
  | none => false

/-- Whether the mirror's engine can be accessed. -/
def State.mirrorUp (s : State) (k : Nat) : Bool :=
  match (s.tenant k).mengine with
  | some e => s.estate e == 0
  | none => false

/-- The mirror port places up to `n` entries of the stream into staging (R274, R278). For a cold mirror
it is the start of the fresh warming; for a tenant without a mirror the supervisor reserves one, the `n`-th
of the slots that R279 allows (R280). -/
def execMirrorStage (k : Tn) (n : Nat) (s : State) : Out :=
  let t := s.tenant k
  if !s.wantsMirror k then .next s
  else
    match t.mirror with
    | none =>
      let slots := s.mirrorSlots t.runsOn
      match slots[n % slots.length]? with
      | some slot => .next (s.createMirror k slot)
      | none => .next s
    | some m =>
      if !s.mirrorUp k then .next s
      else if !m.live then
        let t := { t with mirror := some { m with live := true } }.setFld F.TEN_MIRROR_MSTATE 1
        .next ((s.setTenant k t).showMState k)
      else
        match m.stage n with
        | some m => .next (s.setTenant k { t with mirror := some m })
        | none => .next (s.coldMirror k)

/-- Whether the copy of a tenant's state to another slot, begun `rings` committed rings ago, is warm: at the first
commit after it began, or, of a tenant that takes no rings, once it is complete (R272, R280). -/
def Tenant.copied (t : Tenant) (rings : Nat) : Bool := t.ring.isNone && (1 ≤ rings || !t.executes || !t.core.entered)

/-- A new mirror becomes warm (R272, R280): its image is the committed one. The replacement of a mirror that moves
becomes warm and takes its place (R281). -/
def execMirrorWarm (k : Tn) (s : State) : Out :=
  let t := s.tenant k
  match t.mirrorMove, t.mirror with
  | some r, _ =>
    .next (if s.wantsMirror k && s.estate (r.dest / 16) == 0 && t.copied r.rings then s.moveMirror k r.dest else s)
  | none, none => .next s
  | none, some m =>
    if s.wantsMirror k && s.mirrorUp k && m.live && t.fld F.TEN_MIRROR_MSTATE = 1 && t.copied (if m.synced then 1 else 0) then
      let t := { t with mirror := some { m with image := t.record.mem, restored := false } }
      let s := s.setTenant k (t.setFld F.TEN_MIRROR_MSTATE 2)
      let s := (s.showMState k).showMirror k
      .next (if m.restored then s.tell 0x0106 k else s)
    else .next s

end Sys2Proof.Machine
end

