-- ==== Sys2Proof/Machine/Continuity.lean ====
section
/-! DEFINITION. Failover, promotion and planned moves (R281 to R292, R428), the start of a tenant reset. -/

namespace Sys2Proof.Machine

/-! Planned moves. -/

/-- A planned move in progress is given up: its destination is free (R292). -/
def State.cancelMove (s : State) (k : Nat) : State :=
  match (s.tenant k).move with
  | none => s
  | some m =>
    (s.setWord (homeWord m.dest) 0).onTenant k fun t => { t with move := none }.setBit F.TEN_CONT_MOVING false

/-- A planned move begins (R281, step 1): the destination is reserved and warms. -/
def State.startMove (s : State) (k n : Nat) : State :=
  (s.takeHome k n).onTenant k fun t => { t with move := some ⟨n, 0⟩ }.setBit F.TEN_CONT_MOVING true

/-- Whether a tenant may be moved at all (R283): it has a copy, no move or failover is in progress, and it is
not being reset. -/
def Tenant.movable (t : Tenant) : Bool :=
  1 ≤ t.st && t.st ≤ 4 && !t.bit F.TEN_CONT_LOST && t.move.isNone && !t.waitPromotion && decide (t.slot < 1152)

/-- The mirror slots from which both the present engine and the one of home slot `n` may be mirrored. -/
def State.mirrorFor (s : State) (k n : Nat) : List Nat :=
  match (s.tenant k).engine with
  | some e => s.mirrorSlots [e, n / 16]
  | none => []

/-- A supervisor PITCHes a tenant to home slot `n` (R281): it warms a copy there. A tenant on a takeover
context is PITCHed once its new mirror is warm and only with AUTO_REHOME (R287). -/
def execPitch (k : Tn) (n : Fin 1152) (s : State) : Out :=
  let t := s.tenant k
  let rehome := !t.bit F.TEN_PLACE_TAKEOVER
    || (s.bit F.MOD_CONT_CTRL_AUTO_REHOME && t.fld F.TEN_MIRROR_MSTATE == 2)
  if t.movable && rehome && s.homeLegal k n then .next (s.startMove k n) else .next s

/-- The supervisor evacuates a slot (R281): the tenant that runs in it is PITCHed to the `pick`-th slot that
R279 allows; of a mirror slot, the replacement mirror is created before the old one is freed. -/
def execStrike (slot : Fin 1152) (mirror : Bool) (pick : Nat) (s : State) : Out :=
  let e := slot.val / 16
  let i := slot.val % 16
  if mirror && s.mirrorOcc slot && s.fld (F.RNG_MIRROR_MSTATE e i) != 3 then
    let k := s.fld (F.RNG_MIRROR_TENANT e i)
    let t := s.tenant k
    let slots := s.mirrorSlots t.runsOn
    match slots[pick % slots.length]? with
    | some n => .next (if t.waitPromotion || t.mslot != slot.val then s else s.startMirrorMove k n)
    | none => .next s
  else
    let k := if mirror then s.fld (F.RNG_MIRROR_TENANT e i) else s.fld (F.RNG_HOME_TENANT e i)
    let t := s.tenant k
    let here := t.slot == slot.val && t.bit F.TEN_PLACE_TAKEOVER == mirror
    let slots := s.homeSlots k
    match slots[pick % slots.length]? with
    | some n => .next (if here && t.movable then s.startMove k n else s)
    | none => .next s

/-- Whether a tenant stands at its last committed ring. -/
def Tenant.atRing (t : Tenant) : Bool :=
  t.recordValid && t.record.ringNo == t.core.ringNo && t.record.now == t.core.now && t.record.begun == t.core.begun

/-- The items of a tenant's units launched again under its present tag (R251, R289). -/
def Core.retag (c : Core) (x : Tag) : Core :=
  { c with
    trail := c.trail.map fun i => { i with tag := x }
    qdm := c.qdm.map fun i => { i with tag := x }
    dma0 := c.dma0.map fun i => { i with tag := x }
    dma1 := c.dma1.map fun i => { i with tag := x } }

/-- A new placement of a tenant (R281, R284, R289): PLACEMENT rises, and its steps are launched again under it, but for
those that a RESET accepted since has made stale (R252, R292). -/
def Tenant.replaced (t : Tenant) : Tenant :=
  let t := t.setFld F.TEN_PLACE_PLACEMENT (t.fld F.TEN_PLACE_PLACEMENT + 1)
  if t.resetWait then t else { t with core := t.core.retag t.tag, record := t.record.retag t.tag }

/-- Whether a move in progress may be completed (R281, R282): its copy is warm, its tenant has reached a ring after
that, or executes nothing. -/
def Tenant.mayArrive (t : Tenant) (m : MoveRun) : Bool :=
  !t.waitPromotion && t.mirrorMove.isNone && t.copied m.rings && (!t.executes || (2 ≤ m.rings && t.atRing))

/-- Whether the mirror of a tenant may stay where it is once the tenant runs in home slot `n`, which it has reserved
(R279): the mirror is in another sector, and its engine holds at most 4 mirrors of that slot's engine. -/
def State.mirrorStays (s : State) (k n : Nat) : Bool :=
  (s.tenant k).mirrorsOn.all fun m => m / 9 != n / 16 / 9 && decide (s.pairCount m (n / 16) ≤ 4)

/-- The move of a mirror is given up, and with it a planned move that waits for it (R281). -/
def State.giveUpMirrorMove (s : State) (k : Nat) : State :=
  let s := s.cancelMirrorMove k
  match (s.tenant k).move with
  | some m => if s.mirrorStays k m.dest then s else s.cancelMove k
  | none => s

/-- A warm destination is promoted at the first ring after, or at once for a tenant that executes nothing; the
source slot is free and the move is complete (R281, R282). -/
def execTenantMoved (k : Tn) (s : State) : Out :=
  let t := s.tenant k
  match t.move with
  | none => .next s
  | some m =>
    if !(t.mayArrive m && s.mirrorStays k m.dest) then .next s
    else
      let s := s.placeHome k m.dest
      let s := s.onTenant k fun t =>
        let t := { t with move := none }.setBit F.TEN_CONT_MOVING false
        t.replaced.count F.TEN_MOVES_COUNT
      .next (s.notify 0x0104 [(k, m.dest)])

/-! Reset. -/

/-- A tenant reset begins (R36, R289, R292, step 1 and 2 of "Tenant reset"): it stops, every unit drops its
items, its mirror is discarded, a move is cancelled. The epoch has risen before. -/
def State.beginReset (s : State) (k : Nat) : State :=
  let s := ((s.cancelMove k).dropMirror k false).discardTenant k
  let sec := (s.tenant k).sector
  let s := (List.range 2).foldl (fun s c => match s.chOf sec k c with
    | some ch => s.setBit (F.SDMA_CH_BUSY (chPage sec ch) (ch % 16)) false
    | none => s) s
  let g := s.geo k
  s.onTenant k fun t =>
    let t := t.flush g
    { t with
      stop := .none, parkedByModule := false, heldByModule := false, resetWait := false, redo := false, resumeJ := []
      inputs := [], reports := [], journal := [], replay := [], ring := none, bufs := [], routed := []
      compo := { t.compo with writes := [], applied := [], waiting := none }
      lagWarned := false }.setFld F.TEN_CONT_STATE 5

/-! Failure. -/

/-- The lower half of TEN.PLACE, by which an event tells a placement. -/
def Tenant.placeItem (t : Tenant) : Nat := getBits (t.word F.TEN_PLACE_SLOT.key) 0 16

/-- A tenant that has lost its running copy without a warm mirror (R288). A RESET accepted during the failover that this
ends takes effect now (R292). -/
def State.lose (s : State) (k : Nat) : State :=
  let s := ((s.cancelMove k).freeRun k).dropMirror k false
  let s := s.onTenant k fun t =>
    ({ t with
      stop := .none, parkedByModule := false, heldByModule := false, waitPromotion := false, redo := false, ring := none
      bufs := t.bufs.filter fun b => decide (b.line < t.handed) }.setFld F.TEN_CONT_STATE 3).setBit F.TEN_CONT_LOST true
  let s := s.tell 0x0103 k
  if (s.tenant k).resetWait then s.beginReset k else s

/-- An input that was journaled but did not reach the mirror goes back to where it waited (R286). -/
def Tenant.returnInput (t : Tenant) : Input → Tenant
  | .report r => { t with reports := t.reports ++ [r] }
  | .write key mask data => t.input (.write key mask data)
  | .mail data => t.input (.mail data)
  | .saveDone ok => t.input (.saveDone ok)
  | .present _ => t
  | .calendar _ => t
  | .dmaFault _ _ => t
  | .hold => t
  | .resume => { t with resumeJ := t.resumeJ ++ [.resume] }
  | .park => t
  | .unpark => { t with resumeJ := t.resumeJ ++ [.unpark] }

/-- Journaled inputs returned in their order, ahead of those that have come since (R198, R286). -/
def Tenant.returnInputs (t : Tenant) (is : List Input) : Tenant :=
  let waiting := t.inputs
  let later := t.reports
  let t := is.foldl Tenant.returnInput { t with inputs := [], reports := [] }
  later.foldl Tenant.queueReport { t with inputs := t.inputs ++ waiting }

/-- The journal entries among staged mirror-stream entries. -/
def journalOf (es : List MEntry) : List JEntry :=
  es.filterMap fun e => match e with
    | .journal j => some j
    | .write _ => none
    | .marker _ => none

/-- A channel item as the ring record starts it again: an HBM read is tried again. -/
def DmaItem.again (i : DmaItem) : DmaItem := { i with failed := false }

/-- The tenant back at its last committed ring, from the record and the mirror image (R284 step 3, R286). The journal
since that ring but for what is still on its way to the mirror is replayed, and after it what an earlier failover
replays. A tenant that a double trap after the ring has held executes up to it again. -/
def Tenant.rollBack (t : Tenant) (m : Mirror) : Tenant :=
  let r := t.record
  let n := t.journal.length - (journalOf m.stream).length
  let back := t.journal.drop n
  let redo := t.core.cpu.doubleTrap && !r.cpu.doubleTrap
  let t := { t with
    core := { r with mem := m.image, dma0 := r.dma0.map DmaItem.again, dma1 := r.dma1.map DmaItem.again }
    replay := t.journal.take n ++ t.replay, journal := [], ring := none, mirror := none, waitPromotion := true
    redo := redo, bufs := t.bufs.filter fun b => decide (b.line < t.handed), rendered := min t.rendered t.handed }
  t.returnInputs (back.map JEntry.input)

/-- The running copy of a tenant is lost (R284, R288, R428): it awaits promotion, is LOST, or, when it has no
execution to lose, awaits a free home slot. -/
def State.failRun (s : State) (k : Nat) : State :=
  let t := s.tenant k
  if t.st = 1 || t.st = 5 then ((s.cancelMove k).freeRun k).dropMirror k false
  else
    match t.mirror with
    | some m =>
      if t.fld F.TEN_MIRROR_MSTATE = 2 then ((s.cancelMove k).cancelMirrorMove k).onTenant k fun t => t.rollBack m
      else s.lose k
    | none => s.lose k

/-- Whether a tenant waits for a new placement. -/
def Tenant.unplaced (t : Tenant) : Bool := t.waitPromotion || ((t.st = 1 || t.st = 5) && decide (1152 ≤ t.slot))

/-- A declared failure of tenants (R284): its event goes out once each has been given a placement. -/
def State.declare (s : State) (code : Nat) (ks : List Nat) : State :=
  let s := ks.foldl State.failRun s
  let waiting := ks.filter fun k => (s.tenant k).unplaced
  let placed := (ks.filter fun k => !(s.tenant k).unplaced).map fun k => (k, (s.tenant k).placeItem)
  if waiting = [] then s.notify code placed
  else { s with cont := { s.cont with failing := s.cont.failing ++ [⟨code, waiting, placed⟩] } }

/-- Tenant `k` has been dealt with: it is listed with its placement, and a failure that waited for it last
is told. -/
def State.placed (s : State) (k : Nat) : State :=
  let item := (k, (s.tenant k).placeItem)
  let fs := s.cont.failing.map fun f =>
    if f.waiting.contains k then
      { f with waiting := f.waiting.filter fun x => x != k, placed := f.placed ++ [item] }
    else f
  let s := { s with cont := { s.cont with failing := fs.filter fun f => f.waiting != [] } }
  (fs.filter fun f => f.waiting == []).foldl (fun s f => s.notify f.code f.placed) s

/-- A tenant's mirror is lost with its engine or by an uncorrectable word. A tenant that awaits promotion to
it is then LOST (R288); of one whose mirror moves, the replacement becomes its new mirror. -/
def State.loseMirror (s : State) (k : Nat) : State :=
  if (s.tenant k).waitPromotion then (s.lose k).placed k
  else
    match (s.tenant k).mirrorMove with
    | some r => (s.dropMirror k true).createMirror k r.dest
    | none => s.dropMirror k true

/-- The tenants whose running copy is on an engine. -/
def State.runOn (s : State) (e : Nat) : List Nat :=
  s.tenants.filterMap fun (k, t) => if t.engine = some e && !t.waitPromotion then some k else none

/-- The tenants whose mirror is on an engine. -/
def State.mirroredOn (s : State) (e : Nat) : List Nat :=
  s.tenants.filterMap fun (k, t) => if t.mengine = some e then some k else none

/-- The tenants that are moving to an engine. -/
def State.movingTo (s : State) (e : Nat) : List Nat :=
  s.tenants.filterMap fun (k, t) => match t.move with
    | some m => if m.dest / 16 = e then some k else none
    | none => none

/-- The tenants whose mirrors are moving to an engine. -/
def State.mirrorsTo (s : State) (e : Nat) : List Nat :=
  s.tenants.filterMap fun (k, t) => match t.mirrorMove with
    | some m => if m.dest / 16 = e then some k else none
    | none => none

/-- Re-admission of a fenced engine starts (R293): its self-test. -/
def State.startReadmit (s : State) (e : Nat) : State := if s.estate e = 1 then s.setEState e 3 else s

/-- Whether a unit with `n` faults is re-admitted by itself (R293). -/
def State.autoReadmits (s : State) (n : Nat) : Bool :=
  s.bit F.MOD_CONT_CTRL_AUTO_READMIT && decide (n ≤ s.fld F.MOD_CONT_CTRL_READMIT_LIMIT)

/-- An engine is declared failed and fenced (R22, R284): `cause` is 1 heartbeat, 2 internal error, 3 credit
return. -/
def State.failEngine (s : State) (e : Eng) (cause : Nat) : State :=
  let s := ((s.setEState e 1).setBit (F.BNK_STATUS_RETAINED e) false).setFld (F.RNG_FAULT_CAUSE e) cause
  let s := s.setFld (F.RNG_FAULT_COUNT e) (min 255 (s.fld (F.RNG_FAULT_COUNT e) + 1))
  let s := s.zeroCredits (s.allEngPaths e)
  let s := (s.movingTo e).foldl State.cancelMove s
  let s := (s.mirrorsTo e).foldl State.giveUpMirrorMove s
  let s := s.declare 0x0101 (s.runOn e)
  let s := (s.mirroredOn e).foldl State.loseMirror s
  if s.autoReadmits (s.fld (F.RNG_FAULT_COUNT e)) then s.startReadmit e else s

/-- Whether a supervisor takeover is in progress, for whose end failovers wait (R288, R294). -/
def State.supBusy (s : State) : Bool := s.bit F.MOD_CONT_STATUS_SUP_TAKEOVER

/-- A failure that waits for the end of a supervisor takeover. -/
def State.holdFailure (s : State) (i : Instr) : State :=
  { s with cont := { s.cont with heldFailures := s.cont.heldFailures ++ [i] } }

/-- An engine, in service or in retention, has been declared failed for want of a heartbeat, or for a credit
return that broke R21. -/
def State.engineFailed (s : State) (e : Eng) (credit : Bool) : State :=
  if s.usable e then s.failEngine e (if credit then 3 else 1) else s

/-- An engine that reported an internal error is declared failed. -/
def State.engineError (s : State) (e : Eng) : State := if s.usable e then s.failEngine e 2 else s

/-- A tenant is declared failed (R284): an engine failure confined to its context. -/
def State.tenantFailed (s : State) (k : Nat) : State :=
  let t := s.tenant k
  if 1 ≤ t.st && !t.waitPromotion && decide (t.slot < 1152) then s.declare 0x0102 [k] else s

/-- An engine has sent no heartbeat for 2 µs (R284). -/
def execIdleHeartbeat (e : Eng) (s : State) : Out :=
  if s.usable e then .next ((s.count (F.ENG_HEARTBEATS_COUNT e)).setBit (F.ENG_STATUS_HB_IDLE e) true)
  else .next s

/-- An internal error of an engine (R23, R25, R284). -/
def State.internalError (s : State) (e : Eng) : State :=
  if s.usable e then
    let s := (s.setBit (F.ENG_STATUS_INTERNAL_ERR e) true).engNotice e
    if s.supBusy then s.holdFailure (.internalError e) else s.engineError e
  else s

/-- An engine reports an internal error. -/
def execInternalError (e : Eng) (s : State) : Out := .next (s.internalError e)

/-- The supervisor declares an engine failed (R284). -/
def execEngineFailed (e : Eng) (credit : Bool) (s : State) : Out :=
  if s.supBusy then .next (s.holdFailure (.engineFailed e credit)) else .next (s.engineFailed e credit)

/-- Whether a tenant can be held to its rings (R284): it is RUNNING, has not failed already, and its engine is in
service. -/
def State.ringsDue (s : State) (k : Nat) : Bool :=
  (s.tenant k).st == 2 && !(s.tenant k).waitPromotion &&
  match (s.tenant k).engine with
  | some e => s.estate e == 0
  | none => false

/-- A RUNNING tenant whose engine is in service has taken no ring for 1 ms of wall time that counts: it is declared
failed (R284). -/
def execTenantFailed (k : Tn) (s : State) : Out :=
  if !s.ringsDue k then .next s
  else if s.supBusy then .next (s.holdFailure (.tenantFailed k)) else .next (s.tenantFailed k)

/-- A receiver returns a credit (R17, R21). A return that breaks R21 on a path to or from an engine has the supervisor
declare that engine failed (R284). -/
def State.creditBack (s : State) (p : Path) : State :=
  let c := s.credit p
  if creditMax p ≤ c.held then
    (pathEngines p).foldl (fun s e =>
      if s.supBusy then s.holdFailure (.engineFailed e true) else s.engineFailed e true) (s.creditOver p)
  else (s.setCredit { c with held := c.held + 1 }).countFlit p

/-- Failures that waited for the end of a supervisor takeover proceed, in their order (R294). -/
def State.proceed (s : State) : State :=
  let fs := s.cont.heldFailures
  fs.foldl (fun s i => match i with
    | .engineFailed e c => s.engineFailed e c
    | .internalError e => s.engineError e
    | .tenantFailed k => s.tenantFailed k
    | _ => s) { s with cont := { s.cont with heldFailures := [] } }

/-! Promotion. -/

/-- The free takeover contexts of an engine. -/
def State.freeTakeover (s : State) (e : Nat) : List Nat :=
  (List.range 4).filter fun i => !s.bit (F.RNG_TAKEOVER_BUSY e i)

/-- The tenant on takeover context `x` of its mirror's engine (R284 step 4, R286): a new placement, no
mirror, and a reset that has waited (R292). -/
def State.promote (s : State) (k x : Nat) : State :=
  let ms := (s.tenant k).mslot
  let e := ms / 16
  let m := ms % 16
  let s := (s.wakeEngine e).freeRun k
  let s := ((s.setFld (F.RNG_TAKEOVER_TENANT e x) k).setBit (F.RNG_TAKEOVER_BUSY e x) true).setFld
    (F.RNG_TAKEOVER_MIRROR e x) m
  let s := (s.setFld (F.RNG_MIRROR_MSTATE e m) 3).setFld (F.RNG_MIRROR_HSLOT e m) 0x7FF
  let s := s.count (F.RNG_PROMOTIONS_COUNT e)
  let s := s.onTenant k fun t =>
    let t := { t with waitPromotion := false, lostMirror := true }
    let t := ((t.setFld F.TEN_PLACE_SLOT ms).setBit F.TEN_PLACE_TAKEOVER true).setFld F.TEN_PLACE_TCTX x
    let t := (t.setFld F.TEN_MIRROR_MSLOT 0x7FF).setFld F.TEN_MIRROR_MSTATE 0
    t.replaced.count F.TEN_PROMOTIONS_COUNT
  let s := s.placed k
  if (s.tenant k).resetWait then s.beginReset k else s

/-- A tenant is given the `pick`-th free takeover context of its mirror's engine; without one it waits, with
its state intact (R286, R287). -/
def execPromotion (k : Tn) (pick : Nat) (s : State) : Out :=
  let t := s.tenant k
  if t.waitPromotion && !s.supBusy then
    let free := match t.mengine with
      | some e => s.freeTakeover e
      | none => []
    match free[pick % free.length]? with
    | some x => .next (s.promote k x)
    | none => .next (s.placed k)
  else .next s

/-- A LOADED or RESETTING tenant without a slot is placed in the `pick`-th free home slot, with its save RAM
as NVS holds it (R428); without one it waits. -/
def execStoppedTenantReplace (k : Tn) (pick : Nat) (s : State) : Out :=
  let t := s.tenant k
  if t.unplaced && !t.waitPromotion && !s.supBusy then
    let slots := s.homeSlots k
    match slots[pick % slots.length]? with
    | some n =>
      let s := (s.placeHome k n).onTenant k fun t => { t with core := { t.core with mem := [] } }
      .next ((s.loadSave k).placed k)
    | none => .next (s.placed k)
  else .next s

end Sys2Proof.Machine
end

