-- ==== Sys2Proof/Machine/Banks.lean ====
section
/-! DEFINITION. The engine banks (R253 to R262), the HBM stacks (R266), and the re-admission of engines and
fabric rings (R11, R293). -/

namespace Sys2Proof.Machine

/-! ECC and scrubbing. -/

/-- The tenants on a context of an engine. -/
def State.onCtx (s : State) (e x : Nat) : List Nat := (s.runOn e).filter fun k => (s.tenant k).ctx == x

/-- Tenants of an engine declared failed, or held until a supervisor takeover ends. -/
def State.failTenants (s : State) (ks : List Nat) : State :=
  let ks := ks.filter fun k => 1 ≤ (s.tenant k).st && !(s.tenant k).waitPromotion
  if ks = [] then s
  else if s.supBusy then
    ks.foldl (fun s k => if h : k < 1024 then s.holdFailure (.tenantFailed ⟨k, h⟩) else s) s
  else s.declare 0x0102 ks

/-- What an uncorrectable word at an engine-local address sets off (R253, R258). A cartridge cache line is
fetched again and a line is rendered again, which changes nothing that the model holds. -/
def State.badWord (s : State) (e a : Nat) : State :=
  if a < 0x140000 then
    let slot := 16 * e + a / 0x14000
    if s.homeOcc slot then
      let k := s.fld (F.RNG_HOME_TENANT e (a / 0x14000))
      if (s.tenant k).slot = slot && !(s.tenant k).bit F.TEN_PLACE_TAKEOVER then s.failTenants [k] else s.cancelMove k
    else s
  else if a < 0x270000 then
    let m := (a - 0x140000) / 0x13000
    if s.mirrorOcc (16 * e + m) then
      let k := s.fld (F.RNG_MIRROR_TENANT e m)
      if (s.tenant k).mirrorMove.any fun r => r.dest == 16 * e + m then s.giveUpMirrorMove k
      else if s.fld (F.RNG_MIRROR_MSTATE e m) = 3 then s.failTenants [k] else s.loseMirror k
    else s
  else if a < 0x2A8000 then s
  else if a < 0x2AF800 then s.failTenants (s.onCtx e ((a - 0x2A8000) / 0x600))
  else s.failTenants (s.runOn e)

/-- What a read of the word at an engine-local address finds (R258). -/
def State.eccRead (s : State) (e a : Nat) : EccResult → State
  | .clean => s
  | .corrected =>
    let s := (s.count (F.BNK_CE_COUNT_COUNT e)).setFld (F.BNK_CE_ADDR_ADDR e) a
    { s with ecc := s.ecc ++ [⟨e, a⟩] }
  | .uncorrectable =>
    let s := (s.count (F.BNK_UE_COUNT_COUNT e)).setFld (F.BNK_UE_ADDR_ADDR e) a
    (s.setBit (F.BNK_UE_ADDR_VALID e) true).badWord e a

/-- The word that the scrubber of an engine reads next, as an engine-local address (R259). -/
def State.scrubNext (s : State) (e : Nat) : Nat := Store.get 0 s.scrub e

/-- The scrubber's place in its pass set. -/
def State.setScrub (s : State) (e a : Nat) : State := { s with scrub := Store.set 0 s.scrub e a }

/-- A read of the bank word at `addr`, in the engine-local space (R258, R259): the scrubber's when it is the word that
the scrubber reads next, another master's otherwise. The scrubber reads the words of a pass in rising order. DESIGN
CHOICE: a pass that SCRUB_EN 0 interrupts goes on where it stood. -/
def execScrubRead (e : Eng) (addr : BitVec 22) (r : EccResult) (s : State) : Out :=
  let a := addr.toNat / 8 * 8
  if s.estate e = 0 && a < 0x2B0000 then
    let s :=
      if s.bit (F.BNK_SCRUB_CTRL_SCRUB_EN e) && s.scrubNext e == a then
        if a = 0x2AFFF8 then (s.setScrub e 0).count (F.BNK_SCRUB_PASSES_COUNT e) else s.setScrub e (a + 8)
      else s
    .next (s.eccRead e a r)
  else .next s

/-- The oldest corrected word of an engine is written back, or its write-back is dropped because a master
wrote the word first (R258). Either way the word holds what the tenant last wrote. -/
def execEccWriteBack (e : Eng) (_rewritten : Bool) (s : State) : Out :=
  if s.estate e = 0 then
    match s.ecc.find? fun w => w.engine == e.val with
    | some w => .next { s with ecc := s.ecc.erase w }
    | none => .next s
  else .next s

/-- The bank clear of an engine starts (R262), which leaves nothing of a scrub pass. -/
def State.startClear (s : State) (e : Nat) : State :=
  ((s.setScrub e 0).setBit (F.BNK_STATUS_CLEARING e) true).setBit (F.BNK_STATUS_CLEAR_DONE e) false

/-- The bank clear of an engine finishes (R262, R293). -/
def execClearDone (e : Eng) (s : State) : Out :=
  if s.bit (F.BNK_STATUS_CLEARING e) then
    let s := (s.setBit (F.BNK_STATUS_CLEARING e) false).setBit (F.BNK_STATUS_CLEAR_DONE e) true
    .next (if s.estate e = 2 then s.setEState e 4 else s)
  else .next s

/-! Retention. -/

/-- Whether an engine may enter retention (R74): each occupied home and mirror slot belongs to a PARKED tenant,
and the takeover contexts are idle. -/
def State.mayRetain (s : State) (e : Nat) : Bool :=
  (List.range 16).all (fun i =>
    (!s.bit (F.RNG_HOME_OCC e i) || (s.tenant (s.fld (F.RNG_HOME_TENANT e i))).st == 4)
    && (!s.bit (F.RNG_MIRROR_OCC e i) || (s.tenant (s.fld (F.RNG_MIRROR_TENANT e i))).st == 4))
  && (List.range 4).all fun i => !s.bit (F.RNG_TAKEOVER_BUSY e i)

/-- An engine enters bank retention (R74, R261): its scrubber starts a new pass after it. -/
def State.retain (s : State) (e : Nat) : State :=
  ((s.setEState e 6).setBit (F.BNK_STATUS_RETAINED e) true).setScrub e 0

/-- An engine enters bank retention by itself (R74). -/
def execRetentionEntry (e : Eng) (s : State) : Out :=
  if s.estate e = 0 && s.mayRetain e then .next (s.retain e) else .next s

/-- An engine in retention is woken (R261). -/
def execEngineWake (e : Eng) (s : State) : Out := .next (s.wakeEngine e)

/-! HBM. -/

/-- An HBM stack fails and is fenced (R266): the affected tenants are told, each of their entries is to be sent
its next frame in full, and what waits to be pushed from the lost frame stores is dropped. The relocation
takes place at each tenant's next frame. What critical reads have been corrected before counts (R265). -/
def State.failStack (s : State) (st : Nat) : State :=
  if s.cont.fencedStacks.contains st then s
  else
    let s := if s.cont.fencedStacks == [] then s.grow F.MOD_HBM_CORRECTED_COUNT.key else s
    let s := { s with cont := { s.cont with fencedStacks := s.cont.fencedStacks ++ [st] } }
    let ks := (s.tenants.filter fun (k, t) => k % 2 == st && t.st != 0).map fun (k, _) => k
    let s := s.notify 0x0208 (ks.map fun k => (k, Config.eventValue 0x0208 k))
    let s := { s with push := s.push.filter fun i => !ks.contains i.tenant }
    ks.foldl (fun s k => (s.entriesOf k).foldl State.wantFull s) s

/-- An HBM stack fails (R266). -/
def execHbmStackFault (st : Fin 2) (s : State) : Out := .next (s.failStack st)

/-! Fabric rings and re-admission. -/

/-- An event about a fabric ring of a sector: the item's number is the sector's, its value tells the ring. -/
def State.tellRing (s : State) (code c : Nat) (b : Bool) : State :=
  s.notify code [(c, Config.eventValue code (2 * c + b.toNat))]

/-- The state of a fabric ring set, with its service bit in SEC.STATUS. -/
def State.setRing (s : State) (c : Nat) (b : Bool) (v : Nat) : State :=
  if b then (s.setFld (F.SEC_RING_B_STATE c) v).setBit (F.SEC_STATUS_RING_B_UP c) (v == 0)
  else (s.setFld (F.SEC_RING_A_STATE c) v).setBit (F.SEC_STATUS_RING_A_UP c) (v == 0)

/-- LAST_CAUSE and FAULT_COUNT of a fabric ring. -/
def ringCause (c : Nat) (b : Bool) : Fld := if b then F.SEC_RING_B_LAST_CAUSE c else F.SEC_RING_A_LAST_CAUSE c

/-- FAULT_COUNT of a fabric ring. -/
def ringFaults (c : Nat) (b : Bool) : Fld := if b then F.SEC_RING_B_FAULT_COUNT c else F.SEC_RING_A_FAULT_COUNT c

/-- The test of a faulted fabric ring starts (R293): its credits go to zero. -/
def State.startRingTest (s : State) (c : Sec) (b : Bool) : State :=
  if s.ringState c b = 1 then (s.setRing c b 2).zeroCredits (ringPaths c b) else s

/-- A fabric ring faults (R11, R23, R24, R293). -/
def execFabricRingFault (c : Sec) (b : Bool) (cause : BitVec 8) (s : State) : Out :=
  if s.ringState c b = 0 then
    let s := (s.setRing c b 1).setFld (ringCause c b) cause.toNat
    let n := min 255 (s.fld (ringFaults c b) + 1)
    let s := (s.setFld (ringFaults c b) n).count (F.SEC_RING_FAULTS_COUNT c)
    let s := (s.secNotice c).tellRing 0x0203 c b
    .next (if s.autoReadmits n then s.startRingTest c b else s)
  else .next s

/-- A write to MOD.CONT_CTRL (R293): what AUTO_READMIT now lets return does so, but for a ring whose test has failed,
which waits for a request. -/
def State.judgeReadmit (s : State) : State :=
  let s := (List.range 72).foldl (fun s e =>
    if s.autoReadmits (s.fld (F.RNG_FAULT_COUNT e)) then s.startReadmit e else s) s
  (List.finRange 8).foldl (fun s (c : Sec) => [false, true].foldl (fun s b =>
    if s.autoReadmits (s.fld (ringFaults c b)) && !s.cont.failedTests.contains (.ring c b) then s.startRingTest c b
    else s) s) s

/-- A write to MOD.READMIT with GO (R293): `v` is the value written. -/
def State.readmit (s : State) (v : Word) : State :=
  let n := getBits v 0 7
  if getBits v 31 1 = 0 then s
  else if n < 72 then s.startReadmit n
  else if h : (n - 72) / 2 < 8 then s.startRingTest ⟨(n - 72) / 2, h⟩ (n % 2 == 1)
  else s

/-- An engine whose self-test has failed (R293, R422). -/
def State.retire (s : State) (e : Nat) : State := ((s.setEState e 5).setFld (F.RNG_FAULT_CAUSE e) 5).tell 0x0201 e

/-- Whether an engine is OFF in the first engine start after START, which takes it by its start-up self-test
(R422). -/
def State.startTested (s : State) (e : Nat) : Bool :=
  s.estate e == 7 && s.cont.starting && !s.cont.startedOnce && s.cont.startSet.contains e

/-- The self-test of a unit that is being re-admitted or started ends (R293, R422). A good engine's bank supply is
cycled, and its banks are cleared (R262); one that passed its start-up self-test stays as it is. -/
def execSelftestDone (u : UnitId) (pass : Bool) (s : State) : Out :=
  match u with
  | .engine e =>
    if s.estate e = 3 then
      if pass then .next ((s.setEState e 2).startClear e)
      else .next (s.retire e)
    else if s.startTested e && !pass then .next (s.retire e)
    else .next s
  | .ring c b =>
    if s.ringState c b = 2 && !s.cont.readmitting.contains u then
      let failed := s.cont.failedTests.erase u
      if pass then
        .next { s with cont := { s.cont with readmitting := s.cont.readmitting ++ [u], failedTests := failed } }
      else .next ({ s with cont := { s.cont with failedTests := failed ++ [u] } }.setRing c b 1)
    else .next s

/-- Credits are granted and the unit returns to service (R22, R293). -/
def execEngineReadmitted (u : UnitId) (s : State) : Out :=
  match u with
  | .engine e =>
    if s.estate e = 4 && !(s.cont.starting && s.cont.startSet.contains e.val) then
      let s := ((s.grantCredits (s.allEngPaths e)).setRstEng e false).setBit (F.ENG_STATUS_INTERNAL_ERR e) false
      let s := ((s.setLock e true).setLock (72 + e / 9) true).setBit (F.ENG_STATUS_LOCKED e) true
      .next ((s.setEState e 0).tell 0x0202 e)
    else .next s
  | .ring c b =>
    if s.cont.readmitting.contains u then
      let s := { s with cont := { s.cont with readmitting := s.cont.readmitting.erase u } }
      .next ((((s.grantCredits (ringPaths c b)).setRing c b 0).secNotice c).tellRing 0x0204 c b)
    else .next s

end Sys2Proof.Machine
end

