-- ==== Sys2Proof/Machine/Pio.lean ====
section
/-! DEFINITION. Edges of the field pins (R329) and the programmable I/O micro-engines (R332 to R337). A step
of a channel is one command; it is due when the channel's prescaler has a tick left that no step has taken. -/

namespace Sys2Proof.Machine

/-! Pins. -/

/-- What is put on a pin by the venue: a level, or nothing. -/
def State.setVenue (s : State) (n : Nat) (v : Option Bool) : State :=
  let bit : BitVec 128 := 1 <<< n
  let s' := { s with pins := { s.pins with
    venue := if v = some true then s.pins.venue ||| bit else s.pins.venue &&& ~~~bit
    loose := if v = none then s.pins.loose ||| bit else s.pins.loose &&& ~~~bit } }
  s'.inputsMoved s (if s.pinFld F.FIO_PINCFG_FUNC n = 3 then [s.pinFld F.FIO_PINCFG_SEL n % 64] else [])

/-- A field pin changes level (R329): the venue puts `level` on it, or leaves it open; where the module drives it, its
level is the driven one. -/
def execPinEdge (n : Fin 128) (level : Option Bool) (s : State) : Out :=
  .next ((s.setVenue n level).seePin n).settle

/-- All channels of an engine counted up to the present. -/
def State.pioSyncAll (s : State) (i : Nat) : State := (List.range 32).foldl (fun s j => s.pioSync i j) s

/-- A flag of a channel set. -/
def State.pioFlag (s : State) (f : Nat → Nat → Fld) (i j : Nat) : State := s.setBit (f i j) true

/-! Instructions (R333, R334). -/

/-- The bits that the instruction table names, OP among them; none for a reserved OP. -/
def pioNamed (w : Nat) : Nat :=
  match ifld w 12 4 with
  | 0 => 0xF3FF
  | 1 => if ifld w 10 2 < 2 then 0xFCFF else 0xFFFF
  | 2 => 0xFC1F
  | 3 => 0xFC1F
  | 4 => 0xFC03
  | 5 => 0xFE7F
  | 6 => 0xF800
  | 7 => 0xF800
  | _ => 0

/-- Whether an instruction halts the channel (R334). -/
def pioBad (w len : Nat) : Bool :=
  decide (8 ≤ ifld w 12 4) || (w &&& (0xFFFF ^^^ pioNamed w)) != 0 || (ifld w 12 4 == 5 && decide (len ≤ ifld w 0 5))

/-- The state with a tick of the channel's prescaler taken, when one is due and the channel runs. -/
def State.pioTick (s : State) (i j : Nat) : Option State :=
  let s := s.pioSync i j
  let c := s.pioCh i j
  if s.pioRuns i j && decide (0 < c.owed) then some (s.setPioCh i j { c with owed := c.owed - 1 }) else none

/-- The channel goes on at an offset. -/
def State.pioGoto (s : State) (i j off : Nat) : State :=
  let s := s.setPioCh i j { s.pioCh i j with wait := .none }
  (s.setFld (F.PIO_PC_OFFSET i j) (off % s.pioLen i j)).setBit (F.PIO_PC_WAITING i j) false

/-- The channel goes on after its current instruction. -/
def State.pioNext (s : State) (i j : Nat) : State := s.pioGoto i j (s.fld (F.PIO_PC_OFFSET i j) + 1)

/-- The channel waits. -/
def State.pioHold (s : State) (i j : Nat) (w : PioWait) : State :=
  (s.setPioCh i j { s.pioCh i j with wait := w }).setBit (F.PIO_PC_WAITING i j) true

/-- A step of the instruction with code `op`: `h` gives the state from the instruction word. -/
def runPio (i : Fin 4) (j : Fin 32) (op : Nat) (h : State → Nat → State) (s : State) : Out :=
  match s.pioTick i j with
  | none => .next s
  | some s' =>
    let w := s'.pioInstr i j
    if ifld w 12 4 = op && !pioBad w (s'.pioLen i j) then .next (h s' w).settle else .next s

/-- DELAY (R334). -/
def execPioDelay (i : Fin 4) (j : Fin 32) (s : State) : Out :=
  runPio i j 0 (fun s w =>
    let left := match (s.pioCh i j).wait with
      | .delay n => n
      | _ => ifld w 0 10 + 1
    if left ≤ 1 then s.pioNext i j else s.pioHold i j (.delay (left - 1))) s

/-- Bits of a 4-bit lane word replaced under a mask. -/
def laneMix (old v : BitVec 4) (m : Nat) : BitVec 4 :=
  let k : BitVec 4 := BitVec.ofNat 4 m
  (old &&& ~~~k) ||| (v &&& k)

/-- Lane levels (`dirs` false) or directions set under a mask. -/
def State.pioLanes (s : State) (i j : Nat) (dirs : Bool) (m v : Nat) : State :=
  let c := s.pioCh i j
  let x : BitVec 4 := BitVec.ofNat 4 v
  s.setPioCh i j (if dirs then c.setLanes s.rotation c.lanes (laneMix c.dirs x m)
    else c.setLanes s.rotation (laneMix c.lanes x m) c.dirs)

/-- SET (R334). -/
def execPioSet (i : Fin 4) (j : Fin 32) (s : State) : Out :=
  runPio i j 1 (fun s w =>
    let s := match ifld w 10 2 with
      | 0 => s.pioLanes i j false (ifld w 4 4) (ifld w 0 4)
      | 1 => s.pioLanes i j true (ifld w 4 4) (ifld w 0 4)
      | 2 => s.setFld (F.PIO_K0_COUNT i j) (ifld w 0 10)
      | _ => s.setFld (F.PIO_K1_COUNT i j) (ifld w 0 10)
    s.pioNext i j) s

/-- The number of bits that OUT and IN move. -/
def pioBits (w : Nat) : Nat := if ifld w 0 5 = 0 then 32 else ifld w 0 5

/-- OUT (R334). -/
def execPioOut (i : Fin 4) (j : Fin 32) (s : State) : Out :=
  runPio i j 2 (fun s w =>
    let n := pioBits w
    let c := s.pioCh i j
    let v := c.txs.toNat % 2 ^ n
    let s := s.setPioCh i j { c with txs := c.txs >>> n }
    let s := s.setFld (F.PIO_SHIFT_TX_COUNT i j) (s.fld (F.PIO_SHIFT_TX_COUNT i j) - n)
    let m := 2 ^ min n 4 - 1
    let s := match ifld w 10 2 with
      | 0 => s.pioLanes i j false m v
      | 1 => s.pioLanes i j true m v
      | 2 => s.setFld (F.PIO_K0_COUNT i j) (v % 65536)
      | _ => s
    s.pioNext i j) s

/-- The lane samples of a channel (R332). -/
def State.laneWord (s : State) (i j : Nat) : Nat :=
  (List.range 4).foldl (fun v k => if s.laneSample i j k then v + 2 ^ k else v) 0

/-- IN (R334). -/
def execPioIn (i : Fin 4) (j : Fin 32) (s : State) : Out :=
  runPio i j 3 (fun s w =>
    let n := pioBits w
    let src := match ifld w 10 2 with
      | 0 => s.laneWord i j
      | 1 => s.fld (F.PIO_K0_COUNT i j)
      | 2 => s.fld (F.PIO_K1_COUNT i j)
      | _ => 0
    let c := s.pioCh i j
    let s := s.setPioCh i j { c with rxs := (c.rxs >>> n) ||| BitVec.ofNat 32 (src % 2 ^ n * 2 ^ (32 - n)) }
    (s.setFld (F.PIO_SHIFT_RX_COUNT i j) (min 32 (s.fld (F.PIO_SHIFT_RX_COUNT i j) + n))).pioNext i j) s

/-- WAIT (R334). -/
def execPioWait (i : Fin 4) (j : Fin 32) (s : State) : Out :=
  runPio i j 4 (fun s w =>
    let l := ifld w 0 2
    let mode := ifld w 10 2
    if mode < 2 then
      if s.laneSample i j l == (mode == 1) then s.pioNext i j else s.pioHold i j .stall
    else
      let seen := (s.pioCh i j).wait == .edge true
      if seen || s.laneEdge i j l (mode == 2) then s.pioNext i j else s.pioHold i j (.edge false)) s

/-- Whether the condition of a JMP holds, and the state after its decrement. -/
def State.pioCond (s : State) (i j w : Nat) : State × Bool :=
  let k0 := s.fld (F.PIO_K0_COUNT i j)
  let k1 := s.fld (F.PIO_K1_COUNT i j)
  match ifld w 9 3 with
  | 0 => (s, true)
  | 1 => (s.setFld (F.PIO_K0_COUNT i j) (k0 + 65535), (k0 + 65535) % 65536 != 0)
  | 2 => (s.setFld (F.PIO_K1_COUNT i j) (k1 + 65535), (k1 + 65535) % 65536 != 0)
  | 3 => (s, s.laneSample i j (ifld w 5 2))
  | 4 => (s, !s.laneSample i j (ifld w 5 2))
  | 5 => (s, s.fld (F.PIO_SHIFT_TX_COUNT i j) == 0)
  | 6 => (s, (s.pioCh i j).tx != [])
  | _ => (s, k0 == k1)

/-- JMP (R334). -/
def execPioJmp (i : Fin 4) (j : Fin 32) (s : State) : Out :=
  runPio i j 5 (fun s w =>
    let (s, b) := s.pioCond i j w
    if b then s.pioGoto i j (ifld w 0 5) else s.pioNext i j) s

/-- PULL and PULL.NB (R334, R335). -/
def execPioPull (i : Fin 4) (j : Fin 32) (s : State) : Out :=
  runPio i j 6 (fun s w =>
    let c := s.pioCh i j
    match c.tx.filter fun x => decide (x.2 < s.rotation) with
    | x :: _ =>
      let s := s.setPioCh i j { c with txs := x.1, last := x.1, tx := c.tx.drop 1 }
      (s.setFld (F.PIO_SHIFT_TX_COUNT i j) 32).pioNext i j
    | [] =>
      if ifld w 11 1 = 0 then s.pioHold i j .stall
      else
        let s := (s.setPioCh i j { c with txs := c.last }).setFld (F.PIO_SHIFT_TX_COUNT i j) 32
        ((s.pioFlag F.PIO_FLAGS_STALE i j).count (F.PIO_STALE_PULLS_COUNT i)).pioNext i j) s

/-- PUSH and PUSH.NB (R334). -/
def execPioPush (i : Fin 4) (j : Fin 32) (s : State) : Out :=
  runPio i j 7 (fun s w =>
    let c := s.pioCh i j
    let empty (s : State) : State := (s.setFld (F.PIO_SHIFT_RX_COUNT i j) 0).pioNext i j
    if c.rx.length < 4 then empty (s.setPioCh i j { c with rx := c.rx ++ [c.rxs], rxs := 0 })
    else if ifld w 11 1 = 0 then s.pioHold i j .stall
    else
      let s := s.setPioCh i j { c with rxs := 0 }
      empty ((s.pioFlag F.PIO_FLAGS_DROP i j).count (F.PIO_DROPPED_PUSHES_COUNT i))) s

/-- A reserved or malformed instruction halts the channel (R334). -/
def execPioBadInstr (i : Fin 4) (j : Fin 32) (s : State) : Out :=
  match s.pioTick i j with
  | none => .next s
  | some s' =>
    if pioBad (s'.pioInstr i j) (s'.pioLen i j) then
      let s := (s'.setRun i j false).pioFlag F.PIO_FLAGS_BAD_INSTR i j
      .next ((s.setPioCh i j { s.pioCh i j with wait := .none }).setBit (F.PIO_PC_WAITING i j) false).settle
    else .next s

/-! Register effects (R333, R335, R336). -/

/-- A write to TXF. -/
def State.txWrite (s : State) (i j : Nat) (mask data : Word) : State :=
  let c := s.pioCh i j
  if mask = 0 then s
  else if c.tx.length < 4 then s.setPioCh i j { c with tx := c.tx ++ [(data &&& mask, s.rotation)] }
  else (s.raiseNow (F.PIO_FLAGS_TX_OVF i j)).countNow (F.PIO_TX_OVERFLOWS_COUNT i)

/-- A read of RXF. -/
def State.rxRead (s : State) (i j : Nat) : State × Word :=
  let c := s.pioCh i j
  match c.rx with
  | w :: r => (s.setPioCh i j { c with rx := r }, w)
  | [] => (s.raiseNow (F.PIO_FLAGS_RX_EMPTY i j), 0)

/-- A write to a word of instruction memory: what stood in it is used up to the next rotation (R333). -/
def State.imemWrite (s : State) (key : Nat) (w : Word) : State :=
  let old := (Store.find? s.pins.imem key).getD (s.word key)
  { s with pins := { s.pins with imem := Store.put s.pins.imem key old } }.setWord key w

/-- A write to a group register of PE`i`: it takes effect for the selected channels when the next rotation begins
(R336). -/
def State.groupWrite (s : State) (act : Nat → PioAct) (v : Word) : State :=
  let js := (List.range 32).filter fun j => v.getLsbD j
  { s with pins := { s.pins with acts := s.pins.acts ++ js.map act } }

end Sys2Proof.Machine
end

