-- ==== Sys2Proof/Machine/Rtc.lean ====
section
/-! DEFINITION. The commands of the calendar (R362 to R367), and LANTERN's sample. -/

namespace Sys2Proof.Machine

/-- RTC.TRIM, signed (R362). -/
def State.rtcTrim (s : State) : Int := (BitVec.ofNat 8 (s.fld F.RTC_TRIM_TRIM)).toInt

/-- The RTC ends a hundredth (R362, R365, R366). Without its supply it does nothing (R367), and a set that is committed
prevails over the step (R364). -/
def execRtcHundredth (s : State) : Out :=
  if s.power.charged then
    match s.rtc.set with
    | some _ => .next s.rtcTick
    | none =>
      let c := calendarOf (s.word F.RTC_TIME_HUND.key) (s.word F.RTC_DATE_DAY.key)
      let n := c.next
      let s := { s with rtc := s.rtc.hundredth c.hund s.rtcTrim }
      let s := if n.year < c.year then s.setBit F.RTC_STATUS_CENTURY_WRAP true else s
      .next (s.setCalendar n)
  else .next s

/-- LANTERN takes a sample in DORMANT (R306), at a tick of its clock. -/
def execLanternSample (s : State) : Out :=
  if s.power.mode = .dormant then .next s.rtcTick.lanternSample else .next s

/-- A write of 1 to RTC.CMD.COMMIT (R364, R367). A valid set applies at the LANTERN tick that follows. -/
def State.rtcCommit (s : State) : State :=
  let time := s.word F.RTC_SET_TIME_HUND.key
  let date := s.word F.RTC_SET_DATE_DAY.key
  if setValid time date then
    { (s.setBit F.RTC_STATUS_VALID true).countNow F.RTC_COMMITS_COUNT with rtc := { s.rtc with set := some (time, date) } }
  else (s.raiseNow F.RTC_STATUS_CAL_REJECT).countNow F.RTC_REJECTS_COUNT

end Sys2Proof.Machine
end

