-- ==== Sys2Proof/Machine/Panel.lean ====
section
/-! DEFINITION. The status panel (R369 to R371). -/

namespace Sys2Proof.Machine

/-- The bytes of PNL.TEXT line `k` as the register page holds them. -/
def State.panelText (s : State) (k : Nat) : List Byte :=
  (List.range 37).map fun i =>
    let a := 0x8100 + 0x28 * k + i
    BitVec.ofNat 8 (getBits (s.word (a / 4)) (8 * (a % 4)) 8)

/-- PNL.TEXT line `k` set. -/
def State.setPanelText (s : State) (k : Nat) (bs : List Byte) : State :=
  (List.range 37).foldl (fun s i =>
    let a := 0x8100 + 0x28 * k + i
    s.setFld ⟨a / 4, 8 * (a % 4), 8⟩ (bs.getD i 0).toNat) s

/-- The panel record: one byte for the state, 1 IN_PROGRESS, 0 IDLE, and the text of lines 0 to 5. -/
def State.panelRecord (s : State) (inProgress : Bool) : Memory :=
  memPut [] 0 ((if inProgress then 1 else 0) :: (List.range 6).flatMap s.panelText)

/-- A write of the panel record asked for. -/
def State.askRecord (s : State) (inProgress : Bool) : State :=
  s.nvsAsk ⟨36880, s.panelRecord inProgress, .panel inProgress⟩ false

/-- The next update begins with its record, when one is asked for, none is running and PFW is 0 (R369,
R371). -/
def State.panelNext (s : State) : State :=
  if s.bit F.PNL_STATUS_PENDING && !s.bit F.PNL_STATUS_BUSY && !s.bit F.PNL_STATUS_RECOVERING
      && !s.bit F.NVS_STATUS_PFW && !s.panel.starting then
    { s with panel := { s.panel with starting := true, ready := false } }.askRecord true
  else s

/-- A write of 1 to PNL.CMD.UPDATE (R369). -/
def State.panelUpdate (s : State) : State := (s.setBit F.PNL_STATUS_PENDING true).panelNext

/-- The supervisor's lines 6 and 7 at this moment (R46). -/
def State.freshLines (s : State) : State :=
  [6, 7].foldl (fun s k => s.setPanelText k ((List.range 37).map fun i => Config.panelChar k i s.tick)) s

/-- The text of all eight lines; a character outside 0x20 to 0x7E is drawn as a space. -/
def State.panelLines (s : State) : List Byte :=
  ((List.range 8).flatMap s.panelText).map fun c => if 0x20 ≤ c.toNat && c.toNat ≤ 0x7E then c else 0x20

/-- The update starts once its record is written (R369). -/
def execPanelUpdateStart (s : State) : Out :=
  if s.panel.ready && !s.bit F.NVS_STATUS_PFW then
    let s := s.freshLines
    let p : Panel := { s.panel with snapshot := s.panelLines, starting := false, ready := false }
    .next (({ s with panel := p }.setBit F.PNL_STATUS_PENDING false).setBit F.PNL_STATUS_BUSY true)
  else .next s

/-- The running update has ended (R369): the panel shows its lines, and its record is to be written IDLE. -/
def State.panelDone (s : State) : State :=
  let p : Panel := { s.panel with shown := s.panel.snapshot, mixed := false }
  let s := ({ s with panel := p }.setBit F.PNL_STATUS_BUSY false).count F.PNL_UPDATES_COUNT
  s.askRecord false

/-- The update ends (R369); with a request pending, the next one follows. -/
def execPanelUpdateDone (s : State) : Out :=
  if s.bit F.PNL_STATUS_BUSY && !s.bit F.PNL_STATUS_RECOVERING then .next s.panelDone.panelNext else .next s

/-- The panel stopped at a phase boundary of its update, perhaps with a mixed image (R370). -/
def State.panelHalt (s : State) : State :=
  if s.bit F.PNL_STATUS_BUSY then { s with panel := { s.panel with mixed := true } }.setBit F.PNL_STATUS_BUSY false
  else s

/-- PFW during an update stops the panel (R370). -/
def execPanelStop (s : State) : Out := if s.bit F.NVS_STATUS_PFW then .next s.panelHalt else .next s

/-- The recovery begins its clear, or begins it anew, when PFW is 0 (R370, R371). -/
def State.recoverNext (s : State) : State :=
  if s.bit F.PNL_STATUS_RECOVERING && !s.bit F.NVS_STATUS_PFW then s.setBit F.PNL_STATUS_BUSY true else s

/-- At START the text is loaded from the record, and a record IN_PROGRESS starts the recovery (R371). -/
def State.panelStart (s : State) : State :=
  let (s, bs) := s.readPage 36880
  let s := (List.range 6).foldl (fun s k => s.setPanelText k ((bs.drop (1 + 37 * k)).take 37)) s
  if bs.headD 0 = 1 then
    let s := (s.setBit F.PNL_STATUS_INTERRUPTED true).setBit F.PNL_STATUS_RECOVERING true
    s.recoverNext.count F.PNL_INTERRUPTED_UPDATES_COUNT
  else s

/-- The recovery has ended (R371): the panel has been cleared and shows the record's text and fresh lines 6 and
7, the record is written IDLE. -/
def State.panelRecover (s : State) : State :=
  let (s, bs) := s.readPage 36880
  let s := s.freshLines
  let text := (bs.drop 1).take 222 ++ [6, 7].flatMap s.panelText
  let shown := text.map fun c => if 0x20 ≤ c.toNat && c.toNat ≤ 0x7E then c else 0x20
  let s := { s with panel := { s.panel with shown := shown, mixed := false } }
  let s := (s.setBit F.PNL_STATUS_RECOVERING false).setBit F.PNL_STATUS_BUSY false
  let s := s.countN F.PNL_UPDATES_COUNT 2
  let idle := memPut [] 0 (0 :: (bs.drop 1).take 222)
  (s.nvsAsk ⟨36880, idle, .panel false⟩ false).notify 0x0405 []

/-- The recovery ends (R371). -/
def execPanelRecovered (s : State) : Out :=
  if s.bit F.PNL_STATUS_RECOVERING && s.bit F.PNL_STATUS_BUSY && !s.bit F.NVS_STATUS_PFW
  then .next s.panelRecover.panelNext else .next s

end Sys2Proof.Machine
end

