-- ==== Sys2Proof/Machine/Ed25519.lean ====
section
/-! DEFINITION. Pure Ed25519 (RFC 8032, section 5.1) with SHA-512 (FIPS 180-4), which R374 cites. PRESUMED: the spec names
the standard and does not repeat it. -/

namespace Sys2Proof.Machine

/-! SHA-512. -/

/-- A word of SHA-512. -/
abbrev Word64 := BitVec 64

/-- The constants of the 80 rounds. -/
def sha512K : List Word64 :=
  [0x428A2F98D728AE22, 0x7137449123EF65CD, 0xB5C0FBCFEC4D3B2F, 0xE9B5DBA58189DBBC, 0x3956C25BF348B538] ++
  [0x59F111F1B605D019, 0x923F82A4AF194F9B, 0xAB1C5ED5DA6D8118, 0xD807AA98A3030242, 0x12835B0145706FBE] ++
  [0x243185BE4EE4B28C, 0x550C7DC3D5FFB4E2, 0x72BE5D74F27B896F, 0x80DEB1FE3B1696B1, 0x9BDC06A725C71235] ++
  [0xC19BF174CF692694, 0xE49B69C19EF14AD2, 0xEFBE4786384F25E3, 0x0FC19DC68B8CD5B5, 0x240CA1CC77AC9C65] ++
  [0x2DE92C6F592B0275, 0x4A7484AA6EA6E483, 0x5CB0A9DCBD41FBD4, 0x76F988DA831153B5, 0x983E5152EE66DFAB] ++
  [0xA831C66D2DB43210, 0xB00327C898FB213F, 0xBF597FC7BEEF0EE4, 0xC6E00BF33DA88FC2, 0xD5A79147930AA725] ++
  [0x06CA6351E003826F, 0x142929670A0E6E70, 0x27B70A8546D22FFC, 0x2E1B21385C26C926, 0x4D2C6DFC5AC42AED] ++
  [0x53380D139D95B3DF, 0x650A73548BAF63DE, 0x766A0ABB3C77B2A8, 0x81C2C92E47EDAEE6, 0x92722C851482353B] ++
  [0xA2BFE8A14CF10364, 0xA81A664BBC423001, 0xC24B8B70D0F89791, 0xC76C51A30654BE30, 0xD192E819D6EF5218] ++
  [0xD69906245565A910, 0xF40E35855771202A, 0x106AA07032BBD1B8, 0x19A4C116B8D2D0C8, 0x1E376C085141AB53] ++
  [0x2748774CDF8EEB99, 0x34B0BCB5E19B48A8, 0x391C0CB3C5C95A63, 0x4ED8AA4AE3418ACB, 0x5B9CCA4F7763E373] ++
  [0x682E6FF3D6B2B8A3, 0x748F82EE5DEFB2FC, 0x78A5636F43172F60, 0x84C87814A1F0AB72, 0x8CC702081A6439EC] ++
  [0x90BEFFFA23631E28, 0xA4506CEBDE82BDE9, 0xBEF9A3F7B2C67915, 0xC67178F2E372532B, 0xCA273ECEEA26619C] ++
  [0xD186B8C721C0C207, 0xEADA7DD6CDE0EB1E, 0xF57D4F7FEE6ED178, 0x06F067AA72176FBA, 0x0A637DC5A2C898A6] ++
  [0x113F9804BEF90DAE, 0x1B710B35131C471B, 0x28DB77F523047D84, 0x32CAAB7B40C72493, 0x3C9EBE0A15C9BEBC] ++
  [0x431D67C49C100D4C, 0x4CC5D4BECB3E42B6, 0x597F299CFC657E2A, 0x5FCB6FAB3AD6FAEC, 0x6C44198C4A475817]

/-- The eight working words. -/
structure Sha5 where
  a : Word64
  b : Word64
  c : Word64
  d : Word64
  e : Word64
  f : Word64
  g : Word64
  h : Word64
deriving DecidableEq, Repr

/-- The hash value before the first block. -/
def Sha5.init : Sha5 :=
  ⟨0x6A09E667F3BCC908, 0xBB67AE8584CAA73B, 0x3C6EF372FE94F82B, 0xA54FF53A5F1D36F1,
   0x510E527FADE682D1, 0x9B05688C2B3E6C1F, 0x1F83D9ABFB41BD6B, 0x5BE0CD19137E2179⟩

/-- The sum of two hash values, word by word. -/
def Sha5.add (x y : Sha5) : Sha5 :=
  ⟨x.a + y.a, x.b + y.b, x.c + y.c, x.d + y.d, x.e + y.e, x.f + y.f, x.g + y.g, x.h + y.h⟩

/-- One round, with the sum of its constant and its schedule word. -/
def Sha5.round (x : Sha5) (kw : Word64) : Sha5 :=
  let s1 := x.e.rotateRight 14 ^^^ x.e.rotateRight 18 ^^^ x.e.rotateRight 41
  let ch := (x.e &&& x.f) ^^^ (~~~x.e &&& x.g)
  let t1 := x.h + s1 + ch + kw
  let s0 := x.a.rotateRight 28 ^^^ x.a.rotateRight 34 ^^^ x.a.rotateRight 39
  let maj := (x.a &&& x.b) ^^^ (x.a &&& x.c) ^^^ (x.b &&& x.c)
  ⟨t1 + (s0 + maj), x.a, x.b, x.c, x.d + t1, x.e, x.f, x.g⟩

/-- The next word of the message schedule; `w` holds those before it, the last one first. -/
def sha5Next (w : List Word64) : Word64 :=
  let s0 (x : Word64) : Word64 := x.rotateRight 1 ^^^ x.rotateRight 8 ^^^ (x >>> 7)
  let s1 (x : Word64) : Word64 := x.rotateRight 19 ^^^ x.rotateRight 61 ^^^ (x >>> 6)
  s1 (w.getD 1 0) + w.getD 6 0 + s0 (w.getD 14 0) + w.getD 15 0

/-- `n` more words of the message schedule. -/
def sha5Schedule : Nat → List Word64 → List Word64
  | 0, w => w
  | n + 1, w => sha5Schedule n (sha5Next w :: w)

/-- The big-endian words of a list of bytes, at most `n`. -/
def beWords64 : Nat → List Byte → List Word64
  | 0, _ => []
  | n + 1, bs => BitVec.ofNat 64 (leNat (bs.take 8).reverse) :: beWords64 n (bs.drop 8)

/-- The hash value after a block of 128 bytes. -/
def Sha5.block (x : Sha5) (bs : List Byte) : Sha5 :=
  let w := (sha5Schedule 64 (beWords64 16 bs).reverse).reverse
  x.add ((sha512K.zip w).foldl (fun y p => y.round (p.1 + p.2)) x)

/-- The hash value after `n` blocks. -/
def Sha5.blocks : Nat → Sha5 → List Byte → Sha5
  | 0, x, _ => x
  | n + 1, x, bs => Sha5.blocks n (x.block (bs.take 128)) (bs.drop 128)

/-- The 64 bytes of the SHA-512 of a list of bytes. -/
@[irreducible] def sha512 (bs : List Byte) : List Byte :=
  let pad := (239 - bs.length % 128) % 128
  let m := bs ++ [0x80] ++ List.replicate pad 0 ++ beBytes 16 (BitVec.ofNat 128 (8 * bs.length))
  let x := Sha5.blocks (m.length / 128) Sha5.init m
  [x.a, x.b, x.c, x.d, x.e, x.f, x.g, x.h].flatMap fun w => beBytes 8 w

/-! The curve. -/

/-- The prime of the field, and the order of the base point. -/
def edP : Nat := 2 ^ 255 - 19
def edL : Nat := 2 ^ 252 + 27742317777372353535851937790883648493

/-- The power of a number modulo the prime, from the exponent's `n` low bits. -/
def edPow : Nat → Nat → Nat → Nat
  | 0, _, _ => 1
  | n + 1, x, e => let y := edPow n (x * x % edP) (e / 2); if e % 2 = 1 then x * y % edP else y

/-- The inverse of a number modulo the prime. -/
def edInv (x : Nat) : Nat := edPow 255 x (edP - 2)

/-- The constant d = -121665 ÷ 121666 of the curve, and a square root of -1. -/
def edD : Nat := (edP - 121665) * edInv 121666 % edP
def edRoot : Nat := edPow 255 2 ((edP - 1) / 4)

/-- A point in extended homogeneous coordinates. -/
structure EdPoint where
  x : Nat
  y : Nat
  z : Nat
  t : Nat
deriving DecidableEq, Repr

/-- The neutral point. -/
def EdPoint.zero : EdPoint := ⟨0, 1, 1, 0⟩

/-- The sum of two points. -/
def EdPoint.add (d : Nat) (p q : EdPoint) : EdPoint :=
  let a := (p.y + edP - p.x) * (q.y + edP - q.x) % edP
  let b := (p.y + p.x) * (q.y + q.x) % edP
  let c := 2 * p.t * q.t * d % edP
  let e := 2 * p.z * q.z % edP
  let f := b + edP - a
  let g := e + edP - c
  let h := e + c
  let k := b + a
  ⟨f * g % edP, h * k % edP, g * h % edP, f * k % edP⟩

/-- The point added to itself `k` times in all, from the `n` low bits of `k`. -/
def EdPoint.mul (d : Nat) : Nat → EdPoint → Nat → EdPoint
  | 0, _, _ => EdPoint.zero
  | n + 1, p, k =>
    let q := EdPoint.mul d n (p.add d p) (k / 2)
    if k % 2 = 1 then p.add d q else q

/-- Whether two points are the same. -/
def EdPoint.same (p q : EdPoint) : Bool :=
  p.x * q.z % edP == q.x * p.z % edP && p.y * q.z % edP == q.y * p.z % edP

/-- The point whose y coordinate is `y` and whose x coordinate has the least bit `odd`, if there is one. -/
def edLift (d y : Nat) (odd : Nat) : Option EdPoint :=
  if edP ≤ y then none
  else
    let u := (y * y + edP - 1) % edP
    let v := (d * y * y + 1) % edP
    let r := u * edPow 255 v 3 % edP * edPow 255 (u * edPow 255 v 7 % edP) ((edP - 5) / 8) % edP
    let x := if v * r * r % edP = u then some r
      else if v * r * r % edP = (edP - u) % edP then some (r * edRoot % edP) else none
    match x with
    | none => none
    | some x =>
      if x = 0 && odd = 1 then none
      else
        let x := if x % 2 = odd then x else edP - x
        some ⟨x, y, 1, x * y % edP⟩

/-- A point from its 32 bytes. -/
def edDecode (d : Nat) (bs : List Byte) : Option EdPoint :=
  let n := leNat bs
  edLift d (n % 2 ^ 255) (n / 2 ^ 255 % 2)

/-- Whether 64 bytes are a valid signature of a message under a public key: 8·S·B = 8·R + 8·k·A. -/
@[irreducible] def edVerify (pub msg sig : List Byte) : Bool :=
  let d := edD
  let n := leNat ((sig.drop 32).take 32)
  match edLift d (4 * edInv 5 % edP) 0, edDecode d (sig.take 32), edDecode d (pub.take 32) with
  | some b, some r, some a =>
    let k := leNat (sha512 (sig.take 32 ++ pub.take 32 ++ msg)) % edL
    let left := b.mul d 256 (8 * n)
    let right := (r.mul d 4 8).add d (a.mul d 256 (8 * k))
    decide (n < edL) && left.same right
  | _, _, _ => false

end Sys2Proof.Machine
end

