-- ==== Sys2Proof/Machine/ModTimers.lean ====
section
/-! DEFINITION. The module timers (R310, R311, R317 to R323) and the prescaler ticks of all timers. -/

namespace Sys2Proof.Machine

/-! Counting. -/

/-- The events of a clock source up to a tick (R317): 200 MHz, 100 MHz, 24.576 MHz, 32.768 kHz. -/
def clockEvents (src tick : Nat) : Nat :=
  match src with
  | 0 => 2 * tick
  | 1 => tick
  | 2 => tick * 24576 / 100000
  | 3 => tick * 32768 / 100000000
  | _ => 0

/-- The divisor of a module timer's prescaler (R311). -/
def State.mtDiv (s : State) (i : Nat) : Nat := max 256 (256 * s.fld (F.MTM_CLK_N i) + s.fld (F.MTM_CLK_F i))

/-- The events of a clock source counted up to the present; while CTRL.EN is 0 none count (R317). -/
def State.syncMt (s : State) (i : Nat) : State :=
  let m := s.mtm i
  let src := s.fld (F.MTM_CLK_SRC i)
  let n := if s.bit (F.MTM_EN i) then clockEvents src s.tick - clockEvents src m.upTo else 0
  let (acc, k) := prescale (s.mtDiv i) m.acc n
  s.setMt i { m with acc := acc, owed := m.owed + k, upTo := s.tick }

/-- An input event that the model sees one by one: a line start or an edge (R317). -/
def State.mtEvent (s : State) (i : Nat) : State :=
  if s.bit (F.MTM_EN i) then
    let m := s.mtm i
    let (acc, k) := prescale (s.mtDiv i) m.acc 1
    s.setMt i { m with acc := acc, owed := m.owed + k }
  else s

/-- The compare channels whose phase is 0 at the present count (R322). -/
def State.markCyc (s : State) (i : Nat) : State :=
  (List.range 8).foldl (fun s j =>
    if s.fld (F.MTM_CH_CTRL_MODE i j) = 2 && s.comparePhase i j = 0 then
      let m := s.mtm i
      s.setMt i (m.setChan j { m.chan j with cyc := true })
    else s) s

/-- A 48-bit value in use written to its two registers. -/
def State.setHalves (s : State) (lo hi : Fld) (v : BitVec 48) : State :=
  (s.setFld lo (v.toNat % 2 ^ 32)).setFld hi (v.toNat / 2 ^ 32)

/-- The pending value of a register in use. -/
def State.useHalves (s : State) (lo hi : Fld) : Option (BitVec 48) → State
  | some v => s.setHalves lo hi v
  | none => s

/-- All pending values apply (R319). -/
def State.applyMt (s : State) (i : Nat) : State :=
  let m := s.mtm i
  let s := s.useHalves (F.MTM_PERIOD_LO_PERIOD i) (F.MTM_PERIOD_HI_PERIOD i) m.period
  let s := (List.range 8).foldl (fun s j =>
    let c := m.chan j
    (s.useHalves (F.MTM_DUTY_LO_DUTY i j) (F.MTM_DUTY_HI_DUTY i j) c.duty).useHalves
      (F.MTM_PHASE_LO_PHASE i j) (F.MTM_PHASE_HI_PHASE i j) c.phase) s
  let m := (List.range 8).foldl (fun (m : Mt) j => m.setChan j { m.chan j with duty := none, phase := none }) m
  s.setMt i { m with period := none }

/-- Whether the next tick of a module timer is a return to 0 (R310). -/
def State.mtReturns (s : State) (i : Nat) : Bool := decide (s.mtPeriod i ≤ (s.mtm i).count.toNat)

/-- The prescaler of a module timer ticks (R310, R311, R319). -/
def State.mtTick (s : State) (i : Nat) : State :=
  let m := s.mtm i
  let returns := s.mtReturns i
  let s := s.setMt i { m with owed := m.owed - 1, count := if returns then 0 else m.count + 1 }
  ((if returns then s.applyMt i else s).markCyc i).settle

/-- The module timer counted up to the present, when a tick of its prescaler is due that returns to 0 or
not, as `returns` says. -/
def State.mtDue (s : State) (i : Nat) (returns : Bool) : Option State :=
  let s := s.syncMt i
  if s.bit (F.MTM_EN i) && decide (0 < (s.mtm i).owed) && s.mtReturns i == returns then some s else none

/-- A prescaler ticks and its counter advances (R311). -/
def execPrescalerTick (i : TimerId) (s : State) : Out :=
  match i with
  | .tenant t k => tenantPrescaler t k s
  | .module i =>
    match s.mtDue i false with
    | some s => .next (s.mtTick i)
    | none => .next s

/-- A module timer returns to 0, and its pending values apply together (R310, R319). -/
def execMtReturnToZero (i : Fin 8) (s : State) : Out :=
  match s.mtDue i true with
  | some s => .next (s.mtTick i)
  | none => .next s

/-- The count of a module timer at the present tick, with the ticks that are due (R310, R311). -/
def State.mtCount (s : State) (i : Nat) : BitVec 48 :=
  let m := (s.syncMt i).mtm i
  let back := s.mtPeriod i - m.count.toNat + 1
  if m.owed < back then m.count + BitVec.ofNat 48 m.owed
  else
    let period := match m.period with
      | some v => v.toNat
      | none => s.mtPeriod i
    BitVec.ofNat 48 ((m.owed - back) % (period + 1))

/-- RESTART (R317): the count and the accumulator are 0 at once. -/
def State.mtRestart (s : State) (i : Nat) : State :=
  (s.setMt i { s.mtm i with count := 0, acc := 0, owed := 0, upTo := s.tick }).markCyc i

/-! Halves (R319). -/

/-- A value formed by a write to a HI half. -/
def formed (mask data : Word) (lo hi : Word) : BitVec 48 := (blend mask data hi).extractLsb' 0 16 ++ lo

/-- A write to PERIOD_LO or PERIOD_HI of MT`i`. With EN 0 the value formed applies at once, and what is pending of other
registers stays so. -/
def State.periodWrite (s : State) (i : Nat) (hiHalf : Bool) (mask data : Word) : State :=
  let m := s.mtm i
  let lo := m.periodLo.getD (s.word (F.MTM_PERIOD_LO_PERIOD i).key)
  if hiHalf then
    let v := formed mask data lo (s.word (F.MTM_PERIOD_HI_PERIOD i).key)
    if s.bit (F.MTM_EN i) then s.setMt i { m with periodLo := none, period := some v }
    else
      (s.setMt i { m with periodLo := none, period := none }).setHalves (F.MTM_PERIOD_LO_PERIOD i)
        (F.MTM_PERIOD_HI_PERIOD i) v
  else s.setMt i { m with periodLo := some (blend mask data lo) }

/-- A write to a half of DUTY or PHASE of MT`i`.`j`. -/
def State.channelWrite (s : State) (i j : Nat) (phase hiHalf : Bool) (mask data : Word) : State :=
  let m := s.mtm i
  let c := m.chan j
  let loF := if phase then F.MTM_PHASE_LO_PHASE i j else F.MTM_DUTY_LO_DUTY i j
  let hiF := if phase then F.MTM_PHASE_HI_PHASE i j else F.MTM_DUTY_HI_DUTY i j
  let lo := (if phase then c.phaseLo else c.dutyLo).getD (s.word loF.key)
  if hiHalf then
    let v := formed mask data lo (s.word hiF.key)
    let en := s.bit (F.MTM_EN i)
    let pend := if en then some v else none
    let c := if phase then { c with phaseLo := none, phase := pend } else { c with dutyLo := none, duty := pend }
    let s := s.setMt i (m.setChan j c)
    if en then s else s.setHalves loF hiF v
  else
    let v := some (blend mask data lo)
    s.setMt i (m.setChan j (if phase then { c with phaseLo := v } else { c with dutyLo := v }))

/-- A write to an MTM page that has an effect of its own (R317, R319): whether it is one, and the state after
it. `a` is the module address of the word. -/
def State.mtWrite (s : State) (a : Nat) (mask data : Word) : Option State :=
  let i := (a - 0xA000) / 0x1000
  let off := a % 0x1000
  let ch := (off - 0x100) / 0x40
  let o := (off - 0x100) % 0x40
  if off = 0x24 then some (s.periodWrite i false mask data)
  else if off = 0x28 then some (if mask &&& 0xFFFF = 0 then s else s.periodWrite i true mask data)
  else if 0x100 ≤ off && off < 0x300 && 0x20 ≤ o && o < 0x30 then
    let hi := o / 4 % 2 == 1
    some (if hi && mask &&& 0xFFFF = 0 then s else s.channelWrite i ch (o / 8 % 2 == 1) hi mask data)
  else none

/-! Capture and compare. -/

/-- A capture in channel `j` of MT`i` (R320): FLAGS.CAP, or an overrun. -/
def State.flagCapture (s : State) (i j : Nat) : State :=
  let s := if s.bit (F.MTM_FLAGS_CAP i j) then
      (s.setBit (F.MTM_FLAGS_OVR i j) true).count (F.MTM_OVERRUNS_COUNT i) else s
  (s.setBit (F.MTM_FLAGS_CAP i j) true).count (F.MTM_CAPTURES_COUNT i)

/-- Paired capture on MT0 (R321): the accepted edge to `level` of channel `j`. -/
def State.pairedCapture (s : State) (j : Nat) (level : Bool) : State :=
  let m := s.mtm 0
  let c := m.chan j
  if level then
    let n := c.edges + 1
    if s.fld (F.MTM_CH_CTRL_PRESC 0 j) < n then
      let s := s.setMt 0 (m.setChan j { c with edges := 0, rise := true })
      s.setHalves (F.MTM_CAP_LO_CAP 0 j) (F.MTM_CAP_HI_CAP 0 j) (s.mtCount 0)
    else s.setMt 0 (m.setChan j { c with edges := n })
  else if c.rise then
    let rise := s.halves (F.MTM_CAP_LO_CAP 0 j) (F.MTM_CAP_HI_CAP 0 j)
    let width := (((s.mtCount 0).toNat : Int) - rise).emod (s.mtPeriod 0 + 1)
    let s := s.setMt 0 (m.setChan j { c with rise := false })
    let s := s.setHalves (F.MTM_FALL_LO_FALL 0 j) (F.MTM_FALL_HI_FALL 0 j) (s.mtCount 0)
    (s.setHalves (F.MTM_WIDTH_LO_WIDTH 0 j) (F.MTM_WIDTH_HI_WIDTH 0 j) (BitVec.ofInt 48 width)).flagCapture 0 j
  else s

/-- An accepted edge to `level` of channel `j` of MT`i` (R317, R320). DESIGN CHOICE: for the input events of SRC 8, EDGE 3
of MT0's channel 7, which captures nothing, selects rising edges as on the other timers. -/
def State.acceptEdge (s : State) (i j : Nat) (level : Bool) : State :=
  let edge := s.fld (F.MTM_CH_CTRL_EDGE i j)
  let input := j = 7 && s.fld (F.MTM_CLK_SRC i) = 8
  if i = 0 && edge = 3 && !input then s.pairedCapture j level
  else
    let wanted := if edge = 1 then !level else if edge = 2 then true else level
    if !wanted then s
    else
      let m := s.mtm i
      let c := m.chan j
      let n := c.edges + 1
      if s.fld (F.MTM_CH_CTRL_PRESC i j) < n then
        let s := s.setMt i (m.setChan j { c with edges := 0 })
        if input then s.mtEvent i
        else (s.setHalves (F.MTM_CAP_LO_CAP i j) (F.MTM_CAP_HI_CAP i j) (s.mtCount i)).flagCapture i j
      else s.setMt i (m.setChan j { c with edges := n })

/-- The tick from which a channel accepts the level at the capture input of MT`i`.`j`: when it has held for FILT + 1
samples of the 200 MHz clock, behind a synchroniser of two (R320). -/
def State.captureTick (s : State) (i j : Nat) : Nat :=
  Store.get 0 s.pins.since (8 * i + j) + (s.fld (F.MTM_CH_CTRL_FILT i j) + 3) / 2

/-- Whether the capture input of MT`i`.`j` has held its level long enough to be accepted (R320). -/
def State.filtered (s : State) (i j : Nat) : Bool := decide (s.captureTick i j ≤ s.tick)

/-- The capture input of MT`i`.`j` is accepted at a new level (R320), as soon as the filter lets it. -/
def execCapture (i j : Fin 8) (level : Bool) (s : State) : Out :=
  let s := s.advance (s.captureTick i j)
  let m := s.mtm i
  let c := m.chan j
  if s.fld (F.MTM_CH_CTRL_MODE i j) = 1 && c.level != level && s.captureIn i j == level && s.filtered i j then
    let s := s.setMt i (m.setChan j { c with level := level })
    .next (s.acceptEdge i j level)
  else .next s

/-- The phase of a compare channel has become 0 (R322). -/
def execCompareCycle (i j : Fin 8) (s : State) : Out :=
  let m := s.mtm i
  let c := m.chan j
  if c.cyc && s.bit (F.MTM_EN i) then
    .next ((s.setMt i (m.setChan j { c with cyc := false })).setBit (F.MTM_FLAGS_CYC i j) true)
  else .next s

end Sys2Proof.Machine
end

