-- ==== Sys2Proof/Machine/Timebase.lean ====
section
/-! DEFINITION. The timebases (R56 to R59). The registers of the TBS page are the staged settings; `State.tb` holds
the settings in use. -/

namespace Sys2Proof.Machine

/-- The settings of a timebase in use. -/
def State.tbSet (s : State) (n : Nat) : TbSet := Store.get TbSet.reset s.tb n

/-- The tenants bound to a timebase that are not EMPTY. -/
def State.tbBound (s : State) (n : Nat) : Nat :=
  (s.tenants.filter fun (_, t) => t.st != 0 && t.fld F.TEN_GEOM_TB == n).length

/-- Whether a timebase is locked (R58). -/
def State.tbLocked (s : State) (n : Nat) : Bool := s.tbBound n != 0

/-- Whether any timebase is locked. -/
def State.anyLocked (s : State) : Bool := (List.range 4).any s.tbLocked

/-- The staged settings of a timebase. -/
def State.tbStaged (s : State) (n : Nat) : TbSet :=
  { lineTicks := s.fld (F.TBS_TB_LINE_LINE_TICKS n), lines := s.fld (F.TBS_TB_FMT_LINES n)
    visLines := s.fld (F.TBS_TB_FMT_VIS_LINES n), vblank := s.fld (F.TBS_TB_VBLANK_VBLANK_START n)
    origin := s.fld (F.TBS_TB_ORIGIN_HI_ORIGIN n) * 2 ^ 32 + s.fld (F.TBS_TB_ORIGIN_LO_ORIGIN n) }

/-- The first cause for which staged settings are refused (R56, R59), by REJECT_CODE. -/
def TbSet.fault (b : TbSet) (locked : Bool) : Option Nat :=
  if !(1500 ≤ b.lineTicks && b.lineTicks ≤ 6400) then some 1
  else if !(200 ≤ b.lines && b.lines ≤ 700) then some 2
  else if !(192 ≤ b.visLines && b.visLines ≤ b.vblank && b.vblank + 1 ≤ b.lines && b.visLines ≤ 700) then some 3
  else if locked then some 4
  else none

/-- A write of COMMIT (R59). -/
def State.tbCommit (s : State) (n : Nat) : State :=
  match (s.tbStaged n).fault (s.tbLocked n) with
  | none => { s with tb := Store.set TbSet.reset s.tb n (s.tbStaged n) }
  | some c => (s.raiseNow (F.TBS_TB_STAT_REJECT n)).setFld (F.TBS_TB_STAT_REJECT_CODE n) c

/-- A write to TB_CTL of the bits in `mask` (R58, R59): RUN as written, then COMMIT. -/
def State.tbCtlWrite (s : State) (n : Nat) (mask data : Word) : State :=
  let run := F.TBS_TB_CTL_RUN n
  let s := if mask.getLsbD 0 && (data.getLsbD 0 || !s.tbLocked n) then s.setBit run (data.getLsbD 0) else s
  if mask.getLsbD 1 && data.getLsbD 1 then s.tbCommit n else s

/-- TB_STAT as it reads (R58, R59). -/
def State.tbStat (s : State) (n : Nat) : Word :=
  let w := s.word (F.TBS_TB_STAT_REJECT n).key
  setBits (setBits (setBits w 0 1 (s.tbRunning n).toNat) 1 1 (s.tbLocked n).toNat) 16 11 (s.tbBound n)

/-- FRAME_NO as it reads (R57). -/
def State.tbFrameNo (s : State) (n : Nat) : Word :=
  let b := s.tbSet n
  if s.tbRunning n then BitVec.ofNat 32 ((s.tick - b.origin) / (b.lines * b.lineTicks)) else 0

/-- Whether a line of a running timebase starts at the current tick (R57). -/
def State.tbLineNow (s : State) (n : Nat) : Bool :=
  let b := s.tbSet n
  s.tbRunning n && decide ((s.tick - b.origin) % b.lineTicks = 0)

/-- A running timebase reaches the start of a line at tick `at_` (R57): the module timers that count its lines
have an input event (R317). -/
def execTbLineStart (n : Fin 4) (at_ : Nat) (s : State) : Out :=
  let s' := s.advance at_
  if s.tick ≤ at_ && s'.tbLineNow n then
    .next ((List.range 8).foldl (fun s i =>
      if s.fld (F.MTM_CLK_SRC i) = 4 + n then s.mtEvent i else s) s')
  else .next s

end Sys2Proof.Machine
end

