-- ==== Sys2Proof/Machine/Fwu.lean ====
section
/-! DEFINITION. Firmware update (R373 to R385) and the takeover of the supervisor's role (R294, R380, R381). -/

namespace Sys2Proof.Machine

/-! The Phixus image (R373 to R375). -/

/-- A little-endian field of an image. -/
def imgField (m : Memory) (off n : Nat) : Nat := leNat (memBytes m off n)

/-- The bytes of an image header that must be 0. -/
def imgZeros : List Nat :=
  [30, 31] ++ (List.range 3).flatMap (fun i => (List.range 4).map fun j => 40 + 48 * i + 12 + j)
    ++ (List.range 72).map fun j => 184 + j

/-- Whether the fixed fields and the zero bytes of a header are right. -/
def imgFormat (m : Memory) : Bool :=
  memBytes m 0 4 == [0x50, 0x48, 0x58, 0x31] && imgField m 4 2 == 1 && imgField m 6 2 == 256
    && imgField m 36 4 == 3 && imgZeros.all fun a => memGet m a == 0

/-- A section of an image: type, offset, length, SHA-256. -/
def imgSection (m : Memory) (i : Nat) : Nat × Nat × Nat × List Byte :=
  let a := 40 + 48 * i
  (imgField m a 4, imgField m (a + 4) 4, imgField m (a + 8) 4, memBytes m (a + 16) 32)

/-- Whether two sections share no byte. -/
def imgApart (a b : Nat × Nat × Nat × List Byte) : Bool :=
  decide (a.2.1 + a.2.2.1 ≤ b.2.1) || decide (b.2.1 + b.2.2.1 ≤ a.2.1)

/-- Whether the sections satisfy R373 and their SHA-256 match. -/
def imgSections (m : Memory) (total : Nat) : Bool :=
  let ss := (List.range 3).map (imgSection m)
  ([1, 2, 3].all fun ty => (ss.filter fun x => x.1 == ty).length == 1)
    && (ss.all fun x => 256 ≤ x.2.1 && x.2.1 + x.2.2.1 + 64 ≤ total
          && sha256 (memBytes m x.2.1 x.2.2.1) == x.2.2.2)
    && match ss with
      | [a, b, c] => imgApart a b && imgApart a c && imgApart b c
      | _ => false

/-- A field of a register whose value the factory fixes. -/
def State.factory (_ : State) (f : Fld) : Nat := getBits (Config.factoryWord f.key) f.lo f.w

/-- Whether the last 64 of `total` bytes sign the others under key `key` (R374). -/
def imgSigned (m : Memory) (total key : Nat) : Bool :=
  edVerify ((Config.signKey key).take 32) (memBytes m 0 (total - 64)) (memBytes m (total - 64) 64)

/-- The result of the verification of `n` staged bytes (R375): the first check that fails, or 0. -/
def State.verify (s : State) (m : Memory) (n : Nat) : Nat :=
  let total := imgField m 32 4
  let serial := imgField m 16 8
  let unit := s.factory F.FWU_SERIAL_HI_SERIAL * 2 ^ 32 + s.factory F.FWU_SERIAL_LO_SERIAL
  let key := imgField m 14 2
  if !imgFormat m then 1
  else if total < 1024 || 20971520 < total || total != n then 2
  else if imgField m 8 4 != 0x1024 then 3
  else if s.factory F.FWU_HW_REV_REV < imgField m 12 2 then 4
  else if serial != 0 && serial != unit then 5
  else if key < 4 && Config.keyRevoked key then 6
  else if 4 ≤ key || !imgSigned m total key then 7
  else if !imgSections m total then 8
  else 0

/-! Slots and the firmware record. -/

/-- The first page of an image slot. -/
def imgSlot (n : Nat) : Nat := 65536 + 81920 * n

/-- The page of the firmware record. -/
def fwPage : Nat := 311296

/-- A field of the header of the image in a slot, from NVS or as the factory left it. -/
def State.slotField (s : State) (slot off n : Nat) : Nat :=
  let bs := match Store.find? s.nvs.pages (imgSlot slot) with
    | some _ => (s.readPage (imgSlot slot)).2
    | none => Config.factoryImage slot
  leNat ((List.range n).map fun i => bs.getD (off + i) 0)

/-- VERSION of the image in a slot. -/
def State.slotVersion (s : State) (slot : Nat) : Nat := s.slotField slot 24 4

/-- The assignment of the slots: active, previous, staging. -/
def State.slots (s : State) : Nat × Nat × Nat :=
  (s.fld F.FWU_SLOTS_ACTIVE, s.fld F.FWU_SLOTS_PREVIOUS, s.fld F.FWU_SLOTS_STAGING)

/-- The slots assigned in the registers. -/
def State.setSlots (s : State) (a : Nat × Nat × Nat) : State :=
  ((s.setFld F.FWU_SLOTS_ACTIVE a.1).setFld F.FWU_SLOTS_PREVIOUS a.2.1).setFld F.FWU_SLOTS_STAGING a.2.2

/-- The bytes of the firmware record: written, the three slots, confirmed, rollback, rejected slots. -/
def State.fwBytes (s : State) : List Byte :=
  let (a, p, g) := s.slots
  let rej := s.fwu.rejected.foldl (fun n k => n ||| 2 ^ k) 0
  let tail : List Byte := List.replicate 249 0
  [1, BitVec.ofNat 8 a, BitVec.ofNat 8 p, BitVec.ofNat 8 g, BitVec.ofNat 8 s.fwu.confirmed.toNat,
    BitVec.ofNat 8 s.fwu.rollback.toNat, BitVec.ofNat 8 rej] ++ tail

/-- The firmware record written (R378, R381). -/
def State.fwRecord (s : State) : State := s.nvsRecord fwPage s.fwBytes

/-- The slots in the roles that a handover gives them: an update makes the staging slot active, a rollback exchanges the
active and the previous slot (R378, R382). They are unconfirmed, but for the previous image of a trial, which is the
confirmed one (R383). -/
def State.takeRoles (s : State) (rollback confirmed : Bool) : State :=
  let (a, p, g) := s.slots
  let s := s.setSlots (if rollback then (p, a, g) else (g, a, p))
  { s with fwu := { s.fwu with rollback := rollback, confirmed := confirmed } }.fwRecord

/-- The previous assignment restored (R381, R383). -/
def State.restoreRoles (s : State) : State :=
  let (a, p, g) := s.slots
  let s := s.setSlots (if s.fwu.rollback then (p, a, g) else (p, g, a))
  { s with fwu := { s.fwu with rollback := false, confirmed := true } }.fwRecord

/-! Settings (R384). -/

/-- The pages of the settings groups, which lie in 32,768 to 36,863 (R357, R384). -/
def settingsPages : List Nat := (Config.settingsGroups.filter fun p => 32768 ≤ p && p < 36864).eraseDups

/-- The schema version with which a settings group is stored. -/
def State.schemaOf (s : State) (p : Nat) : Nat := (Store.find? s.nvs.schemas p).getD (Config.factorySchema p)

/-- An image starts with settings of schema `new`: the groups of another schema are reset to their defaults (R384). -/
def State.applySettings (s : State) (new : Nat) : State :=
  let gs := settingsPages.filter fun p => s.schemaOf p != new
  let s := gs.foldl (fun s p =>
    { s with nvs := { s.nvs with schemas := Store.put s.nvs.schemas p new } }.nvsRecord p (Config.settingsPage p new)) s
  if gs = [] then s
  else (s.setBit F.FWU_STATUS_NOTICE true).notify 0x0506 (gs.map fun p => (p, Config.eventValue 0x0506 p))

/-- The image of the active slot starts. -/
def State.startImage (s : State) : State := s.applySettings (s.slotField s.slots.1 28 2)

/-! Events and commands. -/

/-- PHASE of the update. -/
def State.phase (s : State) : Nat := s.fld F.FWU_STATUS_PHASE

/-- PHASE set. -/
def State.setPhase (s : State) (n : Nat) : State := s.setFld F.FWU_STATUS_PHASE n

/-- A firmware event (R385): it sets NOTICE. -/
def State.fwEvent (s : State) (code : Nat) (item : Option Nat) : State :=
  let s := s.setBit F.FWU_STATUS_NOTICE true
  match item with
  | some n => s.tell code n
  | none => s.notify code []

/-- The item of FWU_SWAPPED and its kin: VERSION[31:16] of the active image. -/
def State.activeItem (s : State) : Nat := s.slotVersion s.slots.1 / 65536

/-- A command that the state does not allow (R376, R378). -/
def State.fwReject (s : State) : State := s.countNow F.FWU_CMD_REJECT_COUNT

/-- OPEN (R376). -/
def State.fwOpen (s : State) (m : Master) : State :=
  let n := s.fld F.FWU_STAGE_LEN_LEN
  if s.phase = 0 && 1024 ≤ n && n ≤ 20971520 then
    { s with fwu := { s.fwu with issuer := some m, staged := [] } }.setFld F.FWU_RECEIVED_BYTES 0 |>.setPhase 1
  else s.fwReject

/-- ABORT (R377). -/
def State.fwAbort (s : State) : State := if 1 ≤ s.phase && s.phase ≤ 3 then s.setPhase 0 else s.fwReject

/-- ACTIVATE (R378, step 1). The record cannot be written while PFW is raised. -/
def State.fwActivate (s : State) : State :=
  if s.phase = 3 && s.bit F.FWU_STATUS_STANDBY_READY && !s.bit F.NVS_STATUS_PFW then
    ((s.takeRoles false false).setBit F.FWU_STATUS_STANDBY_READY false).setPhase 4
  else s.fwReject

/-- ROLLBACK (R382). During TRIAL the standby already runs the old image, to which the settings go back at once (R384). -/
def State.fwRollback (s : State) : State :=
  let trial := s.phase == 6
  if (s.phase = 0 || s.phase = 6) && !s.bit F.NVS_STATUS_PFW then
    let s := (s.takeRoles true trial).setBit F.FWU_STATUS_STANDBY_READY false
    if trial then (s.setPhase 5).startImage else s.setPhase 4
  else s.fwReject

/-- The trial ends (R381): the image is confirmed, and the standby reboots into it. -/
def State.endTrial (s : State) : State :=
  let s := { s with fwu := { s.fwu with confirmed := true, rollback := false, reboot := true } }.fwRecord
  (s.setBit F.FWU_STATUS_STANDBY_READY false).setPhase 0

/-- CONFIRM (R381). -/
def State.fwConfirm (s : State) : State :=
  if s.phase = 6 && !s.bit F.NVS_STATUS_PFW then s.endTrial else s.fwReject

/-! Staging (R377). -/

/-- The staged pages of a chunk that are whole, and the last one of a finished image, written into the staging slot. -/
def State.stagePages (s : State) (lo hi : Nat) (final : Bool) : State :=
  let slot := s.fld F.FWU_SLOTS_STAGING
  let n := if final then ceilDiv hi 256 else hi / 256
  (List.range (n - lo / 256)).foldl (fun s i =>
    let p := lo / 256 + i
    s.nvsAsk ⟨imgSlot slot + p, memPut [] 0 (memBytes s.fwu.staged (256 * p) 256), .image⟩ true) s

/-- VERIFY (R377): the bytes accepted of a last page that is not whole are written too, and verification starts. -/
def State.fwVerify (s : State) : State :=
  let n := s.fld F.FWU_RECEIVED_BYTES
  if s.phase = 1 then (s.stagePages n n true).setPhase 2 else s.fwReject

/-- A write to FWU.CMD (R376 to R382) with the OP `op`. -/
def State.fwCmd (s : State) (m : Master) (op : Nat) : State :=
  match op with
  | 1 => s.fwOpen m
  | 2 => s.fwVerify
  | 3 => s.fwActivate
  | 4 => s.fwConfirm
  | 5 => s.fwRollback
  | 6 => s.fwAbort
  | _ => s.fwReject

/-- An IMAGE_CHUNK with DEST 1 (R377). -/
def State.fwChunk (s : State) (m : Master) (last : Bool) (off : Nat) (data : List Byte) : State :=
  let hi := off + data.length
  if s.phase = 1 && s.fwu.issuer == some m && off == s.fld F.FWU_RECEIVED_BYTES
      && hi ≤ s.fld F.FWU_STAGE_LEN_LEN && !s.bit F.NVS_STATUS_PFW then
    let final := last || hi == s.fld F.FWU_STAGE_LEN_LEN
    let s := { s with fwu := { s.fwu with staged := memPut s.fwu.staged off data } }
    let s := (s.stagePages off hi final).setFld F.FWU_RECEIVED_BYTES hi
    if final then s.setPhase 2 else s
  else s.count F.FWU_CHUNK_REJECT_COUNT

/-- Verification finishes (R375, R377). -/
def execFwuVerified (s : State) : Out :=
  if s.phase = 2 then
    let r := s.verify s.fwu.staged (s.fld F.FWU_RECEIVED_BYTES)
    let s := s.setFld F.FWU_STATUS_RESULT r
    if r = 0 then
      let s := (s.setPhase 3).setFld F.FWU_STAGED_VER_VERSION (imgField s.fwu.staged 24 4)
      .next ((s.fwEvent 0x0501 (some 0)).settle)
    else .next ((((s.setPhase 0).count F.FWU_VERIFY_FAILS_COUNT).fwEvent 0x0502 (some r)).settle)
  else .next s

/-! Handover (R378 to R382). -/

/-- The standby becomes active (R294). -/
def State.supSwitch (s : State) : State :=
  let s := s.setBit F.MOD_CONT_STATUS_ACTIVE_SUP_B (!s.bit F.MOD_CONT_STATUS_ACTIVE_SUP_B)
  (s.setBit F.FWU_STATUS_STANDBY_READY false).notify 0x0209 []

/-- The standby has booted the new image: the active supervisor hands over its state (R378, steps 2 and 3), or, where it
has failed, the standby takes it from HBM and becomes active (R380). -/
def execSyncing (s : State) : Out :=
  if s.phase = 4 then
    if s.fwu.failed then
      let s := { s with fwu := { s.fwu with failed := false, swapTick := s.tick } }.startImage
      .next ((s.supSwitch.setPhase 6).settle)
    else .next (((s.setPhase 5).startImage).settle)
  else .next s

/-- The roles swap (R378, steps 4 and 5), at a line start of TB0 while that runs. -/
def execFwuSwapped (s : State) : Out :=
  if s.phase = 5 && !s.supBusy && (s.tbLineNow 0 || !s.tbRunning 0) then
    let s := s.setBit F.MOD_CONT_STATUS_ACTIVE_SUP_B (!s.bit F.MOD_CONT_STATUS_ACTIVE_SUP_B)
    let s := { (s.count F.FWU_SWAPS_COUNT).setPhase 6 with fwu := { s.fwu with swapTick := s.tick } }
    let s := if s.fwu.rollback then s.count F.FWU_ROLLBACKS_COUNT else s
    let s := s.fwEvent 0x0503 (some s.activeItem)
    .next (if s.fld F.FWU_TRIAL_S_SECONDS = 0 && !s.bit F.NVS_STATUS_PFW then s.endTrial else s).settle
  else .next s

/-- TRIAL_S seconds have passed since the swap (R381). -/
def execTrialEnd (s : State) : Out :=
  let last := s.fwu.swapTick + 100000000 * s.fld F.FWU_TRIAL_S_SECONDS
  if s.phase = 6 && last ≤ s.tick && !s.bit F.NVS_STATUS_PFW then .next s.endTrial else .next s

/-- The standby holds a current state copy (R381, R385): after a trial, the host is told. -/
def execStandbyReady (s : State) : Out :=
  if s.bit F.MOD_STATUS_READY && s.phase < 4 && !s.bit F.FWU_STATUS_STANDBY_READY && !s.supBusy then
    let s' := s.setBit F.FWU_STATUS_STANDBY_READY true
    if s.fwu.reboot then
      .next (({ s' with fwu := { s'.fwu with reboot := false } }.fwEvent 0x0504 (some s'.activeItem)).settle)
    else .next s'
  else .next s

/-! Start-up (R383). -/

/-- The firmware record read at START: an unconfirmed image gives way to the previous one. -/
def State.fwRoles (s : State) (trial : Bool) : State :=
  let (s, bs) := s.readPage fwPage
  if bs.headD 0 = 0 then { s with fwu := Fwu.reset }
  else
    let at_ (i : Nat) : Nat := (bs.getD i 0).toNat
    let f : Fwu := { Fwu.reset with
      rollback := at_ 5 == 1, confirmed := at_ 4 == 1, rejected := (List.range 3).filter fun k => (at_ 6).testBit k }
    let s := { s with fwu := f }.setSlots (at_ 1, at_ 2, at_ 3)
    if f.confirmed then s
    else
      let s := s.restoreRoles
      { s with fwu := { s.fwu with abandoned := trial } }

/-- The supervisors boot the confirmed image (R383), which applies its settings rule (R384). -/
def State.fwStart (s : State) (trial : Bool) : State := (s.fwRoles trial).startImage

/-- PFW before the swap (R383): an upload is given up, and so is a handover to an image that is not confirmed, but for one
whose active supervisor has failed (R380). -/
def State.fwPfw (s : State) : State :=
  if 1 ≤ s.phase && s.phase ≤ 3 then s.setPhase 0
  else if (s.phase = 4 || s.phase = 5) && !s.fwu.confirmed && !s.fwu.failed then s.restoreRoles.setPhase 0
  else s

/-! Supervisors (R294). -/

/-- The active supervisor sends a heartbeat to the standby. -/
def execSupHeartbeat (s : State) : Out := .next { s with cont := { s.cont with lastHb := s.tick } }

/-- The update when the standby takes over: in SYNCING it becomes active on the new image (R380); during TRIAL it restores
the previous assignment, and its image starts (R381, R384). -/
def State.fwFailover (s : State) : State :=
  if s.phase = 5 then { s.setPhase 6 with fwu := { s.fwu with swapTick := s.tick } }
  else if s.phase = 6 then
    let failed := s.fld F.FWU_SLOTS_ACTIVE
    let s := { s with fwu := { s.fwu with rejected := s.fwu.rejected ++ [failed] } }.restoreRoles
    let s := (s.setPhase 0).count F.FWU_ROLLBACKS_COUNT
    (s.fwEvent 0x0505 (some s.activeItem)).startImage
  else s

/-- The active supervisor has failed and the standby takes over (R294): failovers and messages for the supervisor wait
until it has. In BOOTING the standby cannot take over before it has booted (R380). -/
def execSupFailover (s : State) : Out :=
  if s.supBusy then .next s
  else
    let s := s.setBit F.MOD_CONT_STATUS_SUP_TAKEOVER true
    if s.phase = 4 then .next { s with fwu := { s.fwu with failed := true } }.settle
    else .next (s.supSwitch.fwFailover).settle

end Sys2Proof.Machine
end

