-- ==== Sys2Proof/Machine/TenantCmd.lean ====
section
/-! DEFINITION. What the tenant commands do (R36, R60 to R62, R69 to R75, R281 to R283, R290 to R292, R341), with the
status that answers each (R342). The checks of the gate come before (Gate.lean). -/

namespace Sys2Proof.Machine

/-! Writes while a tenant does not execute (R36). -/

/-- The tenant-view bytes that launch an item: QDM.GO, BLT.GO, the GO of the DMA channels, SAV.GO. -/
def isGo (a : Addr) : Bool :=
  let k := (a.toNat - 0xF000) / 256
  let x := a.toNat % 256
  (k == 10 && x == 0x0E) || (k == 11 && x == 7) || (k == 12 && (x == 0x12 || x == 0x32)) || (k == 13 && x == 8)

/-- The module-view write of one tenant-view byte, as an input. -/
def byteInput (w : Addr × Byte) : Input :=
  let (key, mask, data) := viewStore ((w.1.toNat - 0xF000) / 256) (w.1.toNat % 256) w.2
  .write key mask data

/-- The writes to target registers that wait, taken up. -/
def Core.takeUp (c : Core) : Core :=
  { c with
    regs := c.rlog.foldl (fun r e =>
      Store.set (tenantRst e.key) r e.key (blend e.mask e.val (Store.get (tenantRst e.key) r e.key))) c.regs
    rlog := [] }

/-- The counts of the timers shown to the module as they stand (R316). -/
def Core.showCounts (c : Core) : Core :=
  { c with tmr0 := { c.tmr0 with lineCount := c.tmr0.count }, tmr1 := { c.tmr1 with lineCount := c.tmr1.count }
           tmr2 := { c.tmr2 with lineCount := c.tmr2.count }, tmr3 := { c.tmr3 with lineCount := c.tmr3.count } }

/-- A module-view write to a word of the tenant's execution while the tenant is EMPTY or LOADED (R36): stored, as the
state in which START begins. A key change and a set swap stay pending for the first audio tick, and a write to a GO
register enters at the first line. -/
def Tenant.preset (g : Geo) (t : Tenant) (key : Nat) (mask data : Word) : Tenant :=
  let t :=
    if 4 * key % 0x1000 = 8 then
      let t := t.storeWord 0 0 key mask data
      if key = F.MIX_CTRL_SWAP.key && mask.getLsbD F.MIX_CTRL_SWAP.lo && data.getLsbD F.MIX_CTRL_SWAP.lo then
        t.setBit F.MIX_STATUS_SWAP_PENDING true
      else t
    else if key = F.BLT_QUOTA_MPIX.key then t.storeWord 0 0 key mask data
    else
      let ws := viewBytes key mask data
      let t := t.ioApply g 0 (ws.filter fun w => !isGo w.1)
      { t with inputs := t.inputs ++ (ws.filter fun w => isGo w.1).map byteInput }
  { t with core := t.core.takeUp.showCounts }

/-! Profiles. -/

/-- The setting of a profile outside its range of R60, or its misfit with the settings of the timebase (R61, R62). -/
def profileFault (geom cyc pace : Word) (b : TbSet) : Option Byte :=
  let w := getBits geom 0 6
  let h := getBits geom 8 6
  let cpl := getBits cyc 0 12
  let vis := getBits cyc 16 12
  let lead := getBits pace 16 3
  if !(16 ≤ w && w ≤ 40 && 12 ≤ h && h ≤ 30 && 128 ≤ cpl && cpl ≤ 2048 && 64 ≤ vis && vis + 16 ≤ cpl
      && 1 ≤ lead && lead ≤ 4) then some 0x21
  else if b.visLines < 16 * h then some 0x22
  else if b.lines ≤ getBits pace 0 10 then some 0x23
  else if b.lineTicks * 8 < cpl * 25 then some 0x24
  else none

/-! Reset. -/

/-- The words of the TEN page that a reset leaves: CONT, PLACE, MIRROR. -/
def keptWord (key : Nat) : Bool :=
  key == F.TEN_CONT_STATE.key || key == F.TEN_PLACE_SLOT.key || key == F.TEN_MIRROR_MSLOT.key

/-- The registers that the module keeps, after a reset (R36): OWNER of each page, CONT, PLACE and MIRROR. -/
def keepWords (m : Store Word) : Store Word :=
  (m.map fun e => if e.1 % 0x400 = 2 then (e.1, e.2 &&& 0x30) else e).filter fun e => keptWord e.1 || e.1 % 0x400 = 2

/-- The save RAM of a memory. -/
def saveOnly (m : Memory) : Memory := m.filter fun e => 0x10000 ≤ e.1 && e.1 < 0x12000

/-- The execution state, the registers and the overlay set of a tenant cleared, save RAM kept (R36, R174). -/
def Tenant.clear (t : Tenant) : Tenant :=
  { t with
    core := { Core.reset with mem := saveOnly t.core.mem }, mregs := keepWords t.mregs
    compo := { Compo.reset with
      relocated := t.compo.relocated, writes := t.compo.writes, applied := t.compo.applied }
    record := Core.reset, recordValid := false
    handed := 0, rendered := 0, audioNext := 0, mirror := none, lostMirror := false, lagWarned := false }

/-- A write to a word that the module keeps, stored (R5, R170). -/
def Tenant.keptStore (t : Tenant) (key : Nat) (m data : Word) : Tenant :=
  let t := t.setWord key (blend (m &&& BitVec.ofNat 32 (tenantWord key).rw) data (t.word key))
  if key = F.TEN_OVL_CTRL_RESERVE.key && m.getLsbD 24 && data.getLsbD 24 then t.commitOverlay else t

/-- A write that has waited for a reset, stored as for a LOADED tenant (R36). -/
def Tenant.lateStore (g : Geo) (t : Tenant) (w : Nat × Word × Word) : Tenant :=
  if isCoreWord w.1 then t.preset g w.1 w.2.1 w.2.2 else t.keptStore w.1 w.2.1 w.2.2

/-- Every unit has drained (R36, steps 2 and 3 of the tenant reset): the slot is cleared, and the writes that have come
since are stored. A tenant without a slot waits for one. -/
def execResetDone (k : Tn) (s : State) : Out :=
  let t := s.tenant k
  if t.st = 5 && !t.unplaced && !t.waitPromotion then
    let g := s.geo k
    let writes := t.afterReset
    let t := writes.foldl (Tenant.lateStore g) { t.clear with afterReset := [] }
    let t := (t.setFld F.TEN_CONT_STATE 1).setBit F.TEN_CONT_LOST false
    .next ((s.setTenant k t).tell 0x0107 k)
  else .next s

/-- The arms on a tenant's pages end with its reset: EXPERT_KEY reads its reset value (R36, R38). -/
def State.dropArms (s : State) (k : Nat) : State :=
  { s with bus := { s.bus with arms := s.bus.arms.filter fun r => (tenantOf r.2).map (fun x => x.1) != some k } }

/-- RESET (R36, R290, R292): the epoch rises; during a failover the rest takes effect after the promotion. -/
def State.cmdReset (s : State) (k : Nat) : State × Byte :=
  let t := s.tenant k
  if 1 ≤ t.st && t.st ≤ 4 then
    let s := (s.raiseEpoch k).dropArms k
    (if t.waitPromotion then s.onTenant k fun t => { t with resetWait := true } else s.beginReset k, 0)
  else (s, 0x11)

/-! LOAD. -/

/-- A station entry bound by LOAD as a write of TENANT and EN would (R341, R207); none where it is refused. -/
def State.bindEntry (s : State) (k e : Nat) : Option State :=
  let key := (F.STN_ENT_CTRL_EN (e / 64) (e % 64)).key
  if s.ebit F.STN_ENT_CTRL_EN e then if s.efld F.STN_ENT_CTRL_TENANT e = k then some s else none
  else
    let w := setBits (setBits (s.word key) 16 10 k) 0 1 1
    if s.enRefused e w then none else some ((s.setWord key w).enableEntry e)

/-- The entries that LOAD names. -/
def loadEntries (a : LoadArgs) : List Nat :=
  ([a.e0, a.e1, a.e2, a.e3].map BitVec.toNat).filter fun e => e != 0xFFFF

/-- All named entries bound, or none. -/
def State.bindAll (s : State) (k : Nat) (es : List Nat) : Option State :=
  es.foldl (fun s e => s.bind fun s => s.bindEntry k e) (some s)

/-- The states in which LOAD is accepted (R75, R288). -/
def Tenant.loadable (t : Tenant) : Bool := t.st ≤ 1 || (t.st == 3 && t.bit F.TEN_CONT_LOST)

/-- Whether a cartridge image lies in the image store and is not too long (R342). -/
def imageFits (base len : Nat) : Bool := len ≤ 16256 * 1024 && base * 65536 + len ≤ 2 ^ 32

/-- The home slot for LOAD: none needed, the `pick`-th free one, or no free one (R75, R279). -/
def State.loadSlot (s : State) (k pick : Nat) : Option (Option Nat) :=
  let t := s.tenant k
  if t.slot < 1152 && !t.bit F.TEN_PLACE_TAKEOVER then some none
  else
    let slots := s.homeSlots k
    (slots[pick % slots.length]?).map some

/-- A LOST tenant's execution cleared with all that waited for it under the old epoch (R288, R290). -/
def Tenant.forget (t : Tenant) : Tenant :=
  { t.clear with
    inputs := [], reports := [], journal := [], replay := [], resumeJ := [], ring := none, bufs := [], routed := []
    afterReset := [] }

/-- LOAD accepted: the epoch rises, the tenant is placed, and its save pages are copied (R75, R290, R341, R357). -/
def State.loadTenant (s : State) (k : Nat) (a : LoadArgs) (slot : Option Nat) : State :=
  let s := s.raiseEpoch k
  let s := if (s.tenant k).st = 3 then (s.discardTenant k).onTenant k Tenant.forget else s
  let s := match slot with
    | some n => s.placeHome k n
    | none => s
  let s := s.onTenant k fun t =>
    let t := ((t.setWord F.TEN_GEOM_TB.key (a.geom &&& BitVec.ofNat 32 (tenantWord F.TEN_GEOM_TB.key).rw)).setWord
      F.TEN_CYC_VIS_CYC.key (a.cyc &&& BitVec.ofNat 32 (tenantWord F.TEN_CYC_VIS_CYC.key).rw)).setWord
      F.TEN_PACE_LEAD.key (a.pace &&& BitVec.ofNat 32 (tenantWord F.TEN_PACE_LEAD.key).rw)
    let t := { t with
      image := ⟨a.imageBase.toNat * 65536, a.imageLen.toNat⟩, core := { t.core with mem := [] }
      compo := { t.compo with writes := [], applied := [] } }
    (t.setFld F.TEN_CONT_STATE 1).setBit F.TEN_CONT_LOST false
  (s.loadSave k).placed k

/-- LOAD (R62, R75, R341, R342). DESIGN CHOICE: the order of the checks after the state's (log entry 46). -/
def State.cmdLoad (s : State) (k : Nat) (a : LoadArgs) (pick : Nat) : State × Byte :=
  let es := loadEntries a
  if !(s.tenant k).loadable then (s, 0x11)
  else if es.any fun e => decide (2048 ≤ e) then (s, 0x12)
  else if !imageFits a.imageBase.toNat a.imageLen.toNat then (s, 0x35)
  else
    match s.bindAll k es with
    | none => (s, 0x34)
    | some s' =>
      match profileFault a.geom a.cyc a.pace (s.tbSet (getBits a.geom 16 2)) with
      | some c => (s, c)
      | none =>
        match s.loadSlot k pick with
        | none => (s, 0x31)
        | some slot => (s'.loadTenant k a slot, 0)

/-! START, HOLD, RESUME, PARK, UNPARK. -/

/-- A timer whose events are counted from tenant cycle 0. -/
def Timer.begin (x : Timer) : Timer := { x with upTo := 0 }

/-- The execution state in which START begins (R91): memory but for save RAM zero, the registers as they stand, the
key changes that are pending, the timers with the counts that they hold. -/
def Core.begin (c : Core) : Core :=
  { Core.reset with
    mem := saveOnly c.mem, regs := c.regs
    snd := { Sound.reset with keyOn := c.snd.keyOn, keyOff := c.snd.keyOff }
    tmr0 := c.tmr0.begin, tmr1 := c.tmr1.begin, tmr2 := c.tmr2.begin, tmr3 := c.tmr3.begin }

/-- A tenant that starts: RUNNING from its first frame (R69, R91). -/
def Tenant.begin (t : Tenant) : Tenant :=
  let c := t.core.begin
  ({ t with
    core := c, record := c, recordValid := true, journal := [], replay := [], ring := none, handed := 0
    rendered := 0, bufs := [], routed := [], audioNext := 0, stop := .none, resumeJ := [], lagWarned := false
    parkedByModule := false, heldByModule := false
    compo := { t.compo with palHave := false, waiting := none } }.setFld F.TEN_BEAM_LINE 0).setFld F.TEN_BEAM_FRAME 0

/-- START (R62, R69, R75). Every region of every station entry is to be sent (table of the tenant reset, step 4). A
tenant that waits for a slot (R428) is answered NO_SLOT (DESIGN CHOICE). -/
def State.cmdStart (s : State) (k at_ : Nat) : State × Byte :=
  let s := s.advance at_
  let t := s.tenant k
  if t.st != 1 then (s, 0x11)
  else
    let w (f : Fld) : Word := t.word f.key
    match profileFault (w F.TEN_GEOM_TB) (w F.TEN_CYC_VIS_CYC) (w F.TEN_PACE_LEAD) (s.tbOf t) with
    | some c => (s, c)
    | none =>
      if !s.tbRunning (t.fld F.TEN_GEOM_TB) then (s, 0x25)
      else if t.unplaced then (s, 0x31)
      else
        let t := (t.begin.bind (s.tbOf t) (s.tick + 100000)).setFld F.TEN_CONT_STATE 2
        let s := s.setTenant k t
        ((s.entriesOf k).foldl State.wantFull s, 0)

/-- HOLD (R73). -/
def State.cmdHold (s : State) (k : Nat) : State × Byte :=
  if (s.tenant k).st = 2 then (s.onTenant k fun t => t.askHold false, 0) else (s, 0x11)

/-- Whether a double trap holds the tenant (R97), also while it executes up to it again. -/
def Tenant.faulted (t : Tenant) : Bool := t.core.cpu.doubleTrap || t.redo

/-- RESUME (R73, R75). -/
def State.cmdResume (s : State) (k at_ : Nat) : State × Byte :=
  let s := s.advance at_
  let t := s.tenant k
  if t.st != 3 then (s, 0x11)
  else if t.bit F.TEN_CONT_LOST then (s, 0x27)
  else if t.faulted then (s, 0x26)
  else (s.resumeTenant k, 0)

/-- PARK (R74). -/
def State.cmdPark (s : State) (k : Nat) : State × Byte :=
  let t := s.tenant k
  if t.st = 2 || t.st = 3 then (s.onTenant k fun t => t.askPark false, 0) else (s, 0x11)

/-- UNPARK (R74, R75). DESIGN CHOICE (log entry 58): a tenant that was LOST or held by a double trap when it was parked is
HELD again and not RUNNING, since only RESET, or LOAD of a LOST one, ends that (R97, R288). -/
def State.cmdUnpark (s : State) (k at_ : Nat) : State × Byte :=
  let s := s.advance at_
  let t := s.tenant k
  if t.st != 4 then (s, 0x11)
  else if t.bit F.TEN_CONT_LOST || t.faulted then (s.onTenant k Tenant.holdParked, 0)
  else (s.unparkTenant k, 0)

/-! MOVE and MAIL. -/

/-- A move to a named slot (R281, R283): when it lies in the sector of the tenant's mirror, or R279 otherwise forbids
it beside that mirror, the mirror moves first. -/
def State.moveTo (s : State) (k n pick : Nat) : State × Byte :=
  if s.homeLegal k n then (s.startMove k n, 0)
  else if !s.homeFree n then (s, 0x32)
  else
    let ms := s.mirrorFor k n
    match ms[pick % ms.length]? with
    | some m => ((s.startMirrorMove k m).startMove k n, 0)
    | none => (s, 0x32)

/-- MOVE (R75, R281, R283): to slot `slot`, or for 0xFFFF to the `pick`-th slot that R279 allows. A tenant that
waits for a slot (R428) is in a failover, which a move cannot join. -/
def State.cmdMove (s : State) (k slot pick : Nat) : State × Byte :=
  let t := s.tenant k
  if t.st = 5 || t.move.isSome || t.unplaced then (s, 0x30)
  else if t.st = 0 || t.bit F.TEN_CONT_LOST then (s, 0x33)
  else if 1152 ≤ slot && slot != 0xFFFF then (s, 0x12)
  else if slot = 0xFFFF then
    let slots := s.homeSlots k
    match slots[pick % slots.length]? with
    | some n => (s.startMove k n, 0)
    | none => (s, 0x31)
  else s.moveTo k slot pick

/-- MAIL (R80, R341): the message waits for the next line that the tenant begins. -/
def State.cmdMail (s : State) (k len : Nat) (data : List Byte) : State × Byte :=
  let t := s.tenant k
  if !(1 ≤ t.st && t.st ≤ 4) then (s, 0x11)
  else if len = 0 || 32 < len || data.length != len then (s, 0x12)
  else (s.onTenant k fun t => t.input (.mail data), 0)

end Sys2Proof.Machine
end

