-- ==== Sys2Proof/Machine/Power.lean ====
section
/-! DEFINITION. Power states, feeds, start-up, clocks, reset scopes and heat (R386 to R407), and the engine start
(R422). What messages waited for is released in Messages.lean. -/

namespace Sys2Proof.Machine

/-! What loses power (R391, R395, R403). -/

/-- The levels of an SFP cage in PRT.STATUS, which the fitted module gives (R418): SFP_PRESENT, SFP_LOS, TX_FAULT. -/
def cageBits (key : Nat) : Word :=
  let a := 4 * key
  if 0x600000 ≤ a && a < 0x700000 && a % 0x10000 = 0xC then 0x16 else 0

/-- The bits of a module word that outlast a START: the RTC and LAN pages, the sleep fields and the bank 0 IRQ fields of
the field pins, PWR.STATUS[9:8] (R397), the feed and PFW levels, which the supplies give, and what the cages show
(R418). -/
def lastingBits (key : Nat) : Word :=
  let a := 4 * key
  if (0x5000 ≤ a && a < 0x6000) || (0x7000 ≤ a && a < 0x8000) then 0xFFFFFFFF
  else if a = 0x100C then 0x338
  else if a = 0x400C then 1
  else if 0x12000 ≤ a && a < 0x16000 && (a % 0x1000 = 0x34 || a % 0x1000 = 0x38) then 0xFFFFFFFF
  else if 0x12100 ≤ a && a < 0x12180 then 0x700000
  else cageBits key

/-- The words of HOST-B's checks, which stay powered in DORMANT, and the link of its port 0 (R351, R417). -/
def wakeBits (key : Nat) : Word :=
  if key = F.GTE_HB_RATE_RATE.key || key = F.GTE_KEY_CTRL_KEY_SET.key || key = F.GTE_CFG_HB_PORT.key then 0xFFFFFFFF
  else if key = F.GTE_STATUS_HB_LINK.key then 8
  else 0

/-- The registers of which only the bits of `keep` stay; all others take their reset values. -/
def keepRegs (keep : Nat → Word) (r : Store Word) : Store Word :=
  r.foldl (fun n e => if keep e.1 = 0 then n
    else Store.set (moduleRst e.1) n e.1 (blend (keep e.1) e.2 (moduleRst e.1))) []

/-- The module without all that START clears (R403). Whether a firmware trial was running is remembered (R383). -/
def State.cleared (s : State) (keep : Nat → Word) : State :=
  let trial := s.fwu.abandoned || s.phase == 6
  let regs := keepRegs keep s.regs
  { s with
    regs := regs, tenants := [], tb := [], hbm := [], gate := Gate.reset, bus := { Bus.reset with before := regs }
    previews := [], secDma := [], cmp := [], push := [], pushNext := 0, entries := [], ports := [], sinks := []
    nvs := { s.nvs with queue := [], waiting := [] }
    panel := { s.panel with snapshot := [], starting := false, ready := false }
    fwu := { Fwu.reset with abandoned := trial }, mt := [], pio := []
    cont := { Cont.reset with fencedStacks := s.cont.fencedStacks }, ecc := [], credits := [], miq := [], lan := []
    scrub := [], accrued := [], ready := [], loads := [] }

/-! Start-up (R395). -/

/-- The epochs of the tenants restored from NVS (R290). -/
def State.restoreEpochs (s : State) : State :=
  (List.range 8).foldl (fun s i =>
    let (s, bs) := s.readPage (36881 + i)
    (List.range 128).foldl (fun s j =>
      let ep := leNat ((bs.drop (2 * j)).take 2)
      if ep = 0 then s else s.setTenant (128 * i + j) (Tenant.reset.setFld F.TEN_CONT_EPOCH ep)) s) s

/-- The HOST-B key and the sequence series reloaded (R349, R350): each series resumes 65,536 above its record. DEDUCED:
no SEQ below that is accepted any more, since any may have been accepted before. -/
def State.loadKey (s : State) : State :=
  let (s, bs) := s.readPage keyPage
  if bs.getD 32 0 = 1 then
    let (s, q) := s.readPage seqPage
    let top : BitVec 64 := leVec 64 (q.take 8) + 65536
    let g := { s.gate with
      key := leVec 256 (bs.take 32), rxTop := top, seqWindow := (List.range 64).map fun i => top - BitVec.ofNat 64 (i + 1)
      txSeq := leVec 64 ((q.drop 8).take 8) + 65536 }
    { s with gate := g }.setBit F.GTE_KEY_CTRL_KEY_SET true
  else s

/-- The clocks lock, the links and ports of the host domain come up, the bank clear starts (R395, step 2). -/
def State.clocksUp (s : State) : State :=
  let s := (List.range 3).foldl (fun s k => s.setFld (F.CLK_LOCK_LOCKED k) 0xFFFFFFFF) s
  let s := (s.setFld F.CLK_LOCK3_LOCKED 0xFFF).setBit F.CLK_STATUS_ALL_LOCKED true
  let s := (s.setFld F.GTE_STATUS_LINK 3).setBit F.GTE_STATUS_PCIE_UP Config.cable
  let s := s.setFld F.GTE_STATUS_HB_LINK ((Config.gigabit 0).toNat + 2 * (Config.gigabit 1).toNat)
  (List.range 72).foldl (fun s e => (s.setBit (F.ENG_STATUS_LOCKED e) true).startClear e) s

/-- Engines whose state is RETIRED (R293, R422). -/
def State.retiredEngines (s : State) : List Nat := (List.range 72).filter fun e => s.estate e == 5

/-- Engines kept RETIRED. -/
def State.keepRetired (s : State) (es : List Nat) : State := es.foldl (fun s e => s.setFld (F.RNG_STATUS_ESTATE e) 5) s

/-- The start-up sequence up to the supervisor's boot (R395, steps 1 to 4). Engines that are RETIRED and stacks that are
fenced stay so unless the module starts from OFF (R266, R293). -/
def State.startUp (s : State) (cause domain : Nat) (fromOff : Bool) : State :=
  let retired := if fromOff then [] else s.retiredEngines
  let fenced := if fromOff then [] else s.cont.fencedStacks
  let s := s.cleared lastingBits
  let s := { s with
    tick := 0, power := { s.power with mode := .start, charged := true, warned := 0, wakeDrive := 0 }
    pins := { s.pins with asleep := if fromOff then 0 else s.pins.asleep, since := [], high := [], was := [], acts := []
                          imem := [] }
    cont := { s.cont with fencedStacks := fenced } }
  let s := (s.setFld F.PWR_STATUS_STATE 1).count F.PWR_STARTS_COUNT
  let s := (s.setFld F.PWR_LAST_START_CAUSE cause).setFld F.PWR_LAST_START_DOMAIN domain
  let s := if fromOff then (s.setBit F.PWR_STATUS_PFW false).setBit F.NVS_STATUS_PFW false else s
  let s := s.clocksUp.keepRetired retired
  let s := (List.range 128).foldl State.seePin s
  let trial := s.fwu.abandoned
  (s.restoreEpochs.loadKey.panelStart).fwStart trial

/-- The module sources that the supervisor may target at itself (R302). -/
def supSources : List Nat := [352, 353, 354, 360, 361, 363]

/-- The MIQ entries and thresholds that the supervisor sets, by the version of its firmware (R302). -/
def State.supEntries (s : State) : State :=
  let v := s.slotVersion s.slots.1
  let s := supSources.foldl (fun s n =>
    if Config.supTarget v n = 0 then s
    else (s.setFld (F.MIQ_SRC_TARGET n) (Config.supTarget v n)).setFld (F.MIQ_SRC_PRIO n) (Config.supPrio v n)) s
  (s.setFld F.MIQ_TH_TH_SUPA (Config.supThreshold v false)).setFld F.MIQ_TH_TH_SUPB (Config.supThreshold v true)

/-- STATE set; the host is told (R405). -/
def State.setPower (s : State) (n : Nat) : State := (s.setFld F.PWR_STATUS_STATE n).tell 0x0603 n

/-- Whether the start-up sequence may complete: the banks are cleared. -/
def State.startDone (s : State) : Bool :=
  s.power.mode == .start && (List.range 72).all fun e => s.bit (F.BNK_STATUS_CLEAR_DONE e)

/-- READY is set (R395, step 5, R383, R421). -/
def State.setReady (s : State) : State :=
  let s := ({ s with power := { s.power with mode := .on } }.supEntries).setBit F.MOD_STATUS_READY true
  let s := s.setPower 2
  if s.fwu.abandoned then { s with fwu := { s.fwu with abandoned := false } }.fwEvent 0x0507 none else s

/-! Feeds (R392 to R394). -/

/-- Whether a feed is present. -/
def State.feed (s : State) (b : Bool) : Bool := s.bit (if b then F.PWR_STATUS_FEED_B else F.PWR_STATUS_FEED_A)

/-- FEED_A or FEED_B set. -/
def State.setFeed (s : State) (b on : Bool) : State := s.setBit (if b then F.PWR_STATUS_FEED_B else F.PWR_STATUS_FEED_A) on

/-- A change of a feed's presence while the module is not OFF (R392). -/
def State.feedChange (s : State) (b on : Bool) : State :=
  let s := (s.setFeed b on).setBit (if b then F.PWR_STATUS_FEED_B_CHG else F.PWR_STATUS_FEED_A_CHG) true
  let s := if on then s else s.count F.PWR_FEED_LOSSES_COUNT
  s.tell (if on then 0x0602 else 0x0601) b.toNat

/-- Whether mains stands at an inlet. -/
def State.inlet (s : State) (b : Bool) : Bool := if b then s.power.inletB else s.power.inletA

/-- Mains at an inlet set. -/
def State.setInlet (s : State) (b on : Bool) : State :=
  { s with power := if b then { s.power with inletB := on } else { s.power with inletA := on } }

/-- A feed that becomes present: it starts a module that is OFF (R387, R392). -/
def State.feedUp (s : State) (b : Bool) : State :=
  if s.feed b then s
  else if s.power.mode = .off then (s.setFeed b true).startUp 0 0 true
  else (s.feedChange b true).settle

/-- A mains feed stops being present (R392). -/
def execFeedLost (b : Bool) (s : State) : Out :=
  let s := s.setInlet b false
  if !s.feed b then .next s
  else if s.power.mode = .off then .next (s.setFeed b false)
  else .next (s.feedChange b false).settle

/-- A mains feed becomes present (R392); while the heat trip holds, its stage stays disconnected (R407). -/
def execFeedRestored (b : Bool) (s : State) : Out :=
  let s := s.setInlet b true
  if s.power.tripped then .next s else .next (s.feedUp b)

/-- LANTERN has recognised a wake source and requests START (R307, R387). Without a feed the module stays DORMANT until
one returns (R394). -/
def State.wakeStart (s : State) : State :=
  if s.power.mode = .dormant && s.recognised != [] && (s.feed false || s.feed true) then s.lanternWake.startUp 1 0 false
  else s

/-- A feed becomes present while the module is OFF, or LANTERN recognises a wake, and the module starts (R387, R395).
The row names no feed; from OFF it is feed A, when none is present. -/
def execPowerOn (s : State) : Out :=
  match s.power.mode with
  | .off =>
    if s.power.tripped then .next s
    else if s.feed false || s.feed true then .next (s.startUp 0 0 true)
    else .next ((s.setInlet false true).feedUp false)
  | .dormant => .next s.wakeStart
  | .start => .next s
  | .on => .next s

/-- LANTERN recognises a wake source and requests START (R307, R387). -/
def execLanternWake (s : State) : Out := .next s.wakeStart

/-- The PSU raises PFW after both feeds are lost (R356): NVS refuses new writes, and an upload is given up (R383). -/
def execPfw (s : State) : Out :=
  if (s.power.mode = .start || s.power.mode = .on) && !s.feed false && !s.feed true && !s.isPfw then
    let s := (s.setBit F.PWR_STATUS_PFW true).setBit F.NVS_STATUS_PFW true
    let s := (s.count F.PWR_PFW_COUNT_COUNT).notify 0x0403 []
    .next s.fwPfw.settle
  else .next s

/-- Whether PFW may clear: a feed is present again (R356, R393). -/
def State.pfwEnds (s : State) : Bool := s.isPfw && (s.feed false || s.feed true)

/-- PFW clears (R360, R370, R393): NVS accepts writes again, and a panel recovery or an update that waited may start. -/
def State.pfwClear (s : State) : State :=
  let s := (s.setBit F.PWR_STATUS_PFW false).setBit F.NVS_STATUS_PFW false
  ((s.nvsAdmit.recoverNext.panelNext).notify 0x0404 []).settle

/-- All queued page writes performed. -/
def State.drainNvs (s : State) : State :=
  (List.range (s.nvs.queue.length + s.nvs.waiting.length)).foldl (fun s _ => s.nvsStep true) s

/-- The supplies fall after both feeds are lost (R356, R393): the queued page writes have completed, the panel has
stopped, and the module is OFF. -/
def execSupplyFall (s : State) : Out :=
  if (s.power.mode = .start || s.power.mode = .on) && !s.feed false && !s.feed true then
    let s := s.panelHalt
    let s := { s with nvs := { s.nvs with waiting := [] } }.drainNvs
    .next { s.cleared lastingBits with power := { s.power with mode := .off }, pins := { s.pins with asleep := 0 } }
  else .next s

/-- The supercapacitor runs out while no feed is present (R387, R392, R367): the always-on registers are lost. -/
def execAlwaysOnLoss (s : State) : Out :=
  if (s.power.mode = .off || s.power.mode = .dormant) && !s.feed false && !s.feed true then
    let s := s.cleared cageBits
    .next { s with power := { s.power with mode := .off, charged := false, wakeDrive := 0 }
                   pins := { s.pins with asleep := 0 }, rtc := Rtc.reset }
  else .next s

/-! Power commands (R388 to R391). -/

/-- A PWR.CMD refused (R390). -/
def State.pwrRefuse (s : State) (code : Nat) : State :=
  ((s.setFld F.PWR_REFUSE_CODE code).raiseNow F.PWR_REFUSE_REFUSED).tell 0x0604 code

/-- Whether a move or a failover is in progress. -/
def State.moving (s : State) : Bool := s.tenants.any fun (_, t) => t.move.isSome || t.waitPromotion

/-- The first refusal of a PWR.CMD (R390), if any. -/
def State.pwrFault (s : State) (op : Nat) : Option Nat :=
  let st := s.fld F.PWR_STATUS_STATE
  let legal := (op == 1 && st == 2) || (op == 2 && st == 4) || (op == 3 && (st == 2 || st == 4))
  if !legal then some 1
  else if op = 3 && !(s.bit ⟨0x7008 / 4, 0, 1⟩ && (List.range 32).any s.selActs) then some 2
  else if op = 3 && (s.moving || s.tenants.any fun (_, t) => t.st == 2 || t.st == 5) then some 3
  else if op = 3 && s.phase != 0 then some 4
  else if s.isPfw then some 5
  else none

/-- PARK (R388): every RUNNING tenant is to be parked by the module. -/
def State.parkAll (s : State) : State :=
  { s with tenants := s.tenants.map fun (k, t) => (k, if Tenant.st t = 2 then Tenant.askPark t true else t) }.setPower 3

/-- RUN (R389): every engine wakes, which takes 200 µs, and the tenants parked by the module are unparked. -/
def State.runAll (s : State) : State :=
  let s := (List.range 72).foldl State.wakeEngine (s.setPower 5)
  let ks := (s.tenants.filter fun (_, t) => t.st == 4 && t.parkedByModule).map fun (k, _) => k
  let s := ks.foldl (fun s k => s.continueTenant k (s.tick + 20000 + 100000) .unpark) s
  s.setPower 2

/-- SLEEP of a pin (R330). -/
def State.sleepOf (s : State) (n : Nat) : Nat :=
  s.fld ⟨(0x12034 + 0x1000 * (n / 32) + 4 * (n % 32 / 16)) / 4, 2 * (n % 16), 2⟩

/-- The level to which a pin is driven in DORMANT, if it is (R330). -/
def State.sleepDriveOf (s : State) (n : Nat) : Option Bool :=
  match s.sleepOf n with
  | 1 => some false
  | 2 => some true
  | 3 => s.pinDrive n
  | _ => none

/-- The bits of the pins that satisfy `f`. -/
def pinBits (f : Nat → Bool) : BitVec 128 := (List.range 128).foldl (fun v n => if f n then v ||| (1 <<< n) else v) 0

/-- The pins in their sleep states (R330): hold keeps level, direction and pull, float has no pull. -/
def State.pinsAsleep (s : State) : State :=
  let pull (v : Bool) (n : Nat) : Bool := s.sleepOf n == 3 && s.pinPull n == some v
  { s with pins := { s.pins with
    asleep := 0xF, sleepDrive := pinBits fun n => (s.sleepDriveOf n).isSome
    sleepLevel := pinBits fun n => s.sleepDriveOf n == some true
    sleepUp := pinBits (pull true), sleepDown := pinBits (pull false) } }

/-- A running panel update, a starting one, or a recovery, completed before DORMANT (R370, R391). -/
def State.panelQuiet (s : State) : State :=
  let s := s.setBit F.PNL_STATUS_PENDING false
  if s.bit F.PNL_STATUS_RECOVERING then s.panelRecover
  else if s.bit F.PNL_STATUS_BUSY then s.panelDone
  else if s.panel.starting then s.askRecord false
  else s

/-- DORMANT (R391, R306): the tenants are EMPTY, NVS and the panel have finished, the pins sleep, the supplies fall; a
selected source that is pending as it begins is recognised at once (R307). A RETIRED engine stays so (R422). -/
def State.sleep (s : State) : State :=
  let s := ((s.setPower 6).panelQuiet.drainNvs).pinsAsleep
  let g := s.gate
  let before := (List.range 32).filter s.selLevel
  let retired := s.retiredEngines
  let s := s.cleared fun key => lastingBits key ||| wakeBits key
  let s := { s with
    gate := { Gate.reset with key := g.key, rxTop := g.rxTop, seqWindow := g.seqWindow, txSeq := g.txSeq }
    power := { s.power with mode := .dormant } }.keepRetired retired
  let hits := (List.range 32).filter fun i => before.contains i || s.selLevel i
  { s with lan := hits.foldl (fun l i => Store.set 0 l i 3) [] }.lanternRecord hits

/-- A write to PWR.CMD (R387 to R391). -/
def State.pwrCmd (s : State) (op : Nat) : State :=
  match s.pwrFault op with
  | some c => s.pwrRefuse c
  | none => if op = 1 then s.parkAll else if op = 2 then s.runAll else s.sleep

/-- Once no tenant is RUNNING or RESETTING and no move or failover is in progress, every engine enters retention (R386,
R388). -/
def execParkComplete (s : State) : Out :=
  if s.fld F.PWR_STATUS_STATE = 3 && !s.moving && s.tenants.all fun (_, t) => t.st != 2 && t.st != 5 then
    let s := (List.range 72).foldl (fun s e => if s.estate e = 0 then s.retain e else s) s
    .next ((s.setPower 4).settle)
  else .next s

/-! Clocks and reset scopes (R399, R403, R404). -/

/-- A port taken out of service by its reset bit, or returned with its credits granted from zero (R402, R404). -/
def State.portResets (s : State) (old new : Word) : State :=
  (List.finRange 16).foldl (fun s (p : PortNo) =>
    if new.getLsbD p && !old.getLsbD p then
      let s := ((s.linkLost p).portLost p).zeroCredits (portPaths p)
      s.setPort p { s.port p with inbox := [] }
    else if old.getLsbD p && !new.getLsbD p then s.grantCredits (portPaths p)
    else s) s

/-- Whether an engine is FENCED, RETIRED or OFF, so that the supervisor may set its reset bit, or that of its sector
(R404). DESIGN CHOICE: for its own bit too. -/
def State.engIdle (s : State) (e : Nat) : Bool := s.estate e == 1 || s.estate e == 5 || s.estate e == 7

/-- The sector scope asserted (R403): its units and their registers, its rings and its credits are cleared. Its engines
hold no tenant. -/
def State.resetSector (s : State) (c : Sec) : State :=
  let unit (key : Nat) : Bool :=
    decide (0x40000 + 0x20000 * c.val + 0x1000 ≤ 4 * key) && decide (4 * key < 0x40000 + 0x20000 * c.val + 0x7000)
  { s with
    regs := s.regs.filter fun e => !unit e.1, secDma := Store.erase s.secDma c, cmp := Store.erase s.cmp c
    push := s.push.filter fun i => i.sec != c.val }.zeroCredits (s.sectorPaths c)

/-- CLK.RST_SEC as the supervisor sets it (R404): a bit applies only while no engine of the sector is in use. A scope that
is left has its credits granted from zero (R402). -/
def State.supRstSec (s : State) (v : Word) : State :=
  (List.finRange 8).foldl (fun s (c : Sec) =>
    let f : Fld := ⟨F.CLK_RST_SEC_SEC.key, c, 1⟩
    if v.getLsbD c && !s.bit f then
      if (List.range 9).all fun i => s.engIdle (9 * c.val + i) then (s.setBit f true).resetSector c else s
    else if !v.getLsbD c && s.bit f then (s.setBit f false).grantCredits (s.sectorPaths c)
    else s) s

/-- Word `i` of CLK.RST_ENG as the supervisor sets it (R404). The credits of an engine come back with its service. -/
def State.supRstEng (s : State) (i : Nat) (v : Word) : State :=
  (List.finRange 72).foldl (fun s (e : Eng) =>
    if e.val / 32 != i then s
    else if v.getLsbD (e.val % 32) then
      if s.engIdle e then (s.setRstEng e true).zeroCredits (s.allEngPaths e) else s
    else s.setRstEng e false) s

/-- A word of the CLK page as the supervisor sets it in its reset bits (R404). -/
def State.supReset (s : State) (off : Nat) (v : Word) : State :=
  if 0x30 ≤ off && off < 0x3C then s.supRstEng ((off - 0x30) / 4) v
  else if off = 0x3C then s.supRstSec v
  else if off = 0x44 then s.setFld F.CLK_RST_SUP_SUP v.toNat
  else s

/-- A clock domain loses lock (R399). -/
def execClockFault (d : Fin 108) (s : State) : Out :=
  if s.power.mode != .start && s.power.mode != .on then .next s
  else if d.val = 80 || 98 ≤ d.val then .next ((s.tell 0x0605 d).startUp 2 d false)
  else
    let s := ((s.setLock d false).count F.CLK_LOCK_LOSSES_COUNT).tell 0x0605 d
    if h : d.val < 72 then .next ((s.setBit (F.ENG_STATUS_LOCKED d) false).internalError ⟨d, h⟩).settle
    else if d.val < 80 then
      .next ((List.finRange 72).foldl (fun s e => if e.val / 9 = d.val - 72 then s.internalError e else s) s).settle
    else if d.val = 81 then .next (s.failStack 1).settle
    else .next (s.linkLost (d - 82)).settle

/-- PERST# resets the PCIe scope (R403, R416): the BAR4 registers return to their reset values, and both rings are empty;
what the field side keeps for HOST-A stays. -/
def execPcieReset (s : State) : Out := .next { s with gate := { s.gate with bar4 := [], cq := [] } }

/-! Heat (R407). -/

/-- The baseplate reaches 78 °C, for the first time or after it has cooled below, or a further 2 °C: a LOG of severity
warning. -/
def execTemperatureWarning (deg : Nat) (s : State) : Out :=
  if s.power.mode = .on && (deg = 78 || (78 ≤ s.power.warned && deg = s.power.warned + 2)) then
    .next ({ s with power := { s.power with warned := deg } }.toHosts
      (.log Config.warnSeverity (BitVec.ofNat 64 s.tick) deg))
  else .next s

/-- The baseplate reaches 85 °C: both stages are disconnected. -/
def execTemperatureTrip (s : State) : Out :=
  if s.power.tripped then .next s
  else
    let s := { s with power := { s.power with tripped := true } }
    let drop (s : State) (b : Bool) : State :=
      if !s.feed b then s else if s.power.mode = .off then s.setFeed b false else s.feedChange b false
    .next (drop (drop s false) true).settle

/-- The baseplate has cooled below 70 °C: each feed whose inlet has mains is reconnected. Two that start a module which
is OFF do so together, without a change (R392). -/
def execTemperatureRecover (s : State) : Out :=
  if s.power.tripped then
    let off := s.power.mode == .off
    let s := { s with power := { s.power with tripped := false } }
    let first := s.inlet false
    let s := if first then s.feedUp false else s
    .next (if !s.inlet true || s.feed true then s
      else if off && first then s.setFeed true true else s.feedUp true)
  else .next s

/-! Outputs of the power states at the connectors (R416 to R418). -/

/-- CPRSNT# of J3: driven low while the host domain is powered (R416). -/
def State.cprsnt (s : State) : Bool := !(s.power.mode == .start || s.power.mode == .on)

/-- The green LED of HOST-B jack `j`: lit while the port has a link (R417). -/
def State.jackLed (s : State) (j : Nat) : Bool := (s.fld F.GTE_STATUS_HB_LINK).testBit j

/-- RS0 and RS1 of the cages: driven high, full rate (R418). -/
def cageRate : Bool := true

/-! The engine start (R422). -/

/-- MOD.CTRL.EN. -/
def F.MOD_EN : Fld := ⟨0x8 / 4, 0, 1⟩

/-- MOD.CTRL.EN changes from 0 to 1: the engine start runs on the engines that are OFF. At a later change, the self-test
and the clear of each of them come first (R293). -/
def State.modEnabled (s : State) : State :=
  let es := (List.range 72).filter fun e => s.estate e == 7
  let again := s.cont.startedOnce
  let s := { s with cont := { s.cont with starting := true, startSet := es, startedOnce := true } }
  if again then es.foldl (fun s e => (s.setRstEng e false).setEState e 3) s else s

/-- MOD.CTRL.EN cleared while every tenant is EMPTY: an engine start in progress is given up, and every engine in
service or in retention is OFF. -/
def State.modDisabled (s : State) : State :=
  let mid := if s.cont.starting then s.cont.startSet.filter fun e => s.estate e != 5 else []
  let s := { s with cont := { s.cont with starting := false, startSet := [] } }.setBit F.MOD_STATUS_ENGINES_UP false
  (List.range 72).foldl (fun s e =>
    if s.estate e = 0 || s.estate e = 6 || mid.contains e then
      ((s.setEState e 7).setBit (F.BNK_STATUS_RETAINED e) false).setRstEng e true
    else s) s

/-- Whether the engine start may complete: no engine of it still tests or clears. -/
def State.enginesReady (s : State) : Bool :=
  s.cont.starting && s.bit F.MOD_STATUS_READY && s.cont.startSet.all fun e => s.estate e != 2 && s.estate e != 3

/-- ENGINES_UP (R422): the engines of the start that have passed their test enter service with their credits granted,
and so do the fabric rings that are off. -/
def State.enginesUp (s : State) : State :=
  let s := (List.finRange 72).foldl (fun s e =>
    if s.cont.startSet.contains e.val && (s.estate e = 7 || s.estate e = 4) then
      ((s.grantCredits (s.allEngPaths e)).setRstEng e false).setEState e 0
    else s) s
  let s := (List.finRange 8).foldl (fun s c => [false, true].foldl (fun s b =>
    if s.ringState c b = 3 then (s.grantCredits (ringPaths c b)).setRing c b 0 else s) s) s
  let s := s.setFld F.CLK_RST_SEC_SEC 0
  { s with cont := { s.cont with starting := false, startSet := [] } }.setBit F.MOD_STATUS_ENGINES_UP true

end Sys2Proof.Machine
end

