-- ==== Sys2Proof/Machine/PageView.lean ====
section
/-! DEFINITION. What a page-bus read finds in a register (R29 to R33, R426, R427): the stored word with what other state
gives it, before the access codes of R5 apply. -/

namespace Sys2Proof.Machine

/-- A word whose bit `i` is `f i`. -/
def wordOfBits (n : Nat) (f : Nat → Bool) : Word :=
  BitVec.ofNat 32 ((List.range n).foldl (fun w i => if f i then w + 2 ^ i else w) 0)

/-! The module pages. -/

/-- MOD.CONT_STATUS (R294): the running tenants without a warm mirror and those on takeover contexts are counted. -/
def State.contStatus (s : State) (w : Word) : Word :=
  let un := (s.tenants.filter fun (_, t) => t.st == 2 && t.fld F.TEN_MIRROR_MSTATE != 2).length
  let on_ := (s.tenants.filter fun (_, t) => t.bit F.TEN_PLACE_TAKEOVER).length
  setBits (setBits w 0 11 un) 12 9 on_

/-- The greatest input power of a power state (R410); the table gives none for START. -/
def State.wattsMax (s : State) : Nat :=
  match s.power.mode with
  | .off => 0
  | .start => 1023
  | .dormant => 4
  | .on => if s.fld F.PWR_STATUS_STATE = 4 then 33 else if s.tenants.all fun (_, t) => t.st == 0 then 80 else 210

/-- The input power of a feed in W: with both feeds present each stage carries 45 to 55 % of the load, else one all of it
(R409, R410). -/
def State.feedWatts (s : State) (b : Bool) : Nat :=
  let all := min (Config.inputWatts s.tick) s.wattsMax
  let a := all * (45 + Config.feedShare s.tick % 11) / 100
  if !s.feed b then 0 else if !s.feed (!b) then all else if b then all - a else a

/-- Inlet voltage and input power of a feed (R392): a feed that is present has 85 to 265 V. -/
def State.feedWord (s : State) (b : Bool) : Word :=
  let v := Config.feedVolts b s.tick
  at32 0 (if s.feed b then 85 + v % 181 else v % 1024) ||| at32 16 (s.feedWatts b)

/-- STATUS of a module timer: channels with a pending interrupt, and a pending update (R319). -/
def State.mtStatus (s : State) (i : Nat) : Word :=
  let m := s.mtm i
  let pend := wordOfBits 8 fun j =>
    getBits (s.word (F.MTM_FLAGS_CAP i j).key) 0 3 &&& s.fld (F.MTM_CH_CTRL_IE i j) != 0
  let upd := m.period.isSome || (List.range 8).any fun j => (m.chan j).duty.isSome || (m.chan j).phase.isSome
  pend ||| at32 8 upd.toNat

/-- FSTAT of a PIO channel (R335). -/
def State.pioFstat (s : State) (i j : Nat) : Word :=
  let c := s.pioCh i j
  at32 0 c.tx.length ||| at32 4 c.rx.length

/-- Whether the push path has anything in hand (R205). -/
def State.pushBusy (s : State) : Bool :=
  s.push != [] || (List.range 16).any fun p => (s.port p).audio != [] || (s.port p).queue != []

/-- MIN_SLACK in microseconds (R204). -/
def State.minSlack (s : State) : Word :=
  match s.portSlack with
  | some v => BitVec.ofNat 32 (min 0xFFFFFE (v / 100))
  | none => 0xFFFFFF

/-- The trails launched and not yet ended in a sector (R243). -/
def State.sectorTrails (s : State) (sec : Nat) : Nat :=
  (s.tenants.filter fun (_, t) => t.core.trail.isSome && t.slot / 144 == sec).length

/-- The finished lines of a sector that wait to be composed (R163), as (tenant, line). -/
def State.sectorLines (s : State) (sec : Nat) : List (Nat × Nat) :=
  s.tenants.flatMap fun (k, t) =>
    if t.slot / 144 = sec then (t.bufs.filter fun b => decide (b.line < t.handed)).map fun b => (k, b.line) else []

/-- STATUS of a compositor (R177): no line is in hand between its steps. -/
def State.cmpStatus (s : State) (sec : Nat) : Word :=
  let held := (s.sectorLines sec).any fun (k, l) => s.bandHeld k l
  let full := if h : sec < 8 then (s.credit (.pushItem ⟨sec, h⟩)).held == 0 && s.push.any fun i => i.sec == sec else false
  at32 0 1 ||| at32 1 held.toNat ||| at32 2 full.toNat

/-! Engine pages. -/

/-- The tenant that has context `x` of engine `e`. -/
def State.ctxTenant (s : State) (e x : Nat) : Option Nat :=
  s.tenants.findSome? fun (k, t) =>
    if Tenant.engine t = some e && Tenant.ctx t = x && !t.waitPromotion then some k else none

/-- CTX of an engine (R25). -/
def State.ctxWord (s : State) (e x : Nat) : Word :=
  match s.ctxTenant e x with
  | some k => at32 0 k ||| at32 10 1 ||| at32 12 (s.waitingOn k)
  | none => at32 12 7

/-- LOAD of an engine (R25): a unit that had no work was busy for none of the time. An instruction of `k` cycles takes at
least `k` of the 16 issue slots per tick (R76, R77); how many more, and how long a line or a sample takes, is a free
value. -/
def State.loadWord (s : State) (e : Nat) : Word :=
  let w := s.lastWork e
  let free (i : Nat) : Nat := Config.engLoad e (s.tbRunning 0) s.loadNo i
  let least := min 100 (100 * w.slots / (16 * s.loadTicks))
  at32 0 (if w.lines = 0 then 0 else free 0 % 101)
    ||| at32 8 (if w.samples = 0 then 0 else free 1 % 101)
    ||| at32 16 (if w.slots = 0 then 0 else least + free 2 % (101 - least))

/-- Whether a register is a counter of what arbitration, caches and line codes do in wall time: ENG.CACHE_MISSES, the
conflict counters of BNK, the corrections of a port's code, and the corrections of critical HBM reads that no command of
the model makes, such as cartridge cache fills, and the HBM reads that fail, of which no effect is stated but for sector
DMA and the compositor (R265). -/
def Page.wallCounter (p : Page) (off : Nat) : Bool :=
  match p.blk with
  | .mod => off == 0xF08 || off == 0xF10
  | .eng => off == 0xF10
  | .bnk => decide (0xF10 ≤ off) && decide (off < 0xF2C)
  | .prt => off == 0xF24 || off == 0xF28
  | _ => false

/-- Whether such a counter can have counted since it was last brought up: HBM corrects while both stacks are in service
(R266), and a cache line is filled for an engine that works. -/
def State.mayCount (s : State) (p : Page) (off : Nat) : Bool :=
  match p.blk with
  | .mod => off != 0xF08 || s.cont.fencedStacks == []
  | .eng =>
    let x := Store.get EngLoad.reset s.loads p.inst
    x != EngLoad.reset && decide (Store.get 0 s.accrued ((p.base + off) / 4) ≤ x.tick)
  | _ => true

/-- A counter of what happens in wall time brought up to the current tick before it is read (R7, R257): the spec does
not say how often it counts, so what it has counted since is a free value. -/
def State.accrue (s : State) (p : Page) (a : Nat) : State :=
  if p.wallCounter (a - p.base) && s.mayCount p (a - p.base) then s.grow (a / 4) else s

/-- GRAFT_LEFT (R260): eight spares of 0 to 8 in four bits each, fixed for each unit. -/
def graftWord (key : Nat) : Word :=
  BitVec.ofNat 32 ((List.range 8).foldl (fun n i =>
    n + min 8 (getBits (Config.factoryWord key) (4 * i) 4) * 16 ^ i) 0)

/-- STATUS of an engine's RNG page: the slots in use. -/
def State.rngStatus (s : State) (e : Nat) (w : Word) : Word :=
  let n (m : Nat) (f : Nat → Fld) : Nat := ((List.range m).filter fun i => s.bit (f i)).length
  setBits (setBits (setBits w 8 5 (n 16 (F.RNG_HOME_OCC e))) 16 5 (n 16 (F.RNG_MIRROR_OCC e))) 24 3
    (n 4 (F.RNG_TAKEOVER_BUSY e))

/-! A word of a page outside the tenants. -/

/-- The word at offset `off` of a module, sector, engine or port page: `w` is the word as stored. -/
def State.derived (s : State) (p : Page) (off : Nat) (w : Word) : Word :=
  match p.blk with
  | .mod => if off = 0x68 then s.contStatus w else w
  | .pwr => if off = 0x28 then s.feedWord false else if off = 0x2C then s.feedWord true else w
  | .gte =>
    if off = 0xC4 then s.gate.rxTop.extractLsb' 0 32
    else if off = 0xC8 then s.gate.rxTop.extractLsb' 32 32 else w
  | .fwu =>
    if off = 0x30 then BitVec.ofNat 32 (s.slotVersion s.slots.1)
    else if off = 0x34 then BitVec.ofNat 32 (s.slotVersion s.slots.2.1)
    else if 0x40 ≤ off && off < 0x4C then Config.factoryWord ((p.base + off) / 4) else w
  | .lan => if 0x20 ≤ off && off < 0xA0 then setBits w 14 1 (wakeCapable (getBits w 0 9)).toNat else w
  | .miq =>
    if 0x20 ≤ off && off < 0x60 then wordOfBits 32 fun i => s.srcLevel (8 * (off - 0x20) + i)
    else if 0x100 ≤ off && off < 0x900 then setBits w 31 1 (s.srcLevel ((off - 0x100) / 4)).toNat else w
  | .mtm =>
    if off = 0x0C then s.mtStatus p.inst
    else if off = 0x2C then (s.mtm p.inst).count.extractLsb' 0 32
    else if off = 0x30 then ((s.mtm p.inst).count.extractLsb' 32 16).setWidth 32 else w
  | .fio =>
    let n (i : Nat) : Nat := 32 * p.inst + i
    if off = 0x0C then
      at32 0 ((List.range 32).any fun i => s.pinConflict (n i)).toNat
        ||| at32 1 ((List.range 32).any fun i => decide (12 ≤ s.pinFld F.FIO_PINCFG_FUNC (n i))).toNat
    else if off = 0x28 then
      let was := { s with regs := s.bus.before }
      wordOfBits 32 fun i => was.pinLevel (n i)
    else if off = 0x30 then wordOfBits 32 fun i => s.pinConflict (n i) else w
  | .pio =>
    if off = 0x0C || off = 0x2C then if s.bit (F.PIO_EN p.inst) then w else 0
    else if 0x900 ≤ off && off < 0xF00 && (off - 0x900) % 0x30 = 0x10 then s.pioFstat p.inst ((off - 0x900) / 0x30)
    else w
  | .tbs =>
    if 0x20 ≤ off && off < 0xA0 && off % 0x20 = 0x18 then s.tbStat ((off - 0x20) / 0x20)
    else if 0x20 ≤ off && off < 0xA0 && off % 0x20 = 0x1C then s.tbFrameNo ((off - 0x20) / 0x20) else w
  | .psh =>
    if off = 0x0C then setBits w 0 1 s.pushBusy.toNat
    else if off = 0x2C then s.minSlack else w
  | .ptp =>
    if off = 0x24 then BitVec.ofNat 32 s.tick
    else if off = 0x28 then BitVec.ofNat 32 (s.tick / 2 ^ 32) else w
  | .sblt => if off = 0x20 then BitVec.ofNat 32 (s.sectorTrails p.inst) else w
  | .cmp =>
    if off = 0x0C then s.cmpStatus p.inst
    else if off = 0x20 then BitVec.ofNat 32 (s.sectorLines p.inst).length else w
  | .eng =>
    if off = 0x0C then setBits w 8 5 (Store.get 0 s.ready p.inst)
    else if 0x20 ≤ off && off < 0x70 then s.ctxWord p.inst ((off - 0x20) / 4)
    else if off = 0x70 then s.loadWord p.inst else w
  | .bnk =>
    if off = 0x24 || off = 0x28 then graftWord ((p.base + off) / 4)
    else if off = 0x0C then
      setBits w 0 1 (s.scrubNext p.inst != 0 && s.bit (F.BNK_SCRUB_CTRL_SCRUB_EN p.inst) && s.estate p.inst == 0).toNat
    else w
  | .rng => if off = 0x0C then s.rngStatus p.inst w else w
  | .prt =>
    if off = 0x24 || off = 0x28 then Config.factoryWord ((p.base + off) / 4) else w
  | _ => w

/-! The tenant pages. -/

/-- The bits of a page-bus write to a word of the tenant's execution that enter the tenant: the fields that accept
writes, but for OWNER, which the page bus keeps (R5, R35). -/
def enterMask (key : Nat) : Word :=
  let d := tenantWord key
  BitVec.ofNat 32 (d.rw ||| d.wo ||| d.w1c) &&& (if key % 0x400 = 2 then ~~~0x30 else 0xFFFFFFFF)

/-- The writes to word `key` that wait for their tenant-time point, in their order, as (mask, data): those that a
promotion replays, those that wait for a line, those that wait for a reset (R36, R427). -/
def Tenant.waitingWrites (t : Tenant) (key : Nat) : List (Word × Word) :=
  let pick (i : Input) : Option (Word × Word) := match i with
    | .write k m d => if k = key then some (m, d) else none
    | _ => none
  (t.replay.filterMap fun j => pick j.input) ++ t.inputs.filterMap pick
    ++ t.afterReset.filterMap fun w => if w.1 = key then some (w.2.1, w.2.2) else none

/-- Whether the line begun last is completed: its cycles have passed with all that happens in them. -/
def Tenant.lineDone (g : Geo) (t : Tenant) : Bool :=
  let e := t.core.begun * g.cpl
  let t := t.prepTo g e e
  decide (e ≤ t.core.now) && allEvents.all fun x => match t.due g x with
    | some c => decide (e ≤ c)
    | none => true

/-- The tenant with what its instructions have done up to its last completed line end, and the position of that end
(R157). -/
def Tenant.lineEnd (g : Geo) (t : Tenant) : Tenant × Nat :=
  if t.lineDone g then (t.prepTo g (t.core.begun * g.cpl) 0, posOf t.core.begun 0) else (t, posOf (t.core.begun - 1) 0)

/-- A word of a tenant's pages as a module-view read returns it (R157, R316, R427): with OWNER, which the page bus keeps,
and overlaid by the writes that wait. -/
def Tenant.hostWord (g : Geo) (t : Tenant) (key : Nat) : Word :=
  let (x, pos) := t.lineEnd g
  let w := x.viewWord g key pos true
  let rw := BitVec.ofNat 32 (tenantWord key).rw
  let w := (t.waitingWrites key).foldl (fun w e => blend (e.1 &&& rw) e.2 w) w
  if key % 0x400 = 2 then setBits w 4 2 (t.owner (key / 0x400)) else w

/-! Reading. -/

/-- PAGE_ID of a page. -/
def Page.id (p : Page) : Word := BitVec.ofNat 32 (p.blk.code + 256 * p.inst)

/-- A word as the state holds it, before the access codes; TEN.LAG and MAX_LAG are those of the current tick (R72). -/
def State.pageWord (s : State) (p : Page) (a : Nat) : Word :=
  match tenantOf a with
  | some (k, off) => ((s.updateLag k).tenant k).hostWord (s.geo k) (off / 4)
  | none => s.derived p (a - p.base) (s.word (a / 4))

/-- What a read of a register returns to a master, by R5: write-only and reserved bits read 0. -/
def State.pageRead (s : State) (p : Page) (m : Master) (a : Nat) : Word :=
  let off := a - p.base
  if off = 0 then p.id
  else if off = 4 then 0x100
  else if off = 0x10 then at32 16 (s.bus.arms.contains (m, p.base)).toNat
  else
    let d := moduleWord a
    s.pageWord p a &&& BitVec.ofNat 32 (d.rw ||| d.ro ||| d.w1c ||| d.rc)

/-- Whether a page has a register at an offset (R29, R31). -/
def Page.hasReg (p : Page) (off : Nat) : Bool := off ≤ 0x10 || (p.blk.word p.inst off).bits != 0

end Sys2Proof.Machine
end

