-- ==== Sys2Proof/Machine/PageBus.lean ====
section
/-! DEFINITION. The page bus (R29 to R49): gate cycles, owners, arms of expert control, conflicts, writes and reads. -/

namespace Sys2Proof.Machine

/-- The address of register `off` of the page that holds an address. -/
def onPage (a : Word) (off : Nat) : Nat := a.toNat / 0x1000 * 0x1000 + off

/-- The address of ENT_CTRL of a station entry (R52). -/
def entCtrl (e : Ent) : Nat := 0x20100 + 0x1000 * (e / 64) + 56 * (e % 64)

/-! Gate cycles (R40, R45, R47 to R49). -/

/-- A page-bus access in gate cycle `gc`: a later cycle than the last access's begins afresh. -/
def State.busEnter (s : State) (gc : Nat) : State :=
  if s.bus.cycle < gc then { s with bus := { s.bus with cycle := gc } }.settle else s

/-- The next gate cycle. -/
def State.busNext (s : State) : State := s.busEnter (s.bus.cycle + 1)

/-! Owners (R41 to R46). -/

/-- OWNER of a page as it stands. -/
def State.ownerNow (s : State) (p : Page) : Nat :=
  match tenantOf p.base with
  | some (k, off) => (s.tenant k).owner (off / 0x1000)
  | none => getBits (s.word ((p.base + 8) / 4)) 4 2

/-- OWNER of a page in this gate cycle: a change applies from the next one (R45). Fixed pages are SUP's (R44). -/
def State.ownerOf (s : State) (p : Page) : Nat :=
  if p.blk.fixed then 0
  else
    match s.bus.owners.find? fun o => o.1 == p.base with
    | some o => o.2
    | none => s.ownerNow p

/-- Whether an OWNER value accepts the writes of a master (R41). -/
def ownerAccepts (o : Nat) : Master → Bool
  | .sup => o == 0
  | .hostA => o == 1 || o == 3
  | .hostB => o == 2 || o == 3

/-- The RC counter of a tenant page at an address is about to be counted by an access of this gate cycle (R7). -/
def State.noteCount (s : State) (a : Nat) : State :=
  match tenantOf a with
  | some (k, off) =>
    { s with bus := { s.bus with counts := s.bus.counts ++ [(a / 4, (s.tenant k).word (off / 4) != 0xFFFFFFFF)] } }
  | none => s

/-- An RC counter of a page one higher by an access of this gate cycle, which a read in the cycle does not return (R7). -/
def State.pageCount (s : State) (a : Nat) : State :=
  match tenantOf a with
  | some (k, off) => (s.noteCount a).onTenant k fun t => t.count ⟨off / 4, 0, 32⟩
  | none => s.countNow ⟨a / 4, 0, 32⟩

/-- WR_REJECT of a page (R42). -/
def State.wrReject (s : State) (p : Page) : State := s.pageCount (p.base + 0xF00)

/-- VOID_ACCESS of a page, or of MOD for a reserved page (R31). -/
def State.voidAccess (s : State) (p : Option Page) : State :=
  match p with
  | some p => s.pageCount (p.base + 0xF04)
  | none => s.pageCount 0xF04

/-! Writes to pages outside the tenants. -/

/-- A write to a word of which only RW and W1C fields take part (R5). A W1C bit that the hardware has set in this gate
cycle stays set (R6). -/
def State.plainWrite (s : State) (a : Nat) (m data : Word) : State :=
  let d := moduleWord a
  s.setWord (a / 4) (blend (m &&& BitVec.ofNat 32 d.rw) data (s.word (a / 4))
    &&& ~~~(m &&& data &&& BitVec.ofNat 32 d.w1c &&& s.wordBefore (a / 4)))

/-- CTRL of MOD (R422): clearing EN while a tenant is not EMPTY is rejected. -/
def State.modCtrl (s : State) (p : Page) (m data : Word) : State :=
  let old := s.bit F.MOD_EN
  let s := s.plainWrite (p.base + 8) (m &&& ~~~1) data
  if !m.getLsbD 0 || data.getLsbD 0 = old then s
  else if data.getLsbD 0 then (s.setBit F.MOD_EN true).modEnabled
  else if s.tenants.any fun (_, t) => t.st != 0 then s.wrReject p
  else (s.setBit F.MOD_EN false).modDisabled

/-- CTRL of TBS (R58): clearing EN while a timebase is locked is rejected. -/
def State.tbsCtrl (s : State) (p : Page) (m data : Word) : State :=
  if s.bit ⟨0x1A008 / 4, 0, 1⟩ && m.getLsbD 0 && !data.getLsbD 0 && s.anyLocked
  then (s.plainWrite (p.base + 8) (m &&& ~~~1) data).wrReject p
  else s.plainWrite (p.base + 8) m data

/-- CTRL of a module timer (R317). -/
def State.mtmCtrl (s : State) (p : Page) (m data : Word) : State :=
  let s := (s.syncMt p.inst).plainWrite (p.base + 8) m data
  if m.getLsbD 6 && data.getLsbD 6 then s.mtRestart p.inst else s

/-- CTRL of a pin bank (R327, R330): once EN has been 1 its pins have left their sleep states. -/
def State.fioCtrl (s : State) (p : Page) (m data : Word) : State :=
  let woken := s.bit (F.FIO_EN p.inst)
  let s' := s.plainWrite (p.base + 8) m data
  let s' := if woken then { s' with pins := { s'.pins with asleep := s'.pins.asleep &&& ~~~((1 : BitVec 4) <<< p.inst) } }
    else s'
  s'.bankWritten s p.inst

/-- CTRL of a port (R200). -/
def State.prtCtrl (s : State) (p : Page) (m data : Word) : State :=
  let old := s.bit (F.PRT_EN p.inst)
  let s := s.plainWrite (p.base + 8) m data
  let new := s.bit (F.PRT_EN p.inst)
  if old && !new then s.portLost p.inst
  else if !old && new && s.bit (F.PRT_STATUS_LINK_UP p.inst) then s.portBack p.inst
  else s

/-- CTRL of a page outside the tenants. -/
def State.ctrlWrite (s : State) (p : Page) (m data : Word) : State :=
  match p.blk with
  | .mod => s.modCtrl p m data
  | .tbs => s.tbsCtrl p m data
  | .mtm => s.mtmCtrl p m data
  | .fio => s.fioCtrl p m data
  | .pio => (s.pioSyncAll p.inst).plainWrite (p.base + 8) m data
  | .prt => s.prtCtrl p m data
  | _ => s.plainWrite (p.base + 8) m data

/-- MIQ SRC `n` (R302): an entry that the supervisor sets stays, and so does an entry that a host would target at a
supervisor. -/
def State.srcWrite (s : State) (p : Page) (a : Nat) (m data : Word) : State :=
  let old := s.word (a / 4)
  let new := blend (m &&& BitVec.ofNat 32 (moduleWord a).rw) data old
  let sup (w : Word) : Bool := getBits w 4 2 == 1 || getBits w 4 2 == 2
  if (sup old && new != old) || (sup new && !sup old) then s.wrReject p else s.plainWrite a m data

/-- KEY_CTRL.COMMIT (R349, R350): the key is applied and recorded, both series begin at 0. DESIGN CHOICE: the words of
HB_KEY stay as written after it, so that a later COMMIT applies them again, with what has been written since. -/
def State.keyCommit (s : State) : State :=
  let bytes := (List.range 8).flatMap fun k => leBytes 4 (s.word (0x30A0 / 4 + k))
  let s := { s with gate := { s.gate with key := leVec 256 bytes, rxTop := 0, seqWindow := [], txSeq := 0 } }
  let s := s.setBit F.GTE_KEY_CTRL_KEY_SET true
  let s := s.nvsAsk ⟨keyPage, memPut [] 0 (bytes ++ [1]), .record⟩ true
  s.nvsAsk ⟨seqPage, [], .record⟩ true

/-- A register of the GTE page. DESIGN CHOICE: the words written to HB_KEY, which have no stored state to read (R9), are
kept for COMMIT (R350), also after it. -/
def State.gteWrite (s : State) (a off : Nat) (m data : Word) : State :=
  if 0xA0 ≤ off && off < 0xC0 then s.setWord (a / 4) (blend m data (s.word (a / 4)))
  else if off = 0xC0 then if m.getLsbD 0 && data.getLsbD 0 then s.keyCommit else s
  else s.plainWrite a m data

/-- A register of the PSH page: CFG while CTRL.EN is 0 (R187), the inactive sets of the sinks and SWAP (R227). -/
def State.pshWrite (s : State) (a off : Nat) (m data : Word) : State :=
  if off = 0x20 then if s.bit F.PSH_EN then s else s.plainWrite a m data
  else if 0x100 ≤ off && off < 0x900 then
    let i := (off - 0x100) / 0x100
    let o := off % 0x100
    let active := s.bit (F.PSH_SINK_CTRL_ACTIVE_B i)
    if o = 0 then
      let s := s.plainWrite a m data
      if m.getLsbD 1 && data.getLsbD 1 then s.setBit (F.PSH_SINK_CTRL_SWAP_PENDING i) true else s
    else if (if active then o = 8 || (0x50 ≤ o && o < 0x90) else o = 4 || (0x10 ≤ o && o < 0x50)) then
      s.countNow F.PSH_SINK_SET_REJECT_COUNT
    else s.plainWrite a m data
  else s.plainWrite a m data

/-- A register of an STN page (R206, R207). -/
def State.stnWrite (s : State) (p : Page) (a off : Nat) (m data : Word) : State :=
  if 0x100 ≤ off && off < 0xF00 then
    let e := 64 * p.inst + (off - 0x100) / 56
    match (off - 0x100) % 56 with
    | 0 => s.writeEntCtrl e m data
    | 4 => s.writeEntLocked e (a / 4) (BitVec.ofNat 32 (moduleWord a).rw) m data
    | 8 => s.writeEntLocked e (a / 4) (BitVec.ofNat 32 (moduleWord a).rw) m data
    | 12 => s.writeEntLocked e (a / 4) (BitVec.ofNat 32 (moduleWord a).rw) m data
    | _ => s.plainWrite a m data
  else s.plainWrite a m data

/-- A register of a PIO page (R332, R335, R336). -/
def State.pioWrite (s : State) (p : Page) (a off : Nat) (m data : Word) : State :=
  let i := p.inst
  let j := (off - 0x900) / 0x30
  if off = 0x20 then s.groupWrite (.start i) (m &&& data)
  else if off = 0x24 then s.groupWrite (.stop i) (m &&& data)
  else if off = 0x28 then s.groupWrite (.restart i) (m &&& data)
  else if 0x100 ≤ off && off < 0x900 then s.imemWrite (a / 4) (blend m data (s.word (a / 4)))
  else if 0x900 ≤ off && off < 0xF00 && (off - 0x900) % 0x30 = 4 then (s.pioSync i j).plainWrite a m data
  else if 0x900 ≤ off && off < 0xF00 && (off - 0x900) % 0x30 = 8 then s.txWrite i j m data
  else s.plainWrite a m data

/-- A register of an MTM page (R317, R319). -/
def State.mtmWrite (s : State) (p : Page) (a off : Nat) (m data : Word) : State :=
  if off = 0x20 then (s.syncMt p.inst).plainWrite a m data
  else
    match s.mtWrite a m data with
    | some s => s
    | none => s.plainWrite a m data

/-- A write, accepted whole, to the word at address `a` of a page outside the tenants. Lines 6 and 7 of PNL.TEXT are the
supervisor's (R46, R369). -/
def State.moduleWrite (s : State) (p : Page) (x : Master) (a : Nat) (m data : Word) : State :=
  let off := a - p.base
  if off = 8 then s.ctrlWrite p m data
  else
    match p.blk with
    | .mod =>
      if off = 0x64 then s.readmit (m &&& data)
      else if off = 0x60 then (s.plainWrite a m data).judgeReadmit else s.plainWrite a m data
    | .pwr => if off = 0x20 then if m.getLsbD 0 then s.pwrCmd (getBits data 0 2) else s else s.plainWrite a m data
    | .clk =>
      let old := s.word (a / 4)
      let s := s.plainWrite a m data
      if off = 0x40 then s.portResets old (s.word (a / 4))
      else if x = .sup then s.supReset off (blend m data old) else s
    | .gte => s.gteWrite a off m data
    | .rtc => if off = 0x30 then if m.getLsbD 0 && data.getLsbD 0 then s.rtcCommit else s else s.plainWrite a m data
    | .fwu => if off = 0x20 then if m.getLsbD 0 then s.fwCmd x (getBits data 0 4) else s else s.plainWrite a m data
    | .pnl =>
      if off = 0x20 then if m.getLsbD 0 && data.getLsbD 0 then s.panelUpdate else s
      else if 0x1F0 ≤ off && off < 0x240 then s
      else s.plainWrite a m data
    | .miq => if 0x100 ≤ off && off < 0x900 then s.srcWrite p a m data else s.plainWrite a m data
    | .mtm => s.mtmWrite p a off m data
    | .pio => s.pioWrite p a off m data
    | .fio => (s.plainWrite a m data).bankWritten s p.inst
    | .tbs =>
      if 0x20 ≤ off && off < 0xA0 && off % 0x20 = 0x14 then s.tbCtlWrite ((off - 0x20) / 0x20) m data
      else s.plainWrite a m data
    | .psh => s.pshWrite a off m data
    | .stn => s.stnWrite p a off m data
    | .prt => s.plainWrite a (if off = 0x20 && s.bit (F.PRT_EN p.inst) then m &&& ~~~1 else m) data
    | _ => s.plainWrite a m data

/-! Writes to tenant pages. -/

/-- A write to a word that the module keeps: the profile while the tenant is EMPTY or LOADED (R63), the overlay set and
its commit (R170), SAV.ERASE (R361), MIX.ROUTE. Every other state ignores a write of the profile; any other write waits
for the end of a reset (R36). -/
def State.keptWrite (s : State) (k key : Nat) (m data : Word) : State :=
  let t := s.tenant k
  let profile := key = F.TEN_GEOM_TB.key || key = F.TEN_CYC_VIS_CYC.key || key = F.TEN_PACE_LEAD.key
  if key = F.SAV_ERASE_ERASE.key then if m.getLsbD 0 && data.getLsbD 0 then s.saveErase k else s
  else if profile && 1 < t.st then s
  else if t.st = 5 || t.resetWait then s.setTenant k { t with afterReset := t.afterReset ++ [(key, m, data)] }
  else s.setTenant k (t.keptStore key m data)

/-- A write to a word of the tenant's execution (R14, R35, R36). -/
def State.coreWrite (s : State) (k key : Nat) (m data : Word) : State :=
  let m := m &&& enterMask key
  if m = 0 then s
  else
    let g := s.geo k
    let t := s.tenant k
    let active := t.st ≤ 1 && t.activeMix (viewBytes key m data)
    (if active then s.noteCount (0x1000000 + 0x10000 * k + 4 * F.MIX_ACTIVE_WRITES_COUNT.key) else s).onTenant k fun t =>
      if t.st ≤ 1 then t.preset g key m data
      else if t.st = 5 || t.resetWait then { t with afterReset := t.afterReset ++ [(key, m, data)] }
      else t.input (.write key m data)

/-- OWNER of a tenant page set, which the page bus keeps and applies at once. -/
def State.setTenantOwner (s : State) (k page o : Nat) : State :=
  s.onTenant k fun t =>
    let key := 0x400 * page + 2
    { t with mregs := Store.set (tenantRst key) t.mregs key (setBits (Store.get (tenantRst key) t.mregs key) 4 2 o) }

/-- OWNER of a page set (R45): the old owner is remembered for the rest of the gate cycle. -/
def State.setOwner (s : State) (p : Page) (o : Nat) : State :=
  let old := s.ownerNow p
  let s := if old = o || s.bus.owners.any (fun x => x.1 == p.base) then s
    else { s with bus := { s.bus with owners := s.bus.owners ++ [(p.base, old)] } }
  match tenantOf p.base with
  | some (k, off) => s.setTenantOwner k (off / 0x1000) o
  | none => s.setFld ⟨(p.base + 8) / 4, 4, 2⟩ o

/-- The OWNER field of a CTRL write: a write of SUP, or one that does not enable byte 0, leaves it (R44). -/
def State.ownerField (s : State) (p : Page) (m data : Word) : State :=
  if p.blk.fixed || !m.getLsbD 4 || getBits data 4 2 = 0 then s else s.setOwner p (getBits data 4 2)

/-! Arms (R38). -/

/-- The arm of a master on a page is consumed. -/
def State.disarm (s : State) (x : Master) (p : Page) : State :=
  { s with bus := { s.bus with arms := s.bus.arms.filter fun r => r != (x, p.base) } }

/-- A write to EXPERT_KEY that the owner rule accepts. -/
def State.keyWrite (s : State) (x : Master) (p : Page) (m data : Word) : State :=
  if m &&& 0xFFFF = 0xFFFF && data &&& 0xFFFF = 0x5EED then
    { s with bus := { s.bus with arms := s.bus.arms ++ [(x, p.base)] } }
  else s

/-! A write. -/

/-- Whether a write to a word is only HOST-A's to make (R350). -/
def hostAOnly (a : Nat) : Bool := decide (0x30A0 ≤ a) && decide (a ≤ 0x30C0)

/-- The write of a word remembered for the rest of the gate cycle, with the values before it (R48, R49). -/
def State.remember (s : State) (p : Page) (x : Master) (a : Nat) (m data : Word) : State :=
  let w : BusWrite := ⟨a / 4, x, s.pageRead p x a, s.word (a / 4), m, data⟩
  { s with bus := { s.bus with wrote := s.bus.wrote ++ [w] } }

/-- Whether a write to a register of a page outside the tenants does nothing but set the register, so that it can be
taken back. -/
def Page.settable (p : Page) (off : Nat) : Bool :=
  off != 8 && off != 0x10 &&
  match p.blk with
  | .mod => off != 0x60 && off != 0x64
  | .pwr => off != 0x20
  | .clk => off != 0x40
  | .gte => decide (off < 0xA0) || decide (0xC4 ≤ off)
  | .rtc => off != 0x30
  | .fwu => off != 0x20
  | .pnl => off != 0x20
  | .miq => decide (off < 0x100)
  | .fio => true
  | .nvs => true
  | .lan => true
  | .ptp => true
  | .prt => true
  | .stn => decide (0xF00 ≤ off) || (decide (0x100 ≤ off) && decide (12 < (off - 0x100) % 56))
  | _ => false

/-- A list without the last entry equal to `x`. -/
def eraseLast {α : Type} [BEq α] (l : List α) (x : α) : List α := (l.reverse.erase x).reverse

/-- The input of a write of HOST-B taken back, where it waits for its tenant's time (R35). -/
def Tenant.undoWrite (t : Tenant) (key : Nat) (w : BusWrite) : Tenant :=
  let m := w.mask &&& enterMask key
  { t with inputs := eraseLast t.inputs (.write key m w.data), afterReset := eraseLast t.afterReset (key, m, w.data) }

/-- A HOST-A write meets one that HOST-B has made to the same word of a SHARED page in this gate cycle, before it was
known to come (R48, R340): the HOST-B write is taken back and counted. DESIGN CHOICE: where it has already set something
off, the HOST-A write comes in the next gate cycle instead. -/
def State.dropB (s : State) (p : Page) (a : Nat) : State :=
  match s.bus.wrote.find? fun w => w.key == a / 4 && w.who == .hostB with
  | none => s
  | some w =>
    let drop (s : State) : State :=
      { s with bus := { s.bus with wrote := s.bus.wrote.erase w } }.countNow F.GTE_CONFLICT_DROP_COUNT
    match tenantOf a with
    | some (k, off) =>
      if isCoreWord (off / 4) && 1 < (s.tenant k).st && off % 0x1000 != 8 then
        drop (s.onTenant k fun t => t.undoWrite (off / 4) w)
      else s.busNext
    | none => if p.settable (a - p.base) then drop (s.setWord (a / 4) w.stored) else s.busNext

/-! What is still to come in a gate cycle (R48, R340). -/

/-- The page-bus access that a command makes: who makes it, its address, and whether it writes. -/
def busAccess : Instr → Option (BusSrc × Nat × Bool)
  | .configWrite src a _ _ => some (src, a.toNat, true)
  | .configRead src a => some (src, a.toNat, false)
  | .rcCounterRead src a _ => some (src, a.toNat, false)
  | .latchedRead src a => some (src, a.toNat, false)
  | .ownerWrite src p _ _ => some (src, onPage p 0x08, true)
  | .expertKey src p _ _ => some (src, onPage p 0x10, true)
  | .expertSet src p _ _ => some (src, onPage p 0x08, true)
  | .tbCommit src n _ _ => some (src, 0x1A034 + 0x20 * n, true)
  | .overlayCommit src t _ _ => some (src, 0x1000200 + 0x10000 * t, true)
  | .entryEnable src e _ _ => some (src, entCtrl e, true)
  | .entryDisable src e _ _ => some (src, entCtrl e, true)
  | .forceResync src e _ _ => some (src, entCtrl e, true)
  | .sinkSwap src i _ _ => some (src, 0x1B100 + 0x100 * i, true)
  | .readmit src _ _ => some (src, 0x64, true)
  | .mtRestart src i _ _ => some (src, 0xA008 + 0x1000 * i, true)
  | .halfWrite src a _ _ => some (src, a.toNat, true)
  | .groupStart src i _ _ => some (src, 0x16020 + 0x1000 * i, true)
  | .groupStop src i _ _ => some (src, 0x16024 + 0x1000 * i, true)
  | .clkRestart src i _ _ => some (src, 0x16028 + 0x1000 * i, true)
  | .txf src i j _ _ => some (src, 0x16908 + 0x1000 * i + 0x30 * j, true)
  | .rxf src i j => some (src, 0x1690C + 0x1000 * i + 0x30 * j, false)
  | .keyCommit src _ _ => some (src, 0x30C0, true)
  | .erase src t _ _ => some (src, 0x100D0A0 + 0x10000 * t, true)
  | .rtcCommit src _ _ => some (src, 0x5030, true)
  | .panelUpdate src _ _ => some (src, 0x8020, true)
  | .fwuOpen src _ _ => some (src, 0x6020, true)
  | .fwuVerify src _ _ => some (src, 0x6020, true)
  | .fwuActivate src _ _ => some (src, 0x6020, true)
  | .fwuConfirm src _ _ => some (src, 0x6020, true)
  | .fwuRollback src _ _ => some (src, 0x6020, true)
  | .fwuAbort src _ _ => some (src, 0x6020, true)
  | .powerPark src _ _ => some (src, 0x1020, true)
  | .powerRun src _ _ => some (src, 0x1020, true)
  | .powerDormant src _ _ => some (src, 0x1020, true)
  | .portReset src _ _ => some (src, 0x2040, true)
  | .modEnable src _ _ => some (src, 0x08, true)
  | .modDisable src _ _ => some (src, 0x08, true)
  | _ => none

/-- The header of a message that is no page-bus access. -/
def supMessage : Instr → Option Msg
  | .imageChunk m _ _ _ => some m
  | .load m _ _ => some m
  | .start m _ => some m
  | .hold m => some m
  | .resume m _ => some m
  | .reset m => some m
  | .park m => some m
  | .unpark m _ => some m
  | .move m _ _ => some m
  | .mail m _ _ => some m
  | .overlayWrite m _ _ _ => some m
  | .previewReq m _ _ _ => some m
  | .wake m => some m
  | _ => none

/-- The gate cycle of a command; none for an event, which ends the cycle. -/
def cycleOf (i : Instr) : Option Nat :=
  match busAccess i, supMessage i with
  | some (.gate m, _), _ => some m.gc
  | some (.sup gc, _), _ => some gc
  | none, some m => some m.gc
  | none, none => none

/-- The waiting commands that belong to gate cycle `gc`, which is in progress. -/
def State.sameCycle (s : State) (gc : Nat) : List Instr := s.pending.takeWhile fun i => cycleOf i == some gc

/-- Whether HOST-A's message is not stale, and of a type of the gate's, so that it will be applied. -/
def State.goodA (s : State) (m : Msg) : Bool :=
  m.host == .a && m.type.isNone && (1024 ≤ m.tenant.toNat || m.epoch == (s.tenant m.tenant.toNat).epoch)

/-- Whether HOST-A writes the word at `a` later in gate cycle `gc` (R48). -/
def State.aFollows (s : State) (gc a : Nat) : Bool :=
  (s.sameCycle gc).any fun i => match busAccess i with
    | some (.gate m, b, true) => s.goodA m && b / 4 == a / 4
    | _ => false

/-- Whether a message of HOST-A for the supervisor is still to come in gate cycle `gc` (R340). -/
def State.aMessage (s : State) (gc : Nat) : Bool :=
  (s.sameCycle gc).any fun i => match supMessage i with
    | some m => m.host == .a
    | none => false

/-- A write that the owner rule accepts whole, by a master that held an arm or not. -/
def State.acceptWrite (s : State) (p : Page) (x : Master) (a : Nat) (m data : Word) (armed : Bool) : State :=
  let off := a - p.base
  let s := s.remember p x a m data
  if off = 0x10 then s.keyWrite x p m data
  else
    let s := if off = 8 then s.ownerField p m data else s
    let m := if off = 8 then
        m &&& ~~~0x30 &&& (if !armed && !(s.pageRead p x a).getLsbD 1 && data.getLsbD 1 then ~~~2 else 0xFFFFFFFF)
      else m
    match tenantOf a with
    | some (k, o) => if isCoreWord (o / 4) then s.coreWrite k (o / 4) m data else s.keptWrite k (o / 4) m data
    | none => s.moduleWrite p x a m data

/-- A write that the owner rule rejects (R42): counted; HOST-A's OWNER field of an assignable page applies (R45). -/
def State.rejectWrite (s : State) (p : Page) (x : Master) (a : Nat) (m data : Word) : State :=
  let s := s.wrReject p
  if x = .hostA && a - p.base = 8 then (s.remember p x a m data).ownerField p m data else s

/-- A write reaches the page bus, at the word that holds `addr` (R30, R31, R38, R42, R48). -/
def State.busWrite (s : State) (x : Master) (gc : Nat) (addr : Word) (mask : BitVec 4) (data : Word) : State :=
  let a := addr.toNat / 4 * 4
  let s := s.busEnter gc
  let m := byteMask mask
  match pageOf a with
  | none => s.voidAccess none
  | some p =>
    let armed := s.bus.arms.contains (x, p.base)
    let s := s.disarm x p
    let o := s.ownerOf p
    if hostAOnly a && x != .hostA then s.wrReject p
    else if !hostAOnly a && !ownerAccepts o x then s.rejectWrite p x a m data
    else if x = .hostB && o = 3 && (s.aFollows gc a || s.bus.wrote.any fun w => w.key == a / 4 && w.who == .hostA) then
      s.countNow F.GTE_CONFLICT_DROP_COUNT
    else if !p.hasReg (a - p.base) then s.voidAccess (some p)
    else (if x = .hostA && o = 3 then s.dropB p a else s).acceptWrite p x a m data armed

/-! A read. -/

/-- The word whose HI half a read of `a` latches (R318, R349, R363, R373). -/
def latchedBy (p : Page) (off : Nat) : Option Nat :=
  let hi := some (p.base + off + 4)
  match p.blk with
  | .gte => if off = 0xC4 then hi else none
  | .rtc => if off = 0x20 then hi else none
  | .fwu => if off = 0x44 then hi else none
  | .ptp => if off = 0x24 then hi else none
  | .mtm =>
    if off = 0x2C then hi
    else if 0x100 ≤ off && off < 0x300 && 8 ≤ off % 0x40 && off % 8 = 0 && p.hasReg off then hi else none
  | _ => none

/-- Whether a word is read from the reading master's latch. -/
def isLatched (p : Page) (off : Nat) : Bool := 4 ≤ off && latchedBy p (off - 4) == some (p.base + off)

/-- What the RC fields of a word have risen by in this gate cycle, in their places, which a read in the cycle does not
return (R5, R7). -/
def State.rcHidden (s : State) (a : Nat) : Word :=
  let rc := BitVec.ofNat 32 (moduleWord a).rc
  match tenantOf a with
  | some _ => BitVec.ofNat 32 (s.bus.counts.count (a / 4, true)) &&& rc
  | none =>
    let now := s.word (a / 4) &&& rc
    let old := s.wordBefore (a / 4) &&& rc
    if old ≤ now then now - old else 0

/-- What a read in this gate cycle leaves in the RC fields of a word: all that the cycle has counted, beyond the greatest
value too (R7). -/
def State.rcLeft (s : State) (a : Nat) : Word :=
  s.rcHidden a + (BitVec.ofNat 32 (s.bus.counts.count (a / 4, false)) &&& BitVec.ofNat 32 (moduleWord a).rc)

/-- The RC fields of a word cleared by a read, but for what this gate cycle has counted (R5, R7). -/
def State.rcClear (s : State) (a : Nat) : State :=
  let rc := BitVec.ofNat 32 (moduleWord a).rc
  if rc = 0 then s
  else
    let left := s.rcLeft a
    let counts := s.bus.counts.filter fun c => c != (a / 4, false)
    match tenantOf a with
    | some (k, o) =>
      let again := List.replicate (s.bus.counts.count (a / 4, false)) (a / 4, true)
      { s with bus := { s.bus with counts := counts ++ again } }.onTenant k fun t =>
        t.setWord (o / 4) (blend rc left (t.word (o / 4)))
    | none =>
      let key := a / 4
      let s := { s with bus := { s.bus with counts := counts } }
      { s.setWord key (blend rc left (s.word key)) with bus := { s.bus with
        before := Store.set (moduleRst key) s.bus.before key (s.wordBefore key &&& ~~~rc) } }

/-- What a read does beside returning its value: RC fields clear (R5), RXF gives up its word (R335), a LO half latches
its HI half (R318). -/
def State.readEffect (s : State) (p : Page) (x : Master) (a : Nat) : State :=
  let off := a - p.base
  let s := s.rcClear a
  let s := if p.blk = .pio && 0x900 ≤ off && off < 0xF00 && (off - 0x900) % 0x30 = 12 then
      (s.rxRead p.inst ((off - 0x900) / 0x30)).1 else s
  match latchedBy p off with
  | some h => { s with bus := { s.bus with
      latches := (s.bus.latches.filter fun l => !(l.1 == x && l.2.1 == h)) ++ [(x, h, s.pageRead p x h)] } }
  | none => s

/-- The value that a read of a register returns, before its effects: where another master has written the word in this
gate cycle and the reader has not, the value before that write (R47, R49). DESIGN CHOICE: a write that R48 has dropped is
none of the reader's in this sense, so that HOST-B then reads the value from before HOST-A's write (log entry 120). A read
of RXF gives the oldest word whatever has been written to it (R335). -/
def State.readValue (s : State) (p : Page) (x : Master) (a : Nat) : Word :=
  let off := a - p.base
  if off = 0x10 then s.pageRead p x a
  else if isLatched p off then
    match s.bus.latches.find? fun l => l.1 == x && l.2.1 == a with
    | some l => l.2.2
    | none => 0
  else
    if p.blk = .pio && 0x900 ≤ off && off < 0xF00 && (off - 0x900) % 0x30 = 12 then
      (s.rxRead p.inst ((off - 0x900) / 0x30)).2
    else
    let mine := s.bus.wrote.any fun w => w.key == a / 4 && w.who == x
    match s.bus.wrote.find? fun w => w.key == a / 4 && w.who != x && !mine with
    | some w => w.shown
    | none =>
      let rc := BitVec.ofNat 32 (moduleWord a).rc
      let w := s.pageRead p x a
      blend rc (w - s.rcHidden a) w

/-- A read reaches the page bus (R31, R41, R49): the state after it and what it returns. -/
def State.busRead (s : State) (x : Master) (gc : Nat) (addr : Word) : State × Word :=
  let a := addr.toNat / 4 * 4
  let s := s.busEnter gc
  match pageOf a with
  | none => (s.voidAccess none, 0)
  | some p =>
    if !p.hasReg (a - p.base) then (s.voidAccess (some p), 0)
    else
      let s := s.accrue p a
      (s.readEffect p x a, s.readValue p x a)

end Sys2Proof.Machine
end

