-- ==== Sys2Proof/Machine/Gate.lean ====
section
/-! DEFINITION. The gate (R338 to R351): the bytes of inbound messages, the checks of R345, replies, what keeps a message
back, and what each message does once nothing does. -/

namespace Sys2Proof.Machine

/-! Inbound messages (R341). -/

/-- TYPE of a message whose row has TYPE `type`: another one where R341 does not define it. -/
def msgType (m : Msg) (type : Byte) : Byte :=
  match m.type with
  | some t => if t = 0 || 7 < t then t else type
  | none => type

/-- The reserved CMD of a TENANT_CMD, if it has one. -/
def badCmd (m : Msg) : Option Byte := m.cmd.filter fun c => c = 0 || 9 < c

/-- The bytes of an inbound message: its header and its payload. -/
def msgBytes (m : Msg) (type : Byte) (payload : List Byte) : List Byte :=
  [type, m.flags] ++ leBytes 2 m.tag ++ leBytes 2 m.tenant ++ leBytes 2 m.epoch ++ leBytes 2 m.len
    ++ [0, 0, 0, 0, 0, 0] ++ payload

/-- The payload of TENANT_CMD. -/
def cmdPayload (m : Msg) (cmd : Byte) (args : List Byte) : List Byte := [(badCmd m).getD cmd, 0, 0, 0] ++ args

/-- The arguments of LOAD. -/
def loadBytes (a : LoadArgs) : List Byte :=
  leBytes 2 a.imageBase ++ [0, 0] ++ leBytes 4 a.imageLen ++ leBytes 4 a.geom ++ leBytes 4 a.cyc ++ leBytes 4 a.pace
    ++ leBytes 2 a.e0 ++ leBytes 2 a.e1 ++ leBytes 2 a.e2 ++ leBytes 2 a.e3

/-- The payload of CONFIG_WRITE. -/
def writePayload (addr : Word) (mask : BitVec 4) (data : Word) : List Byte :=
  leBytes 4 addr ++ [mask.setWidth 8, 0, 0, 0] ++ leBytes 4 data

/-- The payload of IMAGE_CHUNK, with DEST, and of OVERLAY_WRITE, with BATCH. -/
def chunkPayload (first : Byte) (off : Word) (data : List Byte) : List Byte := [first, 0, 0, 0] ++ leBytes 4 off ++ data

/-- The limits of a message's payload. -/
def payloadLimits (type : Byte) : Nat × Nat :=
  if type = 1 then (12, 12) else if type = 2 then (4, 4) else if type = 3 then (9, 1032)
  else if type = 4 then (4, 40) else if type = 5 then (9, 1032) else if type = 6 then (4, 4) else (0, 0)

/-- Whether TYPE is defined for this direction, and LENGTH is the payload's length and within the limits of the type. -/
def lengthOk (m : Msg) (type : Byte) (payload : List Byte) : Bool :=
  let (lo, hi) := payloadLimits type
  1 ≤ type && type ≤ 7 && m.len.toNat == payload.length && lo ≤ payload.length && payload.length ≤ hi

/-- A message of a row: its header, the TYPE of the row and its payload; none for a command that is no gate message. -/
def rowMessage : Instr → Option (Msg × Byte × List Byte)
  | .configWrite (.gate m) a k d => some (m, 1, writePayload a k d)
  | .configRead (.gate m) a => some (m, 2, leBytes 4 a)
  | .rcCounterRead (.gate m) a _ => some (m, 2, leBytes 4 a)
  | .imageChunk m d o x => some (m, 3, chunkPayload d o x)
  | .load m a _ => some (m, 4, cmdPayload m 1 (loadBytes a))
  | .start m _ => some (m, 4, cmdPayload m 2 [])
  | .hold m => some (m, 4, cmdPayload m 3 [])
  | .resume m _ => some (m, 4, cmdPayload m 4 [])
  | .reset m => some (m, 4, cmdPayload m 5 [])
  | .park m => some (m, 4, cmdPayload m 6 [])
  | .unpark m _ => some (m, 4, cmdPayload m 7 [])
  | .move m n _ => some (m, 4, cmdPayload m 8 (leBytes 2 n))
  | .mail m n x => some (m, 4, cmdPayload m 9 ([n, 0, 0, 0] ++ x))
  | .overlayWrite m b o x => some (m, 5, chunkPayload b o x)
  | .previewReq m k p f => some (m, 6, [k, p] ++ leBytes 2 f)
  | .wake m => some (m, 7, [])
  | _ => none

/-- A message inbound: its header, TYPE and payload. -/
def inbound (i : Instr) : Option (Msg × Byte × List Byte) := (rowMessage i).map fun (m, type, p) => (m, msgType m type, p)

/-- The page-bus access of a command: its master and its address. -/
def access : Instr → Option (Master × Word)
  | .configWrite (.gate m) a _ _ => some (match m.host with | .a => .hostA | .b => .hostB, a)
  | .configRead (.gate m) a => some (match m.host with | .a => .hostA | .b => .hostB, a)
  | .rcCounterRead (.gate m) a _ => some (match m.host with | .a => .hostA | .b => .hostB, a)
  | .configWrite (.sup _) a _ _ => some (.sup, a)
  | .configRead (.sup _) a => some (.sup, a)
  | .rcCounterRead (.sup _) a _ => some (.sup, a)
  | _ => none

/-- Whether a message is a TENANT_CMD. -/
def isCmd (i : Instr) : Bool :=
  match inbound i with
  | some (_, type, _) => type == 4
  | none => false

/-- Whether a message is one for the supervisor, and no page-bus access. -/
def forSup (i : Instr) : Bool := (inbound i).isSome && (access i).isNone

/-- Whether a message is LOAD or RESET, which record an epoch (R290). -/
def isEpochCmd : Instr → Bool
  | .load m _ _ => (badCmd m).isNone
  | .reset m => (badCmd m).isNone
  | _ => false

/-- The tenant that a message is aimed at (R341). -/
def aimedAt (m : Msg) : Option Nat := if m.tenant.toNat < 1024 then some m.tenant.toNat else none

/-- The tenant that a message or an access concerns: the one it is aimed at, or whose page it reaches. -/
def concerns (i : Instr) : Option Nat :=
  match (access i).bind fun x => tenantOf x.2.toNat with
  | some (k, _) => some k
  | none => (inbound i).bind fun x => aimedAt x.1

/-! The inbound checks (R345). -/

/-- A message dropped at check `n`. -/
def State.gateDrop (s : State) (n : Nat) (type : Byte) (cause : Option Fld) : State :=
  let s := s.count F.GTE_DROP_COUNT_COUNT
  let s := match cause with
    | some f => s.count f
    | none => s
  ((s.setFld F.GTE_DROP_CAUSE_CHECK n).setFld F.GTE_DROP_CAUSE_TYPE type.toNat).setBit F.GTE_STATUS_DROP_SEEN true

/-- The datagrams of HOST-B are counted by milliseconds: the millisecond in progress. -/
def Gate.window (g : Gate) (tick : Nat) : Gate :=
  if g.rateFrom + 100000 ≤ tick || tick < g.rateFrom then { g with rate := 0, rateFrom := tick / 100000 * 100000 } else g

/-- Whether a SEQ is acceptable (R349): above the highest accepted one, or within 64 below it and not yet accepted. -/
def Gate.seqOk (g : Gate) (q : BitVec 64) : Bool :=
  decide (g.rxTop.toNat < q.toNat)
    || (decide (q.toNat < g.rxTop.toNat) && decide (g.rxTop.toNat ≤ q.toNat + 64) && !g.seqWindow.contains q)

/-- A SEQ accepted. -/
def Gate.takeSeq (g : Gate) (q : BitVec 64) : Gate :=
  let top := if g.rxTop.toNat < q.toNat then q else g.rxTop
  { g with rxTop := top, seqWindow := (g.seqWindow ++ [q]).filter fun x => decide (top.toNat ≤ x.toNat + 64) }

/-- Whether a message of HOST-A comes through the submission ring (R346, R347): a BAR0 access, which has TENANT 0xFFFF,
and what a BAR2 write becomes do not. -/
def byRing (m : Msg) (type : Byte) : Bool := !((type == 1 || type == 2) && m.tenant == 0xFFFF) && m.tlp != .bar2

/-- The module reads the next slot of the submission ring (R347): none while the ring does not run or holds no message
that it has not read. -/
def Gate.takeSlot (g : Gate) : Option Gate :=
  let size := g.fld F.BAR4_SQ_SIZE_SIZE
  let head := g.fld F.BAR4_SQ_HEAD_HEAD
  if g.fld F.BAR4_RING_CTRL_EN = 1 && size != 0 && head != g.fld F.BAR4_SQ_TAIL_TAIL then
    some (g.setFld F.BAR4_SQ_HEAD_HEAD ((head + 1) % size))
  else none

/-- A message comes in: of HOST-A by its ring or BAR (R346, R347), of HOST-B in a datagram, to which checks 1 to 3
apply. The state after that, and whether the message goes on. DEDUCED: no datagram comes in an address family that
GTE.CFG does not enable, or to a port that it does not name. -/
def State.admitB (s : State) (m : Msg) (type : Byte) (payload : List Byte) : State × Bool :=
  match m.host with
  | .a =>
    if byRing m type then
      match s.gate.takeSlot with
      | some g => ({ s with gate := g }, true)
      | none => (s, false)
    else (s, true)
  | .b =>
    if !s.familyOn m.src.v6 || m.dport != s.hbPort then (s, false) else
    let s := { s with gate := s.gate.window s.tick }
    if max 1 (s.fld F.GTE_HB_RATE_RATE) ≤ s.gate.rate then (s.gateDrop 1 type (some F.GTE_RATE_DROP_COUNT), false)
    else
      let s := { s with gate := { s.gate with rate := s.gate.rate + 1 } }
      let tag := hbTag s.gate.key (leBytes 8 m.seq ++ msgBytes m type payload)
      if !s.bit F.GTE_KEY_CTRL_KEY_SET || m.auth != tag then (s.gateDrop 2 type (some F.GTE_AUTH_FAIL_COUNT), false)
      else if !s.gate.seqOk m.seq then (s.gateDrop 3 type (some F.GTE_REPLAY_DROP_COUNT), false)
      else ({ s with gate := s.gate.takeSeq m.seq }.recordSeq, true)

/-- Check 4: TYPE, LENGTH and total (R341, R345); an access aimed at a tenant addresses that tenant's pages. -/
def formOk (i : Instr) (m : Msg) (type : Byte) (payload : List Byte) : Bool :=
  lengthOk m type payload &&
  match access i, aimedAt m with
  | some (_, a), some k => (tenantOf a.toNat).map (fun t => t.1) == some k
  | _, _ => true

/-- The types that pass while MOD.CTRL.EN is 0 (check 5). -/
def passesDisabled (type : Byte) : Bool := type == 1 || type == 2 || type == 3 || type == 7

/-! Replies (R342). -/

/-- The EPOCH of a reply: the current one of the tenant that the message is aimed at, 0 for none. -/
def State.epochFor (s : State) (m : Msg) : Half :=
  match aimedAt m with
  | some k => (s.tenant k).epoch
  | none => 0

/-- A READ_REPLY. An access of HOST-A with TENANT 0xFFFF is a BAR0 read, which the reply completes (R346). -/
def State.reply (s : State) (m : Msg) (bus : Bool) (status : Byte) (data : Word) : State :=
  let r : HostMsg := .readReply m.tag m.tenant status (s.epochFor m) data
  match m.host, bus && m.tenant == 0xFFFF with
  | .a, true => { s with gate := { s.gate with pcie := s.gate.pcie ++ [r] } }
  | _, _ => s.answer m r

/-- Whether a message is stale (R291). -/
def State.stale (s : State) (i : Instr) (m : Msg) (type : Byte) : Bool :=
  match aimedAt m with
  | none => false
  | some k => m.epoch != (s.tenant k).epoch && !(m.epoch == 0xFFFF && (type == 2 || isEpochCmd i))

/-! What messages do. -/

/-- A TENANT_CMD performed and answered (R342); it is aimed at a tenant, and its CMD is not reserved. While the module is
PARKED, only HOLD and PARK are valid (R388). -/
def State.tenantCmd (s : State) (m : Msg) (always : Bool) (h : State → Nat → State × Byte) : State :=
  match aimedAt m with
  | none => s.reply m false 0x12 0
  | some k =>
    if (badCmd m).isSome then s.reply m false 0x12 0
    else if s.fld F.PWR_STATUS_STATE = 4 && !always then s.reply m false 0x11 0
    else
      let (s, st) := h s k
      s.settle.reply m false st 0

/-- Whether an image chunk touches a 64 KiB block of an image that a tenant holds (R343). -/
def State.imageHeld (s : State) (off n : Nat) : Bool :=
  s.tenants.any fun (_, t) => t.st != 0 && decide (0 < t.image.len) && decide (t.image.base / 65536 ≤ (off + n - 1) / 65536)
    && decide (off / 65536 ≤ (t.image.base + t.image.len - 1) / 65536)

/-- IMAGE_CHUNK (R343, R377). -/
def State.chunk (s : State) (m : Msg) (dest : Byte) (off : Nat) (data : List Byte) : State :=
  if dest = 0 then
    if s.imageHeld off data.length then s.count F.GTE_IMAGE_REJECT_COUNT
    else { s with hbm := memPut s.hbm off (data.take (2 ^ 32 - off)) }
  else if dest = 1 then
    s.fwChunk (match m.host with | .a => .hostA | .b => .hostB) (m.flags.getLsbD 0) off data
  else s

/-- OVERLAY_WRITE (R172): its bytes wait for a frame boundary. -/
def State.overlayBytes (s : State) (m : Msg) (batch : Byte) (off : Nat) (data : List Byte) : State :=
  match aimedAt m with
  | none => s
  | some k => s.onTenant k fun t =>
    { t with compo := { t.compo with writes := t.compo.writes ++ [⟨batch, m.flags.getLsbD 0, off, data⟩] } }

/-- PREVIEW_REQ (R223, R344): the state and the status. -/
def State.preview (s : State) (m : Msg) (kind path : Byte) (frames : Nat) : State × Byte :=
  match aimedAt m with
  | none => (s, 0x12)
  | some k =>
    if 3 < kind.toNat || 1 < path.toNat then (s, 0x12)
    else
      let rest := s.previews.filter fun p => !(p.tenant == k && p.host == m.host)
      if frames = 0 then ({ s with previews := rest }, 0)
      else
        let others := ((s.previews.map Preview.tenant).filter fun n => n != k).eraseDups
        if 4 ≤ others.length then (s, 0x36)
        else ({ s with previews := rest ++ [⟨m.host, k, kind, path, frames⟩] }, 0)

/-- WAKE while the module is on (R351). -/
def State.wakeUp (s : State) : State := s.setBit F.GTE_STATUS_WAKE_RX true

/-- A page-bus read performed and, for a host, answered. -/
def State.readFor (s : State) (src : BusSrc) (a : Word) (after : State → State) : State :=
  match src with
  | .sup gc => after (s.busRead .sup gc a).1
  | .gate m =>
    let (s, w) := s.busRead (match m.host with | .a => .hostA | .b => .hostB) m.gc a
    (after s).reply m true 0 w

/-- A page-bus write performed. -/
def State.writeFor (s : State) (src : BusSrc) (a : Word) (mask : BitVec 4) (data : Word) : State :=
  match src with
  | .sup gc => s.busWrite .sup gc a mask data
  | .gate m => s.busWrite (match m.host with | .a => .hostA | .b => .hostB) m.gc a mask data

/-- An RC counter incremented in the cycle of its read, after it (R7). -/
def State.increment (s : State) (a : Word) (inc : Bool) : State :=
  let a := a.toNat / 4 * 4
  if inc && (pageOf a).isSome && (moduleWord a).rc != 0 then s.pageCount a else s

/-- What a message or an access does. -/
def State.effect (s : State) : Instr → State
  | .configWrite src a mask data => s.writeFor src a mask data
  | .configRead src a => s.readFor src a id
  | .rcCounterRead src a inc => s.readFor src a fun s => s.increment a inc
  | .load m a pick => s.tenantCmd m false fun s k => s.cmdLoad k a pick
  | .start m t => s.tenantCmd m false fun s k => s.cmdStart k t
  | .hold m => s.tenantCmd m true fun s k => s.cmdHold k
  | .resume m t => s.tenantCmd m false fun s k => s.cmdResume k t
  | .reset m => s.tenantCmd m false fun s k => s.cmdReset k
  | .park m => s.tenantCmd m true fun s k => s.cmdPark k
  | .unpark m t => s.tenantCmd m false fun s k => s.cmdUnpark k t
  | .move m slot pick => s.tenantCmd m false fun s k => s.cmdMove k slot.toNat pick
  | .mail m len data => s.tenantCmd m false fun s k => s.cmdMail k len.toNat data
  | .imageChunk m dest off data => s.chunk m dest off.toNat data
  | .overlayWrite m batch off data => s.overlayBytes m batch off.toNat data
  | .previewReq m kind path frames =>
    let (s, st) := s.preview m kind path frames.toNat
    s.reply m false st 0
  | .wake _ => s.wakeUp
  | _ => s

/-! What keeps a message back. -/

/-- Whether a command is answered in a failover: RESET is accepted (R292), MOVE is refused (R75, R283). -/
def answersInFailover : Instr → Bool
  | .reset m => (badCmd m).isNone
  | .move m _ _ => (badCmd m).isNone
  | _ => false

/-- Whether a message puts a page write into the NVS queue, so that it waits while that is full (R355, R377): LOAD, RESET,
and a chunk for the staging slot. -/
def writesNvs : Instr → Bool
  | .imageChunk _ dest _ _ => dest == 1
  | i => isEpochCmd i

/-- Whether a message of HOST-B for the supervisor comes in the gate cycle of one of HOST-A, which acts first (R340). -/
def State.yields (s : State) (i : Instr) : Bool :=
  match inbound i with
  | some (m, _, _) => forSup i && m.host == .b && s.aMessage m.gc
  | none => false

/-- Whether a tenant is between its old and its new placement (R13): from the declaration of its failure until its
promotion, or until the supervisor has looked for a slot for a tenant that does not run (R428). -/
def State.between (s : State) (k : Nat) : Bool :=
  (s.tenant k).waitPromotion || s.cont.failing.any fun f => f.waiting.contains k

/-- Whether a message or an access of a started module has to wait (R13, R17, R47, R290, R292, R294, R422): TENANT_CMDs
for ENGINES_UP; messages for the supervisor during a takeover; LOAD and RESET while PFW refuses the record of an epoch,
and what writes to NVS while its queue is full; what concerns a tenant between placements, or one for which something
waits; an access behind a waiting access of its master. -/
def State.mustWait (s : State) (i : Instr) : Bool :=
  (isCmd i && !s.bit F.MOD_STATUS_ENGINES_UP)
    || (forSup i && s.supBusy)
    || (isEpochCmd i && s.isPfw)
    || (writesNvs i && s.nvsFull)
    || s.yields i
    || (match concerns i with
      | some k =>
        !(answersInFailover i && (s.tenant k).unplaced)
          && (s.between k || s.gate.waiting.any fun w => concerns w == some k)
      | none => false)
    || (match access i with
      | some (x, _) => s.gate.waiting.any fun w => (access w).map (fun y => y.1) == some x
      | none => false)

/-- A message kept back. -/
def State.holdMsg (s : State) (i : Instr) : State := { s with gate := { s.gate with waiting := s.gate.waiting ++ [i] } }

/-- A message that has passed the checks and need not wait is answered as stale, or takes effect. -/
def State.act (s : State) (i : Instr) : State :=
  match inbound i with
  | some (m, type, _) =>
    if s.stale i m type then (s.count F.GTE_STALE_NACKS_COUNT).reply m (access i).isSome 0x10 0 else s.effect i
  | none => s.effect i

/-- A message that has passed the checks, or an access of the supervisor: it waits or acts. -/
def State.perform (s : State) (i : Instr) : State := if s.mustWait i then s.holdMsg i else s.act i

/-- As `perform`, for a message that has just come: PFW refuses the record of its epoch, where it needs one (R290,
R356). -/
def State.performNew (s : State) (i : Instr) : State :=
  let refused := isEpochCmd i && s.bit F.NVS_STATUS_PFW && match inbound i with
    | some (m, type, _) => !s.stale i m type
    | none => false
  (if refused then s.count F.NVS_REFUSED_COUNT else s).perform i

/-- Checks 4 and 5; a message that passes goes on by `go`. -/
def State.judge (go : State → Instr → State) (s : State) (i : Instr) : State :=
  match inbound i with
  | none => go s i
  | some (m, type, payload) =>
    if !formOk i m type payload then s.gateDrop 4 type none
    else if !s.bit F.MOD_EN && !passesDisabled type then s.gateDrop 5 type none
    else go s i

/-- Every message that waits is tried again, in order, within the gate cycle in progress. -/
def State.retry (s : State) : State :=
  let ws := s.gate.waiting
  if s.power.mode = .on then ws.foldl State.perform { s with gate := { s.gate with waiting := [] } } else s

/-- Every message that waits is tried again, in order. -/
def State.release (s : State) : State := s.retry.settle

/-- Whether a waiting message is one of HOST-B for the supervisor, which may have waited for one of HOST-A (R340). -/
def wasBehind (i : Instr) : Bool :=
  forSup i && (inbound i).any fun x => x.1.host == .b

/-- The messages that READY releases have not been checked yet (R396). -/
def State.releaseReady (s : State) : State :=
  let ws := s.gate.waiting
  (ws.foldl (State.judge State.perform) { s with gate := { s.gate with waiting := [] } }).settle

/-- Whether a message is a CONFIG_READ, which the gate answers before READY (R396). -/
def isRead (i : Instr) : Bool :=
  match inbound i with
  | some (_, type, _) => type == 2
  | none => false

/-- The gate link of a host's messages (R339). -/
def hostLink : HostId → Fin 2
  | .a => 0
  | .b => 1

/-- Whether a host's message cannot cross its gate link: the link has no credit, or an earlier message of the host waits
for one (R17, R47). -/
def State.linkHolds (s : State) (h : HostId) : Bool :=
  s.stalled (.gateLink (hostLink h) true) || s.gate.blocked.any fun i => (inbound i).any fun x => x.1.host == h

/-- The gate holds a message before its link (R17): HOST-A applies PCIe flow control, HOST-B sends a PAUSE frame. -/
def State.block (s : State) (i : Instr) (h : HostId) : State :=
  { s with gate := { s.gate with
    blocked := s.gate.blocked ++ [i], pauses := s.gate.pauses + (match h with | .a => 0 | .b => 1) } }

/-- A message or access arrives. Nothing reaches a module that is OFF, and only a WAKE over HOST-B one that is DORMANT
(R351); no message crosses while both gate links are down (R339), or without a credit (R17). Before READY every message
but CONFIG_READ waits (R396), and the supervisor is in reset until every bank is cleared (R262). -/
def State.arriveOne (s : State) (i : Instr) : State :=
  match s.power.mode with
  | .off => s
  | .dormant => s
  | .start =>
    match inbound i with
    | none => if s.startDone then s.perform i else s
    | some (m, type, payload) =>
      if s.fld F.GTE_STATUS_LINK = 0 then s
      else if s.linkHolds m.host then s.block i m.host
      else
        match s.admitB m type payload with
        | (s, false) => s
        | (s, true) => if isRead i then s.judge State.act i else s.holdMsg i
  | .on =>
    match inbound i with
    | none => s.perform i
    | some (m, type, payload) =>
      if s.fld F.GTE_STATUS_LINK = 0 then s
      else if s.linkHolds m.host then s.block i m.host
      else
        match s.admitB m type payload with
        | (s, false) => s
        | (s, true) =>
          let s := s.judge State.performNew i
          if forSup i && m.host == .a && s.gate.waiting.any wasBehind then s.retry else s

/-- The messages and accesses that a PCIe access of HOST-A becomes (R346): a BAR0 access one for each double word, in
ascending order, and a BAR2 write an IMAGE_CHUNK with DEST 0 for each run of bytes that it enables. -/
def tlpParts : Instr → List Instr
  | .configWrite (.gate m) a mask data =>
    match m.host, m.tlp with
    | .a, .more rest =>
      let m : Msg := { m with tlp := .one }
      .configWrite (.gate m) a mask data ::
        (rest.zipIdx 1).map fun (x, n) => .configWrite (.gate m) (a + BitVec.ofNat 32 (4 * n)) x.1 x.2
    | .a, .bar2 =>
      (List.range 4).filterMap fun i =>
        if mask.getLsbD i && (i == 0 || !mask.getLsbD (i - 1)) then
          let bs := (((List.range 4).drop i).takeWhile fun j => mask.getLsbD j).map fun j => byteOf data j
          some (.imageChunk (barChunk m bs) 0 (a + BitVec.ofNat 32 i) bs)
        else none
    | _, _ => [.configWrite (.gate m) a mask data]
  | .configRead (.gate m) a =>
    match m.host, m.tlp with
    | .a, .more rest =>
      let m : Msg := { m with tlp := .one }
      .configRead (.gate m) a :: (rest.zipIdx 1).map fun (_, n) => .configRead (.gate m) (a + BitVec.ofNat 32 (4 * n))
    | _, _ => [.configRead (.gate m) a]
  | .imageChunk m dest off data =>
    match m.host, m.tlp with
    | .a, .bar2 => [.imageChunk (barChunk m data) 0 off data]
    | _, _ => [.imageChunk m dest off data]
  | i => [i]
where
  /-- The header of the IMAGE_CHUNK that a BAR2 write becomes. -/
  barChunk (m : Msg) (data : List Byte) : Msg :=
    { m with type := none, flags := 0, tenant := 0xFFFF, epoch := 0xFFFF, len := BitVec.ofNat 16 (8 + data.length) }

/-- Whether an access is a read of BAR2, which completes with zero (R346), or with no completion in a module that is not
powered. -/
def isBar2Read : Instr → Option Msg
  | .configRead (.gate m) _ => if m.host == .a && m.tlp == .bar2 then some m else none
  | _ => none

/-- A message or an access arrives, whole. -/
def State.arrive (s : State) (i : Instr) : State :=
  match isBar2Read i with
  | some m => if s.power.mode = .start || s.power.mode = .on then s.reply { m with tenant := 0xFFFF } true 0 0 else s
  | none => (tlpParts i).foldl State.arriveOne s

/-- A credit of a gate link has returned, or its traffic has moved: the messages that it held come in, in order. -/
def State.unblock (s : State) : State :=
  s.gate.blocked.foldl State.arriveOne { s with gate := { s.gate with blocked := [] } }

end Sys2Proof.Machine
end

