-- ==== Sys2Proof/Machine/Messages.lean ====
section
/-! DEFINITION. The commands that are gate messages, the host side of the gate (R339, R346, R347), and the events that
release what the gate has kept back. -/

namespace Sys2Proof.Machine

/-! TENANT_CMD (R341, R342). -/

/-- LOAD. -/
def execLoad (m : Msg) (a : LoadArgs) (pick : Nat) (s : State) : Out := .next (s.arrive (.load m a pick))

/-- START. -/
def execStart (m : Msg) (at_ : Nat) (s : State) : Out := .next (s.arrive (.start m at_))

/-- HOLD. -/
def execHold (m : Msg) (s : State) : Out := .next (s.arrive (.hold m))

/-- RESUME. -/
def execResume (m : Msg) (at_ : Nat) (s : State) : Out := .next (s.arrive (.resume m at_))

/-- RESET. -/
def execReset (m : Msg) (s : State) : Out := .next (s.arrive (.reset m))

/-- PARK. -/
def execPark (m : Msg) (s : State) : Out := .next (s.arrive (.park m))

/-- UNPARK. -/
def execUnpark (m : Msg) (at_ : Nat) (s : State) : Out := .next (s.arrive (.unpark m at_))

/-- MOVE. -/
def execMove (m : Msg) (slot : Half) (pick : Nat) (s : State) : Out := .next (s.arrive (.move m slot pick))

/-- MAIL. -/
def execMail (m : Msg) (len : Byte) (data : List Byte) (s : State) : Out := .next (s.arrive (.mail m len data))

/-! The other messages. -/

/-- IMAGE_CHUNK (R343, R377). -/
def execImageChunk (m : Msg) (dest : Byte) (off : Word) (data : List Byte) (s : State) : Out :=
  .next (s.arrive (.imageChunk m dest off data))

/-- OVERLAY_WRITE (R172). -/
def execOverlayWrite (m : Msg) (batch : Byte) (off : Word) (data : List Byte) (s : State) : Out :=
  .next (s.arrive (.overlayWrite m batch off data))

/-- PREVIEW_REQ (R344). -/
def execPreviewReq (m : Msg) (kind path : Byte) (frames : Half) (s : State) : Out :=
  .next (s.arrive (.previewReq m kind path frames))

/-- The LANTERN samples in the 1 ms for which a WAKE drives source 364 (R306, R351). -/
def wakeSamples : Nat := 32

/-- A WAKE over HOST-B that reaches a module in DORMANT (R351): after the checks, source 364 is driven for 1 ms. -/
def State.dormantWake (s : State) (m : Msg) : State :=
  let type := msgType m 7
  match s.admitB m type [] with
  | (s, false) => s
  | (s, true) =>
    if lengthOk m type [] then { s with power := { s.power with wakeDrive := wakeSamples } } else s.gateDrop 4 type none

/-- WAKE (R351). -/
def execWake (m : Msg) (s : State) : Out :=
  if s.power.mode = .dormant then .next (if m.host = .b then s.dormantWake m else s) else .next (s.arrive (.wake m))

/-! Gate links (R339). -/

/-- A gate link fails: its credits are recovered, and the traffic of both hosts moves to the other link. -/
def execGateLinkFail (l : Fin 2) (s : State) : Out :=
  let up := s.fld F.GTE_STATUS_LINK
  .next ((s.setFld F.GTE_STATUS_LINK (up &&& (2 - l.val))).grantCredits [.gateLink l false, .gateLink l true]).unblock

/-! Credits (R17). -/

/-- A receiver returns a credit (R17, R21). One of a gate link lets in what the gate holds before it, and
one of a port's ingress a message that the port holds. -/
def execCreditReturn (p : Path) (s : State) : Out :=
  if !s.pathOpen p then .next s
  else
    match p with
    | .gateLink _ true => .next (s.creditBack p).unblock
    | .ingress q => .next ((s.creditBack p).openInbox q)
    | _ => .next (s.creditBack p)

/-! The rings in host memory (R347). -/

/-- Held messages written into the completion ring while it has room, `n` of them at most. -/
def Gate.drain : Nat → Gate → Gate
  | 0, g => g
  | n + 1, g =>
    match g.held with
    | [] => g
    | m :: r => if g.cqRoom then Gate.drain n ({ g with held := r }.cqWrite m) else g

/-- Room has returned: held messages are written, and once none is left, one EVENT is sent for each source whose EVENT was
not queued and that qualifies. -/
def State.cqRefill (s : State) : State :=
  let s := { s with gate := s.gate.drain s.gate.held.length }
  if s.gate.held = [] then
    let ns := if s.bit F.GTE_CTRL_EVT_A then s.gate.missed.eraseDups.filter (s.qualifies 3) else []
    let s := { s with gate := { s.gate with missed := [] } }
    ns.foldl (fun s n =>
      let m : HostMsg := .event 1 (BitVec.ofNat 16 n) (BitVec.ofNat 8 (s.miqFld (F.MIQ_SRC_VECTOR n))) []
      { s with gate := s.gate.toA m }) s
  else s

/-- The definition of a BAR4 word. -/
def bar4Def (off : Nat) : WordDef := wordOf rowsBAR4 off

/-- A host write to a BAR4 word: RO fields stay. The messages that a write to SQ_TAIL submits are commands of their own,
each of which takes its slot. -/
def Gate.bar4Write (g : Gate) (off : Nat) (v : Word) : Gate :=
  { g with bar4 := Store.set 0 g.bar4 (off / 4) (blend (BitVec.ofNat 32 (bar4Def off).rw) v (g.bar4Word (off / 4))) }

/-- A write to CQ_HEAD frees the slots before it. -/
def Gate.freeSlots (g : Gate) (old : Nat) : Gate :=
  let size := g.fld F.BAR4_CQ_SIZE_SIZE
  { g with cq := g.cq.drop ((g.fld F.BAR4_CQ_HEAD_HEAD + size - old % size) % size) }

/-- Both rings emptied: the module's pointers stand at the host's. -/
def Gate.emptyRings (g : Gate) : Gate :=
  let g := g.setFld F.BAR4_SQ_HEAD_HEAD (g.fld F.BAR4_SQ_TAIL_TAIL)
  { g with cq := [] }.setFld F.BAR4_CQ_TAIL_TAIL (g.fld F.BAR4_CQ_HEAD_HEAD)

/-- Whether the host side of the gate is powered. -/
def State.hostUp (s : State) : Bool := s.power.mode == .start || s.power.mode == .on

/-- A write of HOST-A to SQ_TAIL (R347). -/
def execSqTail (v : Word) (s : State) : Out :=
  if s.hostUp then .next { s with gate := s.gate.bar4Write 0x14 v } else .next s

/-- A write of HOST-A to CQ_HEAD (R347). -/
def State.cqHeadWrite (s : State) (v : Word) : State :=
  let old := s.gate.fld F.BAR4_CQ_HEAD_HEAD
  { s with gate := (s.gate.bar4Write 0x2C v).freeSlots old }.cqRefill

/-- CQ_HEAD. -/
def execCqHead (v : Word) (s : State) : Out := if s.hostUp then .next (s.cqHeadWrite v) else .next s

/-- A write of HOST-A to RING_CTRL, or to a BAR4 word without a row of its own: word `off` (R347). -/
def execRingCtrl (off : Fin 14) (v : Word) (s : State) : Out :=
  if !s.hostUp then .next s
  else
    match off.val with
    | 11 => .next (s.cqHeadWrite v)
    | 0 =>
      let g := s.gate.bar4Write 0 v
      if v.getLsbD 0 then .next { s with gate := g }.cqRefill else .next { s with gate := g.emptyRings }
    | n => .next { s with gate := s.gate.bar4Write (4 * n) v }

/-! COUNTERS (R347). -/

/-- The pages that CNT_LIST names. -/
def State.counterPages (s : State) : List Nat :=
  (List.range 8).filterMap fun k =>
    if s.bit (F.GTE_CNT_LIST_EN k) then some (0x1000 * s.fld (F.GTE_CNT_LIST_PAGE k)) else none

/-- A counter of a page read; an offset without a register reads 0. -/
def State.readCounter (s : State) (a : Nat) : State × Word :=
  match pageOf a with
  | none => (s, 0)
  | some p =>
    if p.hasReg (a - p.base) then
      let s := s.accrue p a
      (s.readEffect p .sup a, s.readValue p .sup a)
    else (s, 0)

/-- The COUNTERS message of a page. -/
def State.sendCounters (s : State) (page : Nat) : State :=
  let (s, ws) := (List.range 64).foldl (fun (s, ws) i =>
    let (s, w) := s.readCounter (page + 0xF00 + 4 * i)
    (s, ws ++ [w])) (s, [])
  s.toHosts (.counters (BitVec.ofNat 32 page) ws)

/-- CNT_PERIOD milliseconds have passed (R347). -/
def execCounters (s : State) : Out :=
  if s.power.mode = .on && s.fld F.GTE_CNT_PERIOD_MS != 0 then .next (s.counterPages.foldl State.sendCounters s)
  else .next s

/-! Events that release what has waited. -/

/-- The accesses and messages that wait for a tenant between placements are applied at its new placement (R13). -/
def execHeldAccessApply (t : Tn) (s : State) : Out :=
  if !s.between t.val && s.gate.waiting.any fun w => concerns w == some t.val then .next s.release else .next s

/-- The supervisor takeover is complete (R294): the failovers and the messages that waited proceed. One that waits for
the boot of the standby is not (R380). -/
def execSupTakeoverDone (s : State) : Out :=
  if s.supBusy && !s.fwu.failed then .next ((s.setBit F.MOD_CONT_STATUS_SUP_TAKEOVER false).proceed.release) else .next s

/-- NVS performs the next queued page write (R352), and what waited for room goes on (R355). -/
def execNvsPageWrite (ok : Bool) (s : State) : Out := .next (s.nvsStep ok).release

/-- READY (R395, step 5, R396). -/
def execReady (s : State) : Out := if s.startDone then .next s.setReady.releaseReady else .next s

/-- ENGINES_UP (R422). -/
def execEnginesUp (s : State) : Out := if s.enginesReady then .next s.enginesUp.release else .next s

/-- PFW clears (R360, R393). -/
def execPfwCleared (s : State) : Out := if s.pfwEnds then .next s.pfwClear.release else .next s

end Sys2Proof.Machine
end

