-- ==== Sys2Proof/Machine/BusRows.lean ====
section
/-! DEFINITION. The commands that are page-bus accesses. Each is a CONFIG_WRITE or CONFIG_READ of one address, through the
gate or from the active supervisor; a row that names one value of a field writes that value, with the other bits as
given. -/

namespace Sys2Proof.Machine

/-- A write access as it arrives. -/
def State.put (s : State) (src : BusSrc) (a : Nat) (mask : BitVec 4) (data : Word) : State :=
  s.arrive (.configWrite src (BitVec.ofNat 32 a) mask data)

/-! Any register (R30, R31, R42). -/

/-- CONFIG_WRITE. -/
def execConfigWrite (src : BusSrc) (addr : Word) (mask : BitVec 4) (data : Word) (s : State) : Out :=
  .next (s.arrive (.configWrite src addr mask data))

/-- CONFIG_READ. -/
def execConfigRead (src : BusSrc) (addr : Word) (s : State) : Out := .next (s.arrive (.configRead src addr))

/-- A read of an RC counter, with an increment in the same cycle or without (R7). -/
def execRcCounterRead (src : BusSrc) (addr : Word) (inc : Bool) (s : State) : Out :=
  .next (s.arrive (.rcCounterRead src addr inc))

/-- A read of a LO half or of RTC.TIME (R318, R363). -/
def execLatchedRead (src : BusSrc) (addr : Word) (s : State) : Out := .next (s.arrive (.configRead src addr))

/-! CTRL and EXPERT_KEY (R38, R45). -/

/-- A write to CTRL of a page, for its OWNER. -/
def execOwnerWrite (src : BusSrc) (page : Word) (mask : BitVec 4) (data : Word) (s : State) : Out :=
  .next (s.put src (onPage page 0x08) mask data)

/-- A write to EXPERT_KEY of a page. -/
def execExpertKey (src : BusSrc) (page : Word) (mask : BitVec 4) (data : Word) (s : State) : Out :=
  .next (s.put src (onPage page 0x10) mask data)

/-- A write to CTRL of a page that sets EXPERT. -/
def execExpertSet (src : BusSrc) (page : Word) (mask : BitVec 4) (data : Word) (s : State) : Out :=
  .next (s.put src (onPage page 0x08) mask (setBits data 1 1 1))

/-! MOD and PWR, CLK. -/

/-- MOD.CTRL.EN set (R422). -/
def execModEnable (src : BusSrc) (mask : BitVec 4) (data : Word) (s : State) : Out :=
  .next (s.put src 0x08 mask (setBits data 0 1 1))

/-- MOD.CTRL.EN cleared (R422). -/
def execModDisable (src : BusSrc) (mask : BitVec 4) (data : Word) (s : State) : Out :=
  .next (s.put src 0x08 mask (setBits data 0 1 0))

/-- MOD.READMIT with GO (R293). -/
def execReadmit (src : BusSrc) (mask : BitVec 4) (data : Word) (s : State) : Out :=
  .next (s.put src 0x64 mask (setBits data 31 1 1))

/-- PWR.CMD PARK (R388). -/
def execPowerPark (src : BusSrc) (mask : BitVec 4) (data : Word) (s : State) : Out :=
  .next (s.put src 0x1020 mask (setBits data 0 2 1))

/-- PWR.CMD RUN (R389). -/
def execPowerRun (src : BusSrc) (mask : BitVec 4) (data : Word) (s : State) : Out :=
  .next (s.put src 0x1020 mask (setBits data 0 2 2))

/-- PWR.CMD DORMANT (R391). -/
def execPowerDormant (src : BusSrc) (mask : BitVec 4) (data : Word) (s : State) : Out :=
  .next (s.put src 0x1020 mask (setBits data 0 2 3))

/-- CLK.RST_PORT (R404). -/
def execPortReset (src : BusSrc) (mask : BitVec 4) (data : Word) (s : State) : Out := .next (s.put src 0x2040 mask data)

/-! GTE, RTC, FWU, PNL. -/

/-- GTE.KEY_CTRL.COMMIT (R350). -/
def execKeyCommit (src : BusSrc) (mask : BitVec 4) (data : Word) (s : State) : Out :=
  .next (s.put src 0x30C0 mask (setBits data 0 1 1))

/-- RTC.CMD.COMMIT (R364). -/
def execRtcCommit (src : BusSrc) (mask : BitVec 4) (data : Word) (s : State) : Out :=
  .next (s.put src 0x5030 mask (setBits data 0 1 1))

/-- FWU.CMD OPEN (R376). -/
def execFwuOpen (src : BusSrc) (mask : BitVec 4) (data : Word) (s : State) : Out :=
  .next (s.put src 0x6020 mask (setBits data 0 4 1))

/-- FWU.CMD VERIFY (R377). -/
def execFwuVerify (src : BusSrc) (mask : BitVec 4) (data : Word) (s : State) : Out :=
  .next (s.put src 0x6020 mask (setBits data 0 4 2))

/-- FWU.CMD ACTIVATE (R378). -/
def execFwuActivate (src : BusSrc) (mask : BitVec 4) (data : Word) (s : State) : Out :=
  .next (s.put src 0x6020 mask (setBits data 0 4 3))

/-- FWU.CMD CONFIRM (R381). -/
def execFwuConfirm (src : BusSrc) (mask : BitVec 4) (data : Word) (s : State) : Out :=
  .next (s.put src 0x6020 mask (setBits data 0 4 4))

/-- FWU.CMD ROLLBACK (R382). -/
def execFwuRollback (src : BusSrc) (mask : BitVec 4) (data : Word) (s : State) : Out :=
  .next (s.put src 0x6020 mask (setBits data 0 4 5))

/-- FWU.CMD ABORT (R377). -/
def execFwuAbort (src : BusSrc) (mask : BitVec 4) (data : Word) (s : State) : Out :=
  .next (s.put src 0x6020 mask (setBits data 0 4 6))

/-- PNL.CMD.UPDATE (R369). -/
def execPanelUpdate (src : BusSrc) (mask : BitVec 4) (data : Word) (s : State) : Out :=
  .next (s.put src 0x8020 mask (setBits data 0 1 1))

/-! Module timers, PIO, timebases. -/

/-- MTM.CTRL.RESTART (R317). -/
def execMtRestart (src : BusSrc) (i : Fin 8) (mask : BitVec 4) (data : Word) (s : State) : Out :=
  .next (s.put src (0xA008 + 0x1000 * i) mask (setBits data 6 1 1))

/-- A write to a half of PERIOD, DUTY or PHASE (R319). -/
def execHalfWrite (src : BusSrc) (addr : Word) (mask : BitVec 4) (data : Word) (s : State) : Out :=
  .next (s.put src addr.toNat mask data)

/-- PIO.GROUP_START (R336). -/
def execGroupStart (src : BusSrc) (i : Fin 4) (mask : BitVec 4) (data : Word) (s : State) : Out :=
  .next (s.put src (0x16020 + 0x1000 * i) mask data)

/-- PIO.GROUP_STOP (R336). -/
def execGroupStop (src : BusSrc) (i : Fin 4) (mask : BitVec 4) (data : Word) (s : State) : Out :=
  .next (s.put src (0x16024 + 0x1000 * i) mask data)

/-- PIO.CLK_RESTART (R336). -/
def execClkRestart (src : BusSrc) (i : Fin 4) (mask : BitVec 4) (data : Word) (s : State) : Out :=
  .next (s.put src (0x16028 + 0x1000 * i) mask data)

/-- A write to a PIO channel's TXF (R335). -/
def execTxf (src : BusSrc) (i : Fin 4) (j : Fin 32) (mask : BitVec 4) (data : Word) (s : State) : Out :=
  .next (s.put src (0x16908 + 0x1000 * i + 0x30 * j) mask data)

/-- A read of a PIO channel's RXF (R335). -/
def execRxf (src : BusSrc) (i : Fin 4) (j : Fin 32) (s : State) : Out :=
  .next (s.arrive (.configRead src (BitVec.ofNat 32 (0x1690C + 0x1000 * i + 0x30 * j))))

/-- TBS.TB_CTL.COMMIT (R59). -/
def execTbCommit (src : BusSrc) (n : Fin 4) (mask : BitVec 4) (data : Word) (s : State) : Out :=
  .next (s.put src (0x1A034 + 0x20 * n) mask (setBits data 1 1 1))

/-! PSH and STN. -/

/-- PSH.SINK_CTRL.SWAP of a sink (R227). -/
def execSinkSwap (src : BusSrc) (i : Fin 8) (mask : BitVec 4) (data : Word) (s : State) : Out :=
  .next (s.put src (0x1B100 + 0x100 * i) mask (setBits data 1 1 1))

/-- ENT_CTRL.EN set (R207). -/
def execEntryEnable (src : BusSrc) (e : Ent) (mask : BitVec 4) (data : Word) (s : State) : Out :=
  .next (s.put src (entCtrl e) mask (setBits data 0 1 1))

/-- ENT_CTRL.EN cleared (R198, R200). -/
def execEntryDisable (src : BusSrc) (e : Ent) (mask : BitVec 4) (data : Word) (s : State) : Out :=
  .next (s.put src (entCtrl e) mask (setBits data 0 1 0))

/-- ENT_CTRL.FORCE_RESYNC (R206). -/
def execForceResync (src : BusSrc) (e : Ent) (mask : BitVec 4) (data : Word) (s : State) : Out :=
  .next (s.put src (entCtrl e) mask (setBits data 8 1 1))

/-! Tenant pages. -/

/-- TEN.OVL_CTRL.COMMIT of a tenant (R170). -/
def execOverlayCommit (src : BusSrc) (t : Tn) (mask : BitVec 4) (data : Word) (s : State) : Out :=
  .next (s.put src (0x1000200 + 0x10000 * t) mask (setBits data 24 1 1))

/-- SAV.ERASE of a tenant (R361). -/
def execErase (src : BusSrc) (t : Tn) (mask : BitVec 4) (data : Word) (s : State) : Out :=
  .next (s.put src (0x100D0A0 + 0x10000 * t) mask (setBits data 0 1 1))

end Sys2Proof.Machine
end

