-- ==== Sys2Proof/Machine/CpuArith16.lean ====
section
/-! DEFINITION. Zetik-8: 16-bit arithmetic, selects and decimal strings (R117, R118, R121, R124 to R127). -/

namespace Sys2Proof.Machine

/-- ADDW (R117). -/
def execAddw (k : Tn) (cc : Cond) (wd ws : Fin 4) (s : State) : Out :=
  runCpu k cc (.addw k cc wd ws) (regEff 2 fun c => c.put16 wd (addRes (c.w wd) (c.w ws) false).noH) s

/-- ADCW (R117). -/
def execAdcw (k : Tn) (cc : Cond) (wd ws : Fin 4) (s : State) : Out :=
  runCpu k cc (.adcw k cc wd ws) (regEff 2 fun c => c.put16 wd (addRes (c.w wd) (c.w ws) c.fC).noH) s

/-- SUBW (R117). -/
def execSubw (k : Tn) (cc : Cond) (wd ws : Fin 4) (s : State) : Out :=
  runCpu k cc (.subw k cc wd ws) (regEff 2 fun c => c.put16 wd (subRes (c.w wd) (c.w ws) false).noH) s

/-- SBCW (R117). -/
def execSbcw (k : Tn) (cc : Cond) (wd ws : Fin 4) (s : State) : Out :=
  runCpu k cc (.sbcw k cc wd ws) (regEff 2 fun c => c.put16 wd (subRes (c.w wd) (c.w ws) c.fC).noH) s

/-- CMPW (R117). -/
def execCmpw (k : Tn) (cc : Cond) (wd ws : Fin 4) (s : State) : Out :=
  runCpu k cc (.cmpw k cc wd ws) (regEff 2 fun c => c.setFlags (subRes (c.w wd) (c.w ws) false).noH) s

/-- ADDIW (R117). -/
def execAddiw (k : Tn) (cc : Cond) (wd : Fin 4) (i16 : Half) (s : State) : Out :=
  runCpu k cc (.addiw k cc wd i16) (regEff 2 fun c => c.put16 wd (addRes (c.w wd) i16 false).noH) s

/-- CMPIW (R117). -/
def execCmpiw (k : Tn) (cc : Cond) (wd : Fin 4) (i16 : Half) (s : State) : Out :=
  runCpu k cc (.cmpiw k cc wd i16) (regEff 2 fun c => c.setFlags (subRes (c.w wd) i16 false).noH) s

/-- INCW: Z and N alone (R117). -/
def execIncw (k : Tn) (cc : Cond) (wd : Fin 4) (s : State) : Out :=
  runCpu k cc (.incw k cc wd) (regEff 1 fun c => c.put16 wd (znRes (c.w wd + 1))) s

/-- DECW: Z and N alone (R117). -/
def execDecw (k : Tn) (cc : Cond) (wd : Fin 4) (s : State) : Out :=
  runCpu k cc (.decw k cc wd) (regEff 1 fun c => c.put16 wd (znRes (c.w wd - 1))) s

/-- EXT: the low byte sign-extended (R118). -/
def execExt (k : Tn) (cc : Cond) (wd : Fin 4) (s : State) : Out :=
  runCpu k cc (.ext k cc wd) (regEff 1 fun c => c.put16 wd (znRes ((byteOf (c.w wd) 0).signExtend 16))) s

/-- MUL: unsigned (R118). -/
def execMul (k : Tn) (cc : Cond) (wd : Fin 4) (ga gb : Fin 8) (s : State) : Out :=
  runCpu k cc (.mul k cc wd ga gb) (regEff 4 fun c => c.put16 wd (mulRes (c.g ga) (c.g gb))) s

/-- SEL: gd takes ga when its own condition holds at the first cycle, else gb (R121). -/
def execSel (k : Tn) (cc : Cond) (gd ga gb : Fin 8) (sc : Cond) (s : State) : Out :=
  runCpu k cc (.sel k cc gd ga gb sc) (fun g t =>
    regEff 2 (fun c => c.setG gd (if t.holds g sc then c.g ga else c.g gb)) g t) s

/-- SELW: as SEL, 16 bits wide (R121). -/
def execSelw (k : Tn) (cc : Cond) (wd wa wb : Fin 4) (sc : Cond) (s : State) : Out :=
  runCpu k cc (.selw k cc wd wa wb sc) (fun g t =>
    regEff 2 (fun c => c.setW wd (if t.holds g sc then c.w wa else c.w wb)) g t) s

/-- CNVB.D (R127). -/
def execCnvbD (k : Tn) (cc : Cond) (wd : Fin 4) (s : State) : Out :=
  runCpu k cc (.cnvbD k cc wd) (regEff 6 fun c => c.put16 wd (cnvDRes (c.w wd))) s

/-- CNVB.B (R127). -/
def execCnvbB (k : Tn) (cc : Cond) (wd : Fin 4) (s : State) : Out :=
  runCpu k cc (.cnvbB k cc wd) (regEff 6 fun c => c.put16 wd (cnvBRes (c.w wd))) s

/-- ADDP, SUBP and CMPP (R124 to R126): `n` bytes from each string, read in the first cycle; the result
bytes written in the last one where `write` says so. The instruction is one access (R269): where its
reading has counted a violation, its writing counts none, and its forbidden bytes are ignored. -/
def stringEff (pd ps : Fin 4) (n1 : BitVec 4) (carry write : Bool)
    (f : List (Nat × Nat) → Nat → List Nat × Nat) (g : Geo) (t : Tenant) : Tenant :=
  let c := t.core.cpu
  let n := n1.toNat + 1
  let ds := addrs (c.p pd) n
  let both := ds ++ addrs (c.p ps) n
  let bad := both.any fun a => (t.readByte g t.core.now a).isNone
  let (t, bs) := t.cpuRead g t.core.now both
  let xs := bs.take n
  let ys := bs.drop n
  let (zs, co) := f ((digits xs).zip (digits ys)) (if carry then c.fC.toNat else 0)
  let t := t.onCpu fun c => c.setFlags (stringFlags (digits xs) (digits ys) zs co)
  let ws := ds.zip (undigits zs)
  if write then
    t.finish g (2 + 3 * n) (if bad then ws.filter fun w => cpuWritable w.1.toNat else ws)
  else t.finish g (2 + 2 * n) []

/-- ADDP (R124). -/
def execAddp (k : Tn) (cc : Cond) (pd ps : Fin 4) (n1 : BitVec 4) (c : Bool) (s : State) : Out :=
  runCpu k cc (.addp k cc pd ps n1 c) (stringEff pd ps n1 c true addDigits) s

/-- SUBP (R124). -/
def execSubp (k : Tn) (cc : Cond) (pd ps : Fin 4) (n1 : BitVec 4) (c : Bool) (s : State) : Out :=
  runCpu k cc (.subp k cc pd ps n1 c) (stringEff pd ps n1 c true subDigits) s

/-- CMPP (R124). -/
def execCmpp (k : Tn) (cc : Cond) (pd ps : Fin 4) (n1 : BitVec 4) (c : Bool) (s : State) : Out :=
  runCpu k cc (.cmpp k cc pd ps n1 c) (stringEff pd ps n1 c false subDigits) s


end Sys2Proof.Machine
end

