-- ==== Sys2Proof/Machine/CpuArith8.lean ====
section
/-! DEFINITION. Zetik-8: 8-bit arithmetic and logic (R117, R118, R122, R123). -/

namespace Sys2Proof.Machine

/-- ADD (R117, R118). -/
def execAdd (k : Tn) (cc : Cond) (gd gs : Fin 8) (s : State) : Out :=
  runCpu k cc (.add k cc gd gs) (regEff 1 fun c => c.put8 gd (addRes (c.g gd) (c.g gs) false)) s

/-- ADC (R117, R118). -/
def execAdc (k : Tn) (cc : Cond) (gd gs : Fin 8) (s : State) : Out :=
  runCpu k cc (.adc k cc gd gs) (regEff 1 fun c => c.put8 gd (addRes (c.g gd) (c.g gs) c.fC)) s

/-- SUB (R117, R118). -/
def execSub (k : Tn) (cc : Cond) (gd gs : Fin 8) (s : State) : Out :=
  runCpu k cc (.sub k cc gd gs) (regEff 1 fun c => c.put8 gd (subRes (c.g gd) (c.g gs) false)) s

/-- SBC (R117, R118). -/
def execSbc (k : Tn) (cc : Cond) (gd gs : Fin 8) (s : State) : Out :=
  runCpu k cc (.sbc k cc gd gs) (regEff 1 fun c => c.put8 gd (subRes (c.g gd) (c.g gs) c.fC)) s

/-- AND (R118). -/
def execAnd (k : Tn) (cc : Cond) (gd gs : Fin 8) (s : State) : Out :=
  runCpu k cc (.and k cc gd gs) (regEff 1 fun c => c.put8 gd (logicRes (c.g gd &&& c.g gs))) s

/-- OR (R118). -/
def execOr (k : Tn) (cc : Cond) (gd gs : Fin 8) (s : State) : Out :=
  runCpu k cc (.or k cc gd gs) (regEff 1 fun c => c.put8 gd (logicRes (c.g gd ||| c.g gs))) s

/-- XOR (R118). -/
def execXor (k : Tn) (cc : Cond) (gd gs : Fin 8) (s : State) : Out :=
  runCpu k cc (.xor k cc gd gs) (regEff 1 fun c => c.put8 gd (logicRes (c.g gd ^^^ c.g gs))) s

/-- CMP: SUB with the result discarded (R117, R118). -/
def execCmp (k : Tn) (cc : Cond) (gd gs : Fin 8) (s : State) : Out :=
  runCpu k cc (.cmp k cc gd gs) (regEff 1 fun c => c.setFlags (subRes (c.g gd) (c.g gs) false)) s

/-- ADDI: g0 or gd (R117, R118). -/
def execAddi (k : Tn) (cc : Cond) (f : ImmForm) (i8 : Byte) (s : State) : Out :=
  runCpu k cc (.addi k cc f i8) (regEff (immBase f) fun c => c.put8 (immGd f) (addRes (c.g (immGd f)) i8 false)) s

/-- CMPI: g0 or gd (R117, R118). -/
def execCmpi (k : Tn) (cc : Cond) (f : ImmForm) (i8 : Byte) (s : State) : Out :=
  runCpu k cc (.cmpi k cc f i8) (regEff (immBase f) fun c => c.setFlags (subRes (c.g (immGd f)) i8 false)) s

/-- ANDI: g0 or gd (R118). -/
def execAndi (k : Tn) (cc : Cond) (f : ImmForm) (i8 : Byte) (s : State) : Out :=
  runCpu k cc (.andi k cc f i8) (regEff (immBase f) fun c => c.put8 (immGd f) (logicRes (c.g (immGd f) &&& i8))) s

/-- ADCI (R117, R118). -/
def execAdci (k : Tn) (cc : Cond) (gd : Fin 8) (i8 : Byte) (s : State) : Out :=
  runCpu k cc (.adci k cc gd i8) (regEff 2 fun c => c.put8 gd (addRes (c.g gd) i8 c.fC)) s

/-- SUBI (R117, R118). -/
def execSubi (k : Tn) (cc : Cond) (gd : Fin 8) (i8 : Byte) (s : State) : Out :=
  runCpu k cc (.subi k cc gd i8) (regEff 2 fun c => c.put8 gd (subRes (c.g gd) i8 false)) s

/-- SBCI (R117, R118). -/
def execSbci (k : Tn) (cc : Cond) (gd : Fin 8) (i8 : Byte) (s : State) : Out :=
  runCpu k cc (.sbci k cc gd i8) (regEff 2 fun c => c.put8 gd (subRes (c.g gd) i8 c.fC)) s

/-- ORI (R118). -/
def execOri (k : Tn) (cc : Cond) (gd : Fin 8) (i8 : Byte) (s : State) : Out :=
  runCpu k cc (.ori k cc gd i8) (regEff 2 fun c => c.put8 gd (logicRes (c.g gd ||| i8))) s

/-- XORI (R118). -/
def execXori (k : Tn) (cc : Cond) (gd : Fin 8) (i8 : Byte) (s : State) : Out :=
  runCpu k cc (.xori k cc gd i8) (regEff 2 fun c => c.put8 gd (logicRes (c.g gd ^^^ i8))) s

/-- INC: addition of 1 with C unchanged (R117). -/
def execInc (k : Tn) (cc : Cond) (gd : Fin 8) (s : State) : Out :=
  runCpu k cc (.inc k cc gd) (regEff 1 fun c => c.put8 gd ((addRes (c.g gd) 1 false).keepC)) s

/-- DEC: subtraction of 1 with C unchanged (R117). -/
def execDec (k : Tn) (cc : Cond) (gd : Fin 8) (s : State) : Out :=
  runCpu k cc (.dec k cc gd) (regEff 1 fun c => c.put8 gd ((subRes (c.g gd) 1 false).keepC)) s

/-- NEG: 0 − g (R117). -/
def execNeg (k : Tn) (cc : Cond) (gd : Fin 8) (s : State) : Out :=
  runCpu k cc (.neg k cc gd) (regEff 1 fun c => c.put8 gd (subRes 0 (c.g gd) false)) s

/-- NOT (R118). -/
def execNot (k : Tn) (cc : Cond) (gd : Fin 8) (s : State) : Out :=
  runCpu k cc (.not k cc gd) (regEff 1 fun c => c.put8 gd (znRes (~~~c.g gd))) s

/-- SHL (R118). -/
def execShl (k : Tn) (cc : Cond) (gd : Fin 8) (s : State) : Out :=
  runCpu k cc (.shl k cc gd) (regEff 1 fun c => c.put8 gd (shiftRes (c.g gd <<< 1) (c.g gd).msb)) s

/-- SHR (R118). -/
def execShr (k : Tn) (cc : Cond) (gd : Fin 8) (s : State) : Out :=
  runCpu k cc (.shr k cc gd) (regEff 1 fun c => c.put8 gd (shiftRes (c.g gd >>> 1) ((c.g gd).getLsbD 0))) s

/-- ASR (R118). -/
def execAsr (k : Tn) (cc : Cond) (gd : Fin 8) (s : State) : Out :=
  runCpu k cc (.asr k cc gd) (regEff 1 fun c => c.put8 gd (shiftRes ((c.g gd).sshiftRight 1) ((c.g gd).getLsbD 0))) s

/-- ROL: a 9-bit rotate through C (R118). -/
def execRol (k : Tn) (cc : Cond) (gd : Fin 8) (s : State) : Out :=
  runCpu k cc (.rol k cc gd) (regEff 1 fun c => c.put8 gd (shiftRes ((c.g gd).extractLsb' 0 7 ++ BitVec.ofBool c.fC) (c.g gd).msb)) s

/-- ROR: a 9-bit rotate through C (R118). -/
def execRor (k : Tn) (cc : Cond) (gd : Fin 8) (s : State) : Out :=
  runCpu k cc (.ror k cc gd) (regEff 1 fun c => c.put8 gd (shiftRes (BitVec.ofBool c.fC ++ (c.g gd).extractLsb' 1 7) ((c.g gd).getLsbD 0))) s

/-- CLR (R118). -/
def execClr (k : Tn) (cc : Cond) (gd : Fin 8) (s : State) : Out :=
  runCpu k cc (.clr k cc gd) (regEff 1 fun c => c.put8 gd (clrRes)) s

/-- SWAPN: the nibbles are exchanged (R118). -/
def execSwapn (k : Tn) (cc : Cond) (gd : Fin 8) (s : State) : Out :=
  runCpu k cc (.swapn k cc gd) (regEff 1 fun c => c.put8 gd (znRes ((c.g gd).extractLsb' 0 4 ++ (c.g gd).extractLsb' 4 4))) s

/-- TST (R118). -/
def execTst (k : Tn) (cc : Cond) (gs : Fin 8) (s : State) : Out :=
  runCpu k cc (.tst k cc gs) (regEff 1 fun c => c.setFlags (tstRes (c.g gs))) s

/-- DAJ.A (R122). -/
def execDajA (k : Tn) (cc : Cond) (s : State) : Out :=
  runCpu k cc (.dajA k cc) (regEff 1 fun c => c.put8 0 (dajARes (c.g 0) c.fC c.fH)) s

/-- DAJ.S (R123). -/
def execDajS (k : Tn) (cc : Cond) (s : State) : Out :=
  runCpu k cc (.dajS k cc) (regEff 1 fun c => c.put8 0 (dajSRes (c.g 0) c.fC c.fH)) s


end Sys2Proof.Machine
end

