-- ==== Sys2Proof/Machine/CpuControl.lean ====
section
/-! DEFINITION. Zetik-8: control transfer, the system group, and the traps and entries (R93 to R104, R118 to
R120, R128, R129). -/

namespace Sys2Proof.Machine

/-- BRA (R118). -/
def execBra (k : Tn) (cc : Cond) (s8 : BitVec 8) (s : State) : Out :=
  runCpu k cc (.bra k cc s8) (jumpEff 2 2 fun c => rel c.pc s8) s

/-- BRL (R118). -/
def execBrl (k : Tn) (cc : Cond) (s20 : BitVec 20) (s : State) : Out :=
  runCpu k cc (.brl k cc s20) (jumpEff 3 4 fun c => rel c.pc s20) s

/-- JMP (R118). -/
def execJmp (k : Tn) (cc : Cond) (pk : Fin 4) (s : State) : Out :=
  runCpu k cc (.jmp k cc pk) (jumpEff 3 4 fun c => c.p pk) s

/-- CALL in its three forms (R101, R118). -/
def execCall (k : Tn) (cc : Cond) (f : CallForm) (s : State) : Out :=
  runCpu k cc (.call k cc f) (match f with
    | .rel8 d => callEff 2 2 fun c => rel c.pc d
    | .rel20 d => callEff 3 4 fun c => rel c.pc d
    | .ptr pk => callEff 3 4 fun c => c.p pk) s

/-- DBNZ: 3 cycles taken, 2 not taken (R118). -/
def execDbnz (k : Tn) (cc : Cond) (gd : Fin 8) (s16 : Half) (s : State) : Out :=
  runCpu k cc (.dbnz k cc gd s16) (fun g t =>
    let v := t.core.cpu.g gd - 1
    let t := t.onCpu fun c => c.setG gd v
    if v = 0 then t.finish g 2 [] else jumpEff 3 4 (fun c => rel c.pc s16) g t) s

/-- RET (R102). -/
def execRet (k : Tn) (cc : Cond) (s : State) : Out :=
  runCpu k cc (.ret k cc) (retEff) s

/-- RTT (R98): CPL, F and pc from the frame at sp, 6 cycles for a short frame and 8 for a long one. DESIGN CHOICE (log
entry 121): all of it, sp too, changes at the first cycle. -/
def rttEff (g : Geo) (t : Tenant) : Tenant :=
  let here := t.here 2
  let (t, bs) := t.cpuRead g t.core.now (addrs t.core.cpu.sp 6)
  let long := (b0 bs).getLsbD 7
  let t := t.onCpu fun c =>
    { c with cpl := (b0 (bs.drop 1)).setWidth 3, f := b0 (bs.drop 2) &&& 0x7F
             sp := c.sp + (if long then 10 else 6) }
  (t.jumpTo here (leVec 24 (bs.drop 3))).finish g (if long then 8 else 6) []

/-- RTT (R98). -/
def execRtt (k : Tn) (cc : Cond) (s : State) : Out :=
  runCpu k cc (.rtt k cc) (rttEff) s

/-- NOP (R118). -/
def execNop (k : Tn) (cc : Cond) (s : State) : Out :=
  runCpu k cc (.nop k cc) (regEff 1 id) s

/-- EI (R118, R120). -/
def execEi (k : Tn) (cc : Cond) (s : State) : Out :=
  runCpu k cc (.ei k cc) (regEff 1 fun c => { c with f := c.f ||| 0x20 }) s

/-- DI (R118, R120). -/
def execDi (k : Tn) (cc : Cond) (s : State) : Out :=
  runCpu k cc (.di k cc) (regEff 1 fun c => { c with f := c.f &&& 0xDF }) s

/-- CLC (R118). -/
def execClc (k : Tn) (cc : Cond) (s : State) : Out :=
  runCpu k cc (.clc k cc) (regEff 1 fun c => { c with f := putBit c.f 0 (some false) }) s

/-- SEC (R118). -/
def execSec (k : Tn) (cc : Cond) (s : State) : Out :=
  runCpu k cc (.sec k cc) (regEff 1 fun c => { c with f := putBit c.f 0 (some true) }) s

/-- CMC (R118). -/
def execCmc (k : Tn) (cc : Cond) (s : State) : Out :=
  runCpu k cc (.cmc k cc) (regEff 1 fun c => { c with f := putBit c.f 0 (some !c.fC) }) s

/-- WAIT (R99): the wait begins at the tenant's cycle; WAIT_WAKE ends it. -/
def execWait (k : Tn) (cc : Cond) (s : State) : Out :=
  runCpu k cc (.wait k cc) (fun _ t => t.onCpu fun c => { c with wait := some t.core.now }) s

/-- The end of a WAIT (R99): at the first cycle at which a waking condition holds; the next boundary
is the cycle after it. -/
def execWaitWake (k : Tn) (s : State) : Out :=
  let g := s.geo k
  let t := s.tenant k
  let t := t.prep g t.core.now
  let quiet := allEvents.all fun x => match t.due g x with
    | some c => decide (t.core.now < c)
    | none => true
  if t.executes && t.core.cpu.wait.isSome && t.ring.isNone && quiet && t.wakes then
    let t := t.onCpu fun c => { c with wait := none }
    .next (s.setTenant k { t with core := { t.core with now := t.core.now + 1 } })
  else .next s

/-- FENCE (R128): one cycle when nothing that the tenant launched is outstanding, else the fence is in
progress until FENCE_END. DESIGN CHOICE: an item that a module-view write to GO has launched counts as one that the
tenant launched, also when the write enters at the cycle of the FENCE. -/
def fenceEff (g : Geo) (t : Tenant) : Tenant :=
  let c := t.core
  if c.trail.isNone && c.qdm.isNone && c.dma0.isNone && c.dma1.isNone then t.finish g 1 []
  else t.onCpu fun u => { u with
    fence := some ⟨c.now, c.trail.isSome, c.qdm.isSome, c.dma0.isSome, c.dma1.isSome⟩ }

/-- FENCE (R128, R129). -/
def execFence (k : Tn) (cc : Cond) (s : State) : Out :=
  runCpu k cc (.fence k cc) (fenceEff) s

/-- The end of a FENCE (R128): every item launched before it has completed, at the cycle that the
tenant has reached. -/
def execFenceEnd (k : Tn) (s : State) : Out :=
  let g := s.geo k
  let t := s.tenant k
  let t := t.prep g t.core.now
  let quiet := allEvents.all fun x => match t.due g x with
    | some c => decide (t.core.now < c)
    | none => true
  match t.core.cpu.fence with
  | some f =>
    if t.executes && t.ring.isNone && quiet && !(f.trail || f.qdm || f.dma0 || f.dma1) then
      let t := t.onCpu fun c => { c with fence := none }
      .next (s.setTenant k { t with core := { t.core with now := t.core.now + 1 } })
    else .next s
  | none => .next s

/-- A reserved encoding at pc traps through vector 1 (R96, R115). -/
def execReservedOpcodeTrap (k : Tn) (s : State) : Out :=
  match s.trapReady k with
  | none => .next s
  | some t =>
    match t.fetch (s.geo k) with
    | some (h0, h1) => if (zdecode k h0 h1).isNone then .next (s.trap k t 1) else .next s
    | none => .next s

/-- A forbidden fetch of the instruction at pc traps through vector 2 (R87, R96). -/
def execFetchFault (k : Tn) (s : State) : Out :=
  match s.trapReady k with
  | none => .next s
  | some t => if (t.fetch (s.geo k)).isNone then .next (s.trap k t 2) else .next s

/-- An interrupt accepted at the tenant's boundary (R92, R93). -/
def execInterruptEntry (k : Tn) (s : State) : Out :=
  let g := s.geo k
  match (s.tenant k).atBoundary g with
  | none => .next s
  | some t =>
    match t.interrupt with
    | none => .next s
    | some (n, p) =>
      let c := t.core.cpu
      let t := t.enter g (shortFrame (BitVec.ofNat 8 (16 + n)) c c.pc) (16 + n) 3 (some (BitVec.ofNat 3 p))
      .next (s.setTenant k (t.count F.IRQ_ENTRIES_COUNT))


end Sys2Proof.Machine
end

