-- ==== Sys2Proof/Machine/CpuMove.lean ====
section
/-! DEFINITION. Zetik-8: data movement (R118). -/

namespace Sys2Proof.Machine

/-- MOV: gd takes gs (R118). -/
def execMov (k : Tn) (cc : Cond) (gd gs : Fin 8) (s : State) : Out :=
  runCpu k cc (.mov k cc gd gs) (regEff 1 fun c => c.setG gd (c.g gs)) s

/-- MOVW: wd takes ws (R118). -/
def execMovw (k : Tn) (cc : Cond) (wd ws : Fin 4) (s : State) : Out :=
  runCpu k cc (.movw k cc wd ws) (regEff 1 fun c => c.setW wd (c.w ws)) s

/-- EXG: gd and gs are exchanged (R118). -/
def execExg (k : Tn) (cc : Cond) (gd gs : Fin 8) (s : State) : Out :=
  runCpu k cc (.exg k cc gd gs) (regEff 1 fun c => (c.setG gd (c.g gs)).setG gs (c.g gd)) s

/-- LDI: an immediate byte into g0 or gd (R118). -/
def execLdi (k : Tn) (cc : Cond) (f : ImmForm) (i8 : Byte) (s : State) : Out :=
  runCpu k cc (.ldi k cc f i8) (regEff (immBase f) fun c => c.setG (immGd f) i8) s

/-- LDIW: an immediate pair (R118). -/
def execLdiw (k : Tn) (cc : Cond) (wd : Fin 4) (i16 : Half) (s : State) : Out :=
  runCpu k cc (.ldiw k cc wd i16) (regEff 2 fun c => c.setW wd i16) s

/-- LD: a byte at a pointer form's address (R118); the loaded value and the post-increment have
different registers. -/
def execLd (k : Tn) (cc : Cond) (gd : Fin 8) (m : PtrForm) (s : State) : Out :=
  runCpu k cc (.ld k cc gd m) (loadEff (ptrBase m + 1) 1 (fun c => c.ea m) fun bs c => (c.postInc 1 m).setG gd (b0 bs)) s

/-- ST: a byte stored at a pointer form's address (R118). -/
def execSt (k : Tn) (cc : Cond) (gd : Fin 8) (m : PtrForm) (s : State) : Out :=
  runCpu k cc (.st k cc gd m) (storeEff (ptrBase m + 1) (fun c => c.ea m) (fun c => [c.g gd]) fun c => c.postInc 1 m) s

/-- LDW: a pair loaded, low byte first (R118). -/
def execLdw (k : Tn) (cc : Cond) (wd : Fin 4) (m : PtrForm) (s : State) : Out :=
  runCpu k cc (.ldw k cc wd m) (loadEff (ptrBase m + 2) 2 (fun c => c.ea m) fun bs c => (c.postInc 2 m).setW wd (leVec 16 bs)) s

/-- STW: a pair stored, low byte first (R118). -/
def execStw (k : Tn) (cc : Cond) (wd : Fin 4) (m : PtrForm) (s : State) : Out :=
  runCpu k cc (.stw k cc wd m) (storeEff (ptrBase m + 2) (fun c => c.ea m) (fun c => leBytes 2 (c.w wd)) fun c => c.postInc 2 m) s

/-- LDA: a byte at an absolute address (R118). -/
def execLda (k : Tn) (cc : Cond) (gd : Fin 8) (a17 : BitVec 17) (s : State) : Out :=
  runCpu k cc (.lda k cc gd a17) (loadEff 3 1 (fun _ => a17.setWidth 24) fun bs c => c.setG gd (b0 bs)) s

/-- STA: a byte stored at an absolute address (R118). -/
def execSta (k : Tn) (cc : Cond) (gd : Fin 8) (a17 : BitVec 17) (s : State) : Out :=
  runCpu k cc (.sta k cc gd a17) (storeEff 3 (fun _ => a17.setWidth 24) (fun c => [c.g gd]) id) s

/-- LDAW: a pair at an absolute address (R118). -/
def execLdaw (k : Tn) (cc : Cond) (wd : Fin 4) (a17 : BitVec 17) (s : State) : Out :=
  runCpu k cc (.ldaw k cc wd a17) (loadEff 4 2 (fun _ => a17.setWidth 24) fun bs c => c.setW wd (leVec 16 bs)) s

/-- STAW: a pair stored at an absolute address (R118). -/
def execStaw (k : Tn) (cc : Cond) (wd : Fin 4) (a17 : BitVec 17) (s : State) : Out :=
  runCpu k cc (.staw k cc wd a17) (storeEff 4 (fun _ => a17.setWidth 24) (fun c => leBytes 2 (c.w wd)) id) s

/-- LDX: a byte at pk + gx (R118). -/
def execLdx (k : Tn) (cc : Cond) (gd : Fin 8) (pk : Fin 4) (gx : Fin 8) (s : State) : Out :=
  runCpu k cc (.ldx k cc gd pk gx) (loadEff 3 1 (fun c => c.p pk + (c.g gx).setWidth 24) fun bs c => c.setG gd (b0 bs)) s

/-- STX: a byte stored at pk + gx (R118). -/
def execStx (k : Tn) (cc : Cond) (gd : Fin 8) (pk : Fin 4) (gx : Fin 8) (s : State) : Out :=
  runCpu k cc (.stx k cc gd pk gx) (storeEff 3 (fun c => c.p pk + (c.g gx).setWidth 24) (fun c => [c.g gd]) id) s

/-- LDS: a byte at sp + u5 (R118). -/
def execLds (k : Tn) (cc : Cond) (gd : Fin 8) (u5 : BitVec 5) (s : State) : Out :=
  runCpu k cc (.lds k cc gd u5) (loadEff 2 1 (fun c => c.sp + u5.setWidth 24) fun bs c => c.setG gd (b0 bs)) s

/-- STS: a byte stored at sp + u5 (R118). -/
def execSts (k : Tn) (cc : Cond) (gs : Fin 8) (u5 : BitVec 5) (s : State) : Out :=
  runCpu k cc (.sts k cc gs u5) (storeEff 2 (fun c => c.sp + u5.setWidth 24) (fun c => [c.g gs]) id) s


end Sys2Proof.Machine
end

