-- ==== Sys2Proof/Machine/CpuPointer.lean ====
section
/-! DEFINITION. Zetik-8: pointers and the stack (R118, R119). -/

namespace Sys2Proof.Machine

/-- LDPI (R118). -/
def execLdpi (k : Tn) (cc : Cond) (pk : Fin 4) (i16 : Half) (s : State) : Out :=
  runCpu k cc (.ldpi k cc pk i16) (regEff 2 fun c => c.setP pk (i16.setWidth 24)) s

/-- LDPH (R118). -/
def execLdph (k : Tn) (cc : Cond) (pk : Fin 4) (i8 : Byte) (s : State) : Out :=
  runCpu k cc (.ldph k cc pk i8) (regEff 2 fun c => c.setP pk (setPtrByte (c.p pk) 2 i8)) s

/-- LEA: from the address of the next instruction (R118). -/
def execLea (k : Tn) (cc : Cond) (pk : Fin 4) (s18 : BitVec 18) (s : State) : Out :=
  runCpu k cc (.lea k cc pk s18) (regEff 2 fun c => c.setP pk (c.pc + s18.signExtend 24)) s

/-- PADD (R118). -/
def execPadd (k : Tn) (cc : Cond) (pk : Fin 4) (ws : Fin 4) (sx : Bool) (s : State) : Out :=
  runCpu k cc (.padd k cc pk ws sx) (regEff 2 fun c =>
    c.setP pk (c.p pk + (if sx then (c.w ws).signExtend 24 else (c.w ws).setWidth 24))) s

/-- ADJ (R118). -/
def execAdj (k : Tn) (cc : Cond) (pk : Fin 4) (s6 : BitVec 6) (s : State) : Out :=
  runCpu k cc (.adj k cc pk s6) (regEff 1 fun c => c.setP pk (c.p pk + s6.signExtend 24)) s

/-- MOVP: a pointer or sp takes a pointer or sp (R118). -/
def execMovp (k : Tn) (cc : Cond) (d x : PSel) (s : State) : Out :=
  runCpu k cc (.movp k cc d x) (regEff 2 fun c => c.setSel d (c.sel x)) s

/-- ADJSP (R118). -/
def execAdjsp (k : Tn) (cc : Cond) (s16 : Half) (s : State) : Out :=
  runCpu k cc (.adjsp k cc s16) (regEff 2 fun c => { c with sp := c.sp + s16.signExtend 24 }) s

/-- MOVGP (R118). -/
def execMovgp (k : Tn) (cc : Cond) (gd : Fin 8) (pk : Fin 4) (n : Fin 3) (s : State) : Out :=
  runCpu k cc (.movgp k cc gd pk n) (regEff 2 fun c => c.setG gd (ptrByte (c.p pk) n)) s

/-- MOVPG (R118). -/
def execMovpg (k : Tn) (cc : Cond) (pk : Fin 4) (n : Fin 3) (gs : Fin 8) (s : State) : Out :=
  runCpu k cc (.movpg k cc pk n gs) (regEff 2 fun c => c.setP pk (setPtrByte (c.p pk) n (c.g gs))) s

/-- LDP: 3 bytes, least significant first; the loaded value prevails (R118, R119). -/
def execLdp (k : Tn) (cc : Cond) (pk ps : Fin 4) (s14 : BitVec 14) (s : State) : Out :=
  runCpu k cc (.ldp k cc pk ps s14) (loadEff 5 3 (fun c => c.p ps + s14.signExtend 24) fun bs c => c.setP pk (leVec 24 bs)) s

/-- STP: 3 bytes, least significant first (R118). -/
def execStp (k : Tn) (cc : Cond) (pk ps : Fin 4) (s14 : BitVec 14) (s : State) : Out :=
  runCpu k cc (.stp k cc pk ps s14) (storeEff 5 (fun c => c.p ps + s14.signExtend 24) (fun c => leBytes 3 (c.p pk)) id) s

/-- PUSH (R118). -/
def execPush (k : Tn) (cc : Cond) (gs : Fin 8) (s : State) : Out :=
  runCpu k cc (.push k cc gs) (pushEff 2 fun c => [c.g gs]) s

/-- POP (R118). -/
def execPop (k : Tn) (cc : Cond) (gd : Fin 8) (s : State) : Out :=
  runCpu k cc (.pop k cc gd) (popEff 2 1 fun bs c => c.setG gd (b0 bs)) s

/-- PUSHW (R118). -/
def execPushw (k : Tn) (cc : Cond) (ws : Fin 4) (s : State) : Out :=
  runCpu k cc (.pushw k cc ws) (pushEff 3 fun c => leBytes 2 (c.w ws)) s

/-- POPW (R118). -/
def execPopw (k : Tn) (cc : Cond) (wd : Fin 4) (s : State) : Out :=
  runCpu k cc (.popw k cc wd) (popEff 3 2 fun bs c => c.setW wd (leVec 16 bs)) s

/-- PUSHP (R118). -/
def execPushp (k : Tn) (cc : Cond) (pk : Fin 4) (s : State) : Out :=
  runCpu k cc (.pushp k cc pk) (pushEff 4 fun c => leBytes 3 (c.p pk)) s

/-- POPP: the loaded value prevails (R118, R119). -/
def execPopp (k : Tn) (cc : Cond) (pk : Fin 4) (s : State) : Out :=
  runCpu k cc (.popp k cc pk) (popEff 4 3 fun bs c => c.setP pk (leVec 24 bs)) s

/-- PUSHF: all 8 bits of F (R118). -/
def execPushf (k : Tn) (cc : Cond) (s : State) : Out :=
  runCpu k cc (.pushf k cc) (pushEff 2 fun c => [c.f]) s

/-- POPF: F but for T (R84, R118). -/
def execPopf (k : Tn) (cc : Cond) (s : State) : Out :=
  runCpu k cc (.popf k cc) (popEff 2 1 fun bs c => c.loadF (b0 bs)) s


end Sys2Proof.Machine
end

