-- ==== Sys2Proof/Machine/Dispatch.lean ====
section
/-! DEFINITION. One arm per command: a direct call of its meaning. -/

namespace Sys2Proof.Machine

def exec (i : Instr) (s : State) : Host.Outcome State Fault Refusal :=
  match i with
  | .configWrite src addr mask data => Sys2Proof.Machine.execConfigWrite src addr mask data s
  | .configRead src addr => Sys2Proof.Machine.execConfigRead src addr s
  | .rcCounterRead src addr inc => Sys2Proof.Machine.execRcCounterRead src addr inc s
  | .latchedRead src addr => Sys2Proof.Machine.execLatchedRead src addr s
  | .ownerWrite src page mask data => Sys2Proof.Machine.execOwnerWrite src page mask data s
  | .expertKey src page mask data => Sys2Proof.Machine.execExpertKey src page mask data s
  | .expertSet src page mask data => Sys2Proof.Machine.execExpertSet src page mask data s
  | .heldAccessApply t => Sys2Proof.Machine.execHeldAccessApply t s
  | .flitSend p ready => Sys2Proof.Machine.execFlitSend p ready s
  | .creditReturn p => Sys2Proof.Machine.execCreditReturn p s
  | .tbCommit src n mask data => Sys2Proof.Machine.execTbCommit src n mask data s
  | .tbLineStart n at_ => Sys2Proof.Machine.execTbLineStart n at_ s
  | .load m a pick => Sys2Proof.Machine.execLoad m a pick s
  | .start m at_ => Sys2Proof.Machine.execStart m at_ s
  | .hold m => Sys2Proof.Machine.execHold m s
  | .resume m at_ => Sys2Proof.Machine.execResume m at_ s
  | .reset m => Sys2Proof.Machine.execReset m s
  | .resetDone t => Sys2Proof.Machine.execResetDone t s
  | .park m => Sys2Proof.Machine.execPark m s
  | .unpark m at_ => Sys2Proof.Machine.execUnpark m at_ s
  | .move m slot pick => Sys2Proof.Machine.execMove m slot pick s
  | .mail m len data => Sys2Proof.Machine.execMail m len data s
  | .tenantLineStart t at_ => Sys2Proof.Machine.execTenantLineStart t at_ s
  | .tenantFrameStart t at_ => Sys2Proof.Machine.execTenantFrameStart t at_ s
  | .paceRelease t at_ => Sys2Proof.Machine.execPaceRelease t at_ s
  | .nop t cc => Sys2Proof.Machine.execNop t cc s
  | .wait t cc => Sys2Proof.Machine.execWait t cc s
  | .waitWake t => Sys2Proof.Machine.execWaitWake t s
  | .fence t cc => Sys2Proof.Machine.execFence t cc s
  | .fenceEnd t => Sys2Proof.Machine.execFenceEnd t s
  | .ret t cc => Sys2Proof.Machine.execRet t cc s
  | .rtt t cc => Sys2Proof.Machine.execRtt t cc s
  | .ei t cc => Sys2Proof.Machine.execEi t cc s
  | .di t cc => Sys2Proof.Machine.execDi t cc s
  | .dajA t cc => Sys2Proof.Machine.execDajA t cc s
  | .dajS t cc => Sys2Proof.Machine.execDajS t cc s
  | .pushf t cc => Sys2Proof.Machine.execPushf t cc s
  | .popf t cc => Sys2Proof.Machine.execPopf t cc s
  | .clc t cc => Sys2Proof.Machine.execClc t cc s
  | .sec t cc => Sys2Proof.Machine.execSec t cc s
  | .cmc t cc => Sys2Proof.Machine.execCmc t cc s
  | .mov t cc gd gs => Sys2Proof.Machine.execMov t cc gd gs s
  | .movw t cc wd ws => Sys2Proof.Machine.execMovw t cc wd ws s
  | .exg t cc gd gs => Sys2Proof.Machine.execExg t cc gd gs s
  | .add t cc gd gs => Sys2Proof.Machine.execAdd t cc gd gs s
  | .adc t cc gd gs => Sys2Proof.Machine.execAdc t cc gd gs s
  | .sub t cc gd gs => Sys2Proof.Machine.execSub t cc gd gs s
  | .sbc t cc gd gs => Sys2Proof.Machine.execSbc t cc gd gs s
  | .and t cc gd gs => Sys2Proof.Machine.execAnd t cc gd gs s
  | .or t cc gd gs => Sys2Proof.Machine.execOr t cc gd gs s
  | .xor t cc gd gs => Sys2Proof.Machine.execXor t cc gd gs s
  | .cmp t cc gd gs => Sys2Proof.Machine.execCmp t cc gd gs s
  | .inc t cc gd => Sys2Proof.Machine.execInc t cc gd s
  | .dec t cc gd => Sys2Proof.Machine.execDec t cc gd s
  | .neg t cc gd => Sys2Proof.Machine.execNeg t cc gd s
  | .not t cc gd => Sys2Proof.Machine.execNot t cc gd s
  | .shl t cc gd => Sys2Proof.Machine.execShl t cc gd s
  | .shr t cc gd => Sys2Proof.Machine.execShr t cc gd s
  | .asr t cc gd => Sys2Proof.Machine.execAsr t cc gd s
  | .rol t cc gd => Sys2Proof.Machine.execRol t cc gd s
  | .ror t cc gd => Sys2Proof.Machine.execRor t cc gd s
  | .clr t cc gd => Sys2Proof.Machine.execClr t cc gd s
  | .tst t cc gs => Sys2Proof.Machine.execTst t cc gs s
  | .swapn t cc gd => Sys2Proof.Machine.execSwapn t cc gd s
  | .push t cc gs => Sys2Proof.Machine.execPush t cc gs s
  | .pop t cc gd => Sys2Proof.Machine.execPop t cc gd s
  | .incw t cc wd => Sys2Proof.Machine.execIncw t cc wd s
  | .decw t cc wd => Sys2Proof.Machine.execDecw t cc wd s
  | .pushw t cc ws => Sys2Proof.Machine.execPushw t cc ws s
  | .popw t cc wd => Sys2Proof.Machine.execPopw t cc wd s
  | .ext t cc wd => Sys2Proof.Machine.execExt t cc wd s
  | .pushp t cc pk => Sys2Proof.Machine.execPushp t cc pk s
  | .popp t cc pk => Sys2Proof.Machine.execPopp t cc pk s
  | .ld t cc g m => Sys2Proof.Machine.execLd t cc g m s
  | .st t cc g m => Sys2Proof.Machine.execSt t cc g m s
  | .ldw t cc w m => Sys2Proof.Machine.execLdw t cc w m s
  | .stw t cc w m => Sys2Proof.Machine.execStw t cc w m s
  | .bra t cc s8 => Sys2Proof.Machine.execBra t cc s8 s
  | .call t cc f => Sys2Proof.Machine.execCall t cc f s
  | .ldi t cc f i8 => Sys2Proof.Machine.execLdi t cc f i8 s
  | .cmpi t cc f i8 => Sys2Proof.Machine.execCmpi t cc f i8 s
  | .addi t cc f i8 => Sys2Proof.Machine.execAddi t cc f i8 s
  | .andi t cc f i8 => Sys2Proof.Machine.execAndi t cc f i8 s
  | .adj t cc pk s6 => Sys2Proof.Machine.execAdj t cc pk s6 s
  | .lds t cc gd u5 => Sys2Proof.Machine.execLds t cc gd u5 s
  | .sts t cc gs u5 => Sys2Proof.Machine.execSts t cc gs u5 s
  | .ldiw t cc wd i16 => Sys2Proof.Machine.execLdiw t cc wd i16 s
  | .adci t cc gd i8 => Sys2Proof.Machine.execAdci t cc gd i8 s
  | .subi t cc gd i8 => Sys2Proof.Machine.execSubi t cc gd i8 s
  | .sbci t cc gd i8 => Sys2Proof.Machine.execSbci t cc gd i8 s
  | .ori t cc gd i8 => Sys2Proof.Machine.execOri t cc gd i8 s
  | .xori t cc gd i8 => Sys2Proof.Machine.execXori t cc gd i8 s
  | .addw t cc wd ws => Sys2Proof.Machine.execAddw t cc wd ws s
  | .adcw t cc wd ws => Sys2Proof.Machine.execAdcw t cc wd ws s
  | .subw t cc wd ws => Sys2Proof.Machine.execSubw t cc wd ws s
  | .sbcw t cc wd ws => Sys2Proof.Machine.execSbcw t cc wd ws s
  | .cmpw t cc wd ws => Sys2Proof.Machine.execCmpw t cc wd ws s
  | .addiw t cc wd i16 => Sys2Proof.Machine.execAddiw t cc wd i16 s
  | .cmpiw t cc wd i16 => Sys2Proof.Machine.execCmpiw t cc wd i16 s
  | .mul t cc wd ga gb => Sys2Proof.Machine.execMul t cc wd ga gb s
  | .sel t cc gd ga gb sc => Sys2Proof.Machine.execSel t cc gd ga gb sc s
  | .selw t cc wd wa wb sc => Sys2Proof.Machine.execSelw t cc wd wa wb sc s
  | .cnvbD t cc wd => Sys2Proof.Machine.execCnvbD t cc wd s
  | .cnvbB t cc wd => Sys2Proof.Machine.execCnvbB t cc wd s
  | .lda t cc g a17 => Sys2Proof.Machine.execLda t cc g a17 s
  | .sta t cc g a17 => Sys2Proof.Machine.execSta t cc g a17 s
  | .ldaw t cc w a17 => Sys2Proof.Machine.execLdaw t cc w a17 s
  | .staw t cc w a17 => Sys2Proof.Machine.execStaw t cc w a17 s
  | .ldx t cc g pk gx => Sys2Proof.Machine.execLdx t cc g pk gx s
  | .stx t cc g pk gx => Sys2Proof.Machine.execStx t cc g pk gx s
  | .ldp t cc pk ps s14 => Sys2Proof.Machine.execLdp t cc pk ps s14 s
  | .stp t cc pk ps s14 => Sys2Proof.Machine.execStp t cc pk ps s14 s
  | .ldpi t cc pk i16 => Sys2Proof.Machine.execLdpi t cc pk i16 s
  | .ldph t cc pk i8 => Sys2Proof.Machine.execLdph t cc pk i8 s
  | .lea t cc pk s18 => Sys2Proof.Machine.execLea t cc pk s18 s
  | .padd t cc pk ws sx => Sys2Proof.Machine.execPadd t cc pk ws sx s
  | .movp t cc d x => Sys2Proof.Machine.execMovp t cc d x s
  | .adjsp t cc s16 => Sys2Proof.Machine.execAdjsp t cc s16 s
  | .movgp t cc gd pk n => Sys2Proof.Machine.execMovgp t cc gd pk n s
  | .movpg t cc pk n gs => Sys2Proof.Machine.execMovpg t cc pk n gs s
  | .brl t cc s20 => Sys2Proof.Machine.execBrl t cc s20 s
  | .jmp t cc pk => Sys2Proof.Machine.execJmp t cc pk s
  | .dbnz t cc gd s16 => Sys2Proof.Machine.execDbnz t cc gd s16 s
  | .addp t cc pd ps n1 c => Sys2Proof.Machine.execAddp t cc pd ps n1 c s
  | .subp t cc pd ps n1 c => Sys2Proof.Machine.execSubp t cc pd ps n1 c s
  | .cmpp t cc pd ps n1 c => Sys2Proof.Machine.execCmpp t cc pd ps n1 c s
  | .reservedOpcodeTrap t => Sys2Proof.Machine.execReservedOpcodeTrap t s
  | .fetchFault t => Sys2Proof.Machine.execFetchFault t s
  | .interruptEntry t => Sys2Proof.Machine.execInterruptEntry t s
  | .spriteEvaluation t => Sys2Proof.Machine.execSpriteEvaluation t s
  | .lineRender e => Sys2Proof.Machine.execLineRender e s
  | .rasterEntry t => Sys2Proof.Machine.execRasterEntry t s
  | .lineMatch t k => Sys2Proof.Machine.execLineMatch t k s
  | .beamCapture t => Sys2Proof.Machine.execBeamCapture t s
  | .composeLine x badBytes => Sys2Proof.Machine.execComposeLine x badBytes s
  | .overlayCommit src t mask data => Sys2Proof.Machine.execOverlayCommit src t mask data s
  | .overlayWrite m batch off data => Sys2Proof.Machine.execOverlayWrite m batch off data s
  | .region => Sys2Proof.Machine.execRegion s
  | .beamMark e at_ => Sys2Proof.Machine.execBeamMark e at_ s
  | .frameTransmit p at_ => Sys2Proof.Machine.execFrameTransmit p at_ s
  | .input r len data => Sys2Proof.Machine.execInput r len data s
  | .status r flags lastPresented latePresents => Sys2Proof.Machine.execStatus r flags lastPresented latePresents s
  | .resyncReq r lastSeq reason => Sys2Proof.Machine.execResyncReq r lastSeq reason s
  | .delayReq p mac seqId at_ => Sys2Proof.Machine.execDelayReq p mac seqId at_ s
  | .foreignAnnounce p => Sys2Proof.Machine.execForeignAnnounce p s
  | .pauseReceive p => Sys2Proof.Machine.execPauseReceive p s
  | .rxUnknown p why => Sys2Proof.Machine.execRxUnknown p why s
  | .syncSend p at_ => Sys2Proof.Machine.execSyncSend p at_ s
  | .announceSend p => Sys2Proof.Machine.execAnnounceSend p s
  | .stationAbsent e => Sys2Proof.Machine.execStationAbsent e s
  | .portSwitch e => Sys2Proof.Machine.execPortSwitch e s
  | .entryEnable src e mask data => Sys2Proof.Machine.execEntryEnable src e mask data s
  | .entryDisable src e mask data => Sys2Proof.Machine.execEntryDisable src e mask data s
  | .forceResync src e mask data => Sys2Proof.Machine.execForceResync src e mask data s
  | .linkDown p => Sys2Proof.Machine.execLinkDown p s
  | .linkUp p fecLock => Sys2Proof.Machine.execLinkUp p fecLock s
  | .sfpChange p present los fault => Sys2Proof.Machine.execSfpChange p present los fault s
  | .selfRefreshEntry stack tolerance => Sys2Proof.Machine.execSelfRefreshEntry stack tolerance s
  | .selfRefreshExit stack => Sys2Proof.Machine.execSelfRefreshExit stack s
  | .audioTick t => Sys2Proof.Machine.execAudioTick t s
  | .keyon t v => Sys2Proof.Machine.execKeyon t v s
  | .keyoff t v => Sys2Proof.Machine.execKeyoff t v s
  | .swap t v => Sys2Proof.Machine.execSwap t v s
  | .sinkSample n at_ => Sys2Proof.Machine.execSinkSample n at_ s
  | .sinkSwap src n mask data => Sys2Proof.Machine.execSinkSwap src n mask data s
  | .previewReq m kind path frames => Sys2Proof.Machine.execPreviewReq m kind path frames s
  | .bltGo t v => Sys2Proof.Machine.execBltGo t v s
  | .end_ t => Sys2Proof.Machine.execEnd t s
  | .copy t => Sys2Proof.Machine.execCopy t s
  | .fill t => Sys2Proof.Machine.execFill t s
  | .copykey t => Sys2Proof.Machine.execCopykey t s
  | .xform t => Sys2Proof.Machine.execXform t s
  | .link t => Sys2Proof.Machine.execLink t s
  | .waitLine t => Sys2Proof.Machine.execWaitLine t s
  | .signal t => Sys2Proof.Machine.execSignal t s
  | .trailStop t => Sys2Proof.Machine.execTrailStop t s
  | .qdmGo t v => Sys2Proof.Machine.execQdmGo t v s
  | .quickDmaTransfer t => Sys2Proof.Machine.execQuickDmaTransfer t s
  | .dmaGo t c v => Sys2Proof.Machine.execDmaGo t c v s
  | .dmaChannelAssign t c pick => Sys2Proof.Machine.execDmaChannelAssign t c pick s
  | .dmaBurst t c corrected => Sys2Proof.Machine.execDmaBurst t c corrected s
  | .busError t c hbm => Sys2Proof.Machine.execBusError t c hbm s
  | .dmaChannelRestart x ch fails => Sys2Proof.Machine.execDmaChannelRestart x ch fails s
  | .dmaResumed x => Sys2Proof.Machine.execDmaResumed x s
  | .eccWriteBack e rewritten => Sys2Proof.Machine.execEccWriteBack e rewritten s
  | .scrubRead e addr r => Sys2Proof.Machine.execScrubRead e addr r s
  | .clearDone e => Sys2Proof.Machine.execClearDone e s
  | .retentionEntry e => Sys2Proof.Machine.execRetentionEntry e s
  | .engineWake e => Sys2Proof.Machine.execEngineWake e s
  | .hbmStackFault st => Sys2Proof.Machine.execHbmStackFault st s
  | .ringTake t at_ => Sys2Proof.Machine.execRingTake t at_ s
  | .ringCommit t => Sys2Proof.Machine.execRingCommit t s
  | .mirrorStage t n => Sys2Proof.Machine.execMirrorStage t n s
  | .mirrorWarm t => Sys2Proof.Machine.execMirrorWarm t s
  | .idleHeartbeat e => Sys2Proof.Machine.execIdleHeartbeat e s
  | .internalError e => Sys2Proof.Machine.execInternalError e s
  | .engineFailed e credit => Sys2Proof.Machine.execEngineFailed e credit s
  | .tenantFailed t => Sys2Proof.Machine.execTenantFailed t s
  | .promotion t pick => Sys2Proof.Machine.execPromotion t pick s
  | .stoppedTenantReplace t pick => Sys2Proof.Machine.execStoppedTenantReplace t pick s
  | .pitch t slot => Sys2Proof.Machine.execPitch t slot s
  | .strike slot mirror pick => Sys2Proof.Machine.execStrike slot mirror pick s
  | .tenantMoved t => Sys2Proof.Machine.execTenantMoved t s
  | .fabricRingFault x b cause => Sys2Proof.Machine.execFabricRingFault x b cause s
  | .readmit src mask data => Sys2Proof.Machine.execReadmit src mask data s
  | .selftestDone u pass => Sys2Proof.Machine.execSelftestDone u pass s
  | .engineReadmitted u => Sys2Proof.Machine.execEngineReadmitted u s
  | .supHeartbeat => Sys2Proof.Machine.execSupHeartbeat s
  | .supFailover => Sys2Proof.Machine.execSupFailover s
  | .supTakeoverDone => Sys2Proof.Machine.execSupTakeoverDone s
  | .event n => Sys2Proof.Machine.execEvent n s
  | .lanternSample => Sys2Proof.Machine.execLanternSample s
  | .lanternWake => Sys2Proof.Machine.execLanternWake s
  | .prescalerTick n => Sys2Proof.Machine.execPrescalerTick n s
  | .timerWrap t k => Sys2Proof.Machine.execTimerWrap t k s
  | .timerCountRead t k => Sys2Proof.Machine.execTimerCountRead t k s
  | .timerCountLoad t k hi => Sys2Proof.Machine.execTimerCountLoad t k hi s
  | .timerClear t k => Sys2Proof.Machine.execTimerClear t k s
  | .mtReturnToZero n => Sys2Proof.Machine.execMtReturnToZero n s
  | .mtRestart src n mask data => Sys2Proof.Machine.execMtRestart src n mask data s
  | .halfWrite src addr mask data => Sys2Proof.Machine.execHalfWrite src addr mask data s
  | .capture n j level => Sys2Proof.Machine.execCapture n j level s
  | .compareCycle n j => Sys2Proof.Machine.execCompareCycle n j s
  | .pinEdge n level => Sys2Proof.Machine.execPinEdge n level s
  | .pioDelay n j => Sys2Proof.Machine.execPioDelay n j s
  | .pioSet n j => Sys2Proof.Machine.execPioSet n j s
  | .pioOut n j => Sys2Proof.Machine.execPioOut n j s
  | .pioIn n j => Sys2Proof.Machine.execPioIn n j s
  | .pioWait n j => Sys2Proof.Machine.execPioWait n j s
  | .pioJmp n j => Sys2Proof.Machine.execPioJmp n j s
  | .pioPull n j => Sys2Proof.Machine.execPioPull n j s
  | .pioPush n j => Sys2Proof.Machine.execPioPush n j s
  | .pioBadInstr n j => Sys2Proof.Machine.execPioBadInstr n j s
  | .groupStart src n mask data => Sys2Proof.Machine.execGroupStart src n mask data s
  | .groupStop src n mask data => Sys2Proof.Machine.execGroupStop src n mask data s
  | .clkRestart src n mask data => Sys2Proof.Machine.execClkRestart src n mask data s
  | .txf src n j mask data => Sys2Proof.Machine.execTxf src n j mask data s
  | .rxf src n j => Sys2Proof.Machine.execRxf src n j s
  | .gateLinkFail l => Sys2Proof.Machine.execGateLinkFail l s
  | .imageChunk m dest off data => Sys2Proof.Machine.execImageChunk m dest off data s
  | .wake m => Sys2Proof.Machine.execWake m s
  | .sqTail v => Sys2Proof.Machine.execSqTail v s
  | .cqHead v => Sys2Proof.Machine.execCqHead v s
  | .ringCtrl off v => Sys2Proof.Machine.execRingCtrl off v s
  | .counters => Sys2Proof.Machine.execCounters s
  | .keyCommit src mask data => Sys2Proof.Machine.execKeyCommit src mask data s
  | .pcieReset => Sys2Proof.Machine.execPcieReset s
  | .nvsPageWrite ok => Sys2Proof.Machine.execNvsPageWrite ok s
  | .savGo t v => Sys2Proof.Machine.execSavGo t v s
  | .savCommit t => Sys2Proof.Machine.execSavCommit t s
  | .erase src t mask data => Sys2Proof.Machine.execErase src t mask data s
  | .rtcHundredth => Sys2Proof.Machine.execRtcHundredth s
  | .rtcCommit src mask data => Sys2Proof.Machine.execRtcCommit src mask data s
  | .panelUpdate src mask data => Sys2Proof.Machine.execPanelUpdate src mask data s
  | .panelUpdateStart => Sys2Proof.Machine.execPanelUpdateStart s
  | .panelUpdateDone => Sys2Proof.Machine.execPanelUpdateDone s
  | .panelStop => Sys2Proof.Machine.execPanelStop s
  | .panelRecovered => Sys2Proof.Machine.execPanelRecovered s
  | .pfw => Sys2Proof.Machine.execPfw s
  | .pfwCleared => Sys2Proof.Machine.execPfwCleared s
  | .fwuOpen src mask data => Sys2Proof.Machine.execFwuOpen src mask data s
  | .fwuVerify src mask data => Sys2Proof.Machine.execFwuVerify src mask data s
  | .fwuVerified => Sys2Proof.Machine.execFwuVerified s
  | .fwuActivate src mask data => Sys2Proof.Machine.execFwuActivate src mask data s
  | .fwuSwapped => Sys2Proof.Machine.execFwuSwapped s
  | .fwuConfirm src mask data => Sys2Proof.Machine.execFwuConfirm src mask data s
  | .trialEnd => Sys2Proof.Machine.execTrialEnd s
  | .fwuRollback src mask data => Sys2Proof.Machine.execFwuRollback src mask data s
  | .fwuAbort src mask data => Sys2Proof.Machine.execFwuAbort src mask data s
  | .standbyReady => Sys2Proof.Machine.execStandbyReady s
  | .powerPark src mask data => Sys2Proof.Machine.execPowerPark src mask data s
  | .parkComplete => Sys2Proof.Machine.execParkComplete s
  | .powerRun src mask data => Sys2Proof.Machine.execPowerRun src mask data s
  | .powerDormant src mask data => Sys2Proof.Machine.execPowerDormant src mask data s
  | .feedLost b => Sys2Proof.Machine.execFeedLost b s
  | .feedRestored b => Sys2Proof.Machine.execFeedRestored b s
  | .powerOn => Sys2Proof.Machine.execPowerOn s
  | .ready => Sys2Proof.Machine.execReady s
  | .supplyFall => Sys2Proof.Machine.execSupplyFall s
  | .alwaysOnLoss => Sys2Proof.Machine.execAlwaysOnLoss s
  | .clockFault d => Sys2Proof.Machine.execClockFault d s
  | .portReset src mask data => Sys2Proof.Machine.execPortReset src mask data s
  | .temperatureWarning deg => Sys2Proof.Machine.execTemperatureWarning deg s
  | .temperatureTrip => Sys2Proof.Machine.execTemperatureTrip s
  | .temperatureRecover => Sys2Proof.Machine.execTemperatureRecover s
  | .modEnable src mask data => Sys2Proof.Machine.execModEnable src mask data s
  | .enginesUp => Sys2Proof.Machine.execEnginesUp s
  | .modDisable src mask data => Sys2Proof.Machine.execModDisable src mask data s
  | .syncing => Sys2Proof.Machine.execSyncing s

end Sys2Proof.Machine
end

