-- ==== Sys2Proof/Machine/Step.lean ====
section
/-! DEFINITION. One step of the block. -/

namespace Sys2Proof.Machine

/-- LAG, MAX_LAG and TENANT_LAG of every tenant at the current tick (R72). -/
def State.updateLags (s : State) : State := (s.tenants.map fun e => e.1).foldl State.updateLag s

/-- The block with an empty queue: a tick of 10 ns passes while its clocks run, the next gate cycle begins, the lag of
each tenant is judged, and the gate's sequence series are recorded when due (R349). -/
def State.idle (s : State) : State :=
  match s.power.mode with
  | .off => s
  | .dormant => s
  | .start => (s.advance (s.tick + 1)).busNext
  | .on => (((s.advance (s.tick + 1)).busNext).updateLags).recordSeq

/-- The command at the front of the queue is performed on the state with the rest of the queue. -/
def step (s : State) : Host.Outcome State Fault Refusal :=
  match s.pending with
  | [] => .next s.idle
  | i :: rest => exec i { s with pending := rest }

/-- The state with the command that a word spells put at the front of its queue. -/
def State.withFetchWord (s : State) (nbits w : Nat) : State :=
  match decodeTableWord nbits w with
  | some i => { s with pending := i :: s.pending }
  | none => s

end Sys2Proof.Machine
end

