-- ==== Sys2Proof/Safety.lean ====
section
/-! DEFINITION. What counts as a good state of the block: the tables in their canonical form, and the reserved bits of the
registers zero (R8). -/

namespace Sys2Proof.Machine

/-- The register table in canonical form: keys rising, no word equal to its reset value. -/
def State.regsWf (s : State) : Bool := Store.wf moduleRst s.regs

/-- The byte memory of HBM in canonical form. -/
def State.hbmWf (s : State) : Bool := Memory.wf s.hbm

/-- The tenants in rising order of their numbers. -/
def State.tenantsWf (s : State) : Bool := (s.tenants.map fun e => e.1).Pairwise (· < ·)

/-- The invariant of the block: its register table, HBM and tenant table are in canonical form. -/
def State.Inv (s : State) : Prop := s.regsWf = true ∧ s.hbmWf = true ∧ s.tenantsWf = true

/-- A step that stops neither by a fault nor by a refusal. -/
def completes (s : State) : Prop := ∃ t, step s = .next t

end Sys2Proof.Machine
end

