-- ==== Sys2Proof/WellFormed.lean ====
section
/-! DEFINITION. Which commands are well formed: what the types of their operands do not say. -/

namespace Sys2Proof

/-- A short CPU instruction carries a condition of code 0 to 7 (R112). -/
def shortCondOk (i : Instr) : Bool :=
  match Machine.encodeShort i with
  | some (cc, _, _) => !(Machine.condCode cc).getLsbD 3
  | none => true

/-- The data of a message has a length within the limits of its type (R341). -/
def dataLenOk : Instr → Bool
  | .imageChunk _ _ _ data => decide (1 ≤ data.length ∧ data.length ≤ 1024)
  | .overlayWrite _ _ _ data => decide (1 ≤ data.length ∧ data.length ≤ 1024)
  | .mail _ len data => decide (1 ≤ len.toNat ∧ len.toNat ≤ 32 ∧ data.length = len.toNat)
  | .input _ len data => decide (data.length = len.toNat)
  | _ => true

/-- A read of the scrubber names a word of the banks (R259, R253). -/
def scrubAddrOk : Instr → Bool
  | .scrubRead _ a _ => decide (a.toNat < 0x2B0000 ∧ a.toNat % 8 = 0)
  | _ => true

/-- A mirror path leads from one engine to an engine of another sector (R17, R279); a fabric ring has the stops that
`Machine.ringStops` counts. -/
def pathOk : Path → Bool
  | .mirror a b => decide (a.val / 9 ≠ b.val / 9)
  | .ringStop _ _ n _ => decide (n < Machine.ringStops)
  | .dmaBurst _ ch => decide (ch < 64)
  | _ => true

/-- The path of a credit command. -/
def creditPathOk : Instr → Bool
  | .flitSend p _ => pathOk p
  | .creditReturn p => pathOk p
  | _ => true

/-- A well-formed command. -/
def Instr.wf (i : Instr) : Bool := shortCondOk i && dataLenOk i && scrubAddrOk i && creditPathOk i

end Sys2Proof
end

