-- ==== Sys2Proof/Certificates/Slice0/Obligations.lean ====
section
/-! DEFINITION. The statements about the block: the spec's rules as propositions of the model. -/

/-! ## The vocabulary of the statements -/

namespace Sys2Proof.Rule

open Sys2Proof.Machine

/-- The issue slots of an instruction that makes `u` of `t` (R77): one for each of its cycles, and one for an instruction
that begins to wait. -/
def issueSlots (t u : Tenant) : Nat := if u.waiting then 1 else u.core.now - t.core.now

/-- The words that show the queue of NVS, which what is sent to HOST-B may change (R349, R355, R356). -/
def QueueWord (a : Nat) : Prop := a = F.NVS_QUEUE_LEVEL.key ∨ a = F.NVS_REFUSED_COUNT.key

/-- Instruction `i` of tenant `k`, whose condition is `cc`, is the next thing that the tenant does, and its condition
holds: it answers a next state in which tenant `k` has become `u` with `post`, its engine has counted one issued
instruction and its issue slots (R25), and nothing else has changed. `t` is the tenant with pc at the next instruction. -/
def Does (k : Tn) (cc : Cond) (i : Instr) (post : Geo → Tenant → Tenant → Prop) : Prop :=
  ∀ s t, s.cpuReady k i = some t → t.holds (s.geo k) cc = true →
    ∃ u, exec i s = .next ((s.setTenant k u).issued t (issueSlots t u)) ∧ post (s.geo k) t u

/-- The tenant `n` cycles later with other CPU registers. -/
def after (t : Tenant) (c : Cpu) (n : Nat) : Tenant :=
  { t with core := { t.core with cpu := c, now := t.core.now + n } }

/-- The instruction takes `n` cycles and changes CPU registers alone, as `P` says: memory, the register pages and all
else of the tenant stay. -/
def Regs (k : Tn) (cc : Cond) (i : Instr) (n : Nat) (P : Cpu → Cpu → Prop) : Prop :=
  Does k cc i fun _ t u => ∃ c, u = after t c n ∧ P t.core.cpu c

/-- The flags C, Z, N, V, H after an instruction: a value, or none for a flag that stays. I, T and bit 7 stay. -/
def Flags (c c' : Cpu) (fc fz fn fv fh : Option Bool) : Prop :=
  c'.fC = fc.getD c.fC ∧ c'.fZ = fz.getD c.fZ ∧ c'.fN = fn.getD c.fN ∧ c'.fV = fv.getD c.fV ∧ c'.fH = fh.getD c.fH
    ∧ c'.fI = c.fI ∧ c'.fT = c.fT ∧ c'.f.getLsbD 7 = c.f.getLsbD 7

/-- The flags of the sum `a + b + i` of `w`-bit values (R117): C is the carry out of the width, V says that the signed
sum lies outside it, H, of an 8-bit sum, is the carry out of bit 3. -/
def SumFlags {w : Nat} (c c' : Cpu) (a b r : BitVec w) (i carry half : Bool) : Prop :=
  Flags c c' (if carry then some (decide (2 ^ w ≤ a.toNat + b.toNat + i.toNat)) else none) (some (r == 0)) (some r.msb)
    (some (decide (a.toInt + b.toInt + i.toNat < -2 ^ (w - 1) ∨ 2 ^ (w - 1) ≤ a.toInt + b.toInt + i.toNat)))
    (some (half && decide (16 ≤ a.toNat % 16 + b.toNat % 16 + i.toNat)))

/-- The flags of the difference `a − b − i` (R117): C is the borrow, V says that the signed difference lies outside the
width, H, of an 8-bit difference, is the borrow into bit 3. -/
def DiffFlags {w : Nat} (c c' : Cpu) (a b r : BitVec w) (i carry half : Bool) : Prop :=
  Flags c c' (if carry then some (decide (a.toNat < b.toNat + i.toNat)) else none) (some (r == 0)) (some r.msb)
    (some (decide (a.toInt - b.toInt - i.toNat < -2 ^ (w - 1) ∨ 2 ^ (w - 1) ≤ a.toInt - b.toInt - i.toNat)))
    (some (half && decide (a.toNat % 16 < b.toNat % 16 + i.toNat)))

/-- Register `gd` takes the sum of `a` and `b` and `i`; no other register but the flags changes. -/
def Sum8 (gd : Fin 8) (a b : Cpu → Byte) (i : Cpu → Bool) (carry : Bool) (c c' : Cpu) : Prop :=
  let r := a c + b c + BitVec.ofNat 8 (i c).toNat
  c' = { c.setG gd r with f := c'.f } ∧ SumFlags c c' (a c) (b c) r (i c) carry true

/-- Register `gd` takes the difference of `a` and `b` and `i`. -/
def Diff8 (gd : Fin 8) (a b : Cpu → Byte) (i : Cpu → Bool) (carry : Bool) (c c' : Cpu) : Prop :=
  let r := a c - b c - BitVec.ofNat 8 (i c).toNat
  c' = { c.setG gd r with f := c'.f } ∧ DiffFlags c c' (a c) (b c) r (i c) carry true

/-- A comparison of bytes: only the flags change. -/
def Compare8 (a b : Cpu → Byte) (c c' : Cpu) : Prop :=
  c' = { c with f := c'.f } ∧ DiffFlags c c' (a c) (b c) (a c - b c) false true true

/-- Register `gd` takes a bitwise result: C 0, V 0, H 0, Z and N from the result. -/
def Logic8 (gd : Fin 8) (r : Cpu → Byte) (c c' : Cpu) : Prop :=
  c' = { c.setG gd (r c) with f := c'.f }
    ∧ Flags c c' (some false) (some (r c == 0)) (some (r c).msb) (some false) (some false)

/-- Register `gd` takes a shifted value: C the bit shifted out, V 0, H 0. -/
def Shift8 (gd : Fin 8) (r : Cpu → Byte) (out : Cpu → Bool) (c c' : Cpu) : Prop :=
  c' = { c.setG gd (r c) with f := c'.f }
    ∧ Flags c c' (some (out c)) (some (r c == 0)) (some (r c).msb) (some false) (some false)

/-- Pair `wd` takes the sum; H 0. -/
def Sum16 (wd : Fin 4) (a b : Cpu → Half) (i : Cpu → Bool) (c c' : Cpu) : Prop :=
  let r := a c + b c + BitVec.ofNat 16 (i c).toNat
  c' = { c.setW wd r with f := c'.f } ∧ SumFlags c c' (a c) (b c) r (i c) true false

/-- Pair `wd` takes the difference; H 0. -/
def Diff16 (wd : Fin 4) (a b : Cpu → Half) (i : Cpu → Bool) (c c' : Cpu) : Prop :=
  let r := a c - b c - BitVec.ofNat 16 (i c).toNat
  c' = { c.setW wd r with f := c'.f } ∧ DiffFlags c c' (a c) (b c) r (i c) true false

/-- A comparison of pairs. -/
def Compare16 (a b : Cpu → Half) (c c' : Cpu) : Prop :=
  c' = { c with f := c'.f } ∧ DiffFlags c c' (a c) (b c) (a c - b c) false true false

/-- Pair `wd` takes a value that sets Z and N alone. -/
def Zn16 (wd : Fin 4) (r : Cpu → Half) (c c' : Cpu) : Prop :=
  c' = { c.setW wd (r c) with f := c'.f } ∧ Flags c c' none (some (r c == 0)) (some (r c).msb) none none

/-- A load of `n` bytes from the address `a` in `m` cycles (R105): the bytes are sampled in its first cycle, with what a
read of those addresses does besides, and `put` puts them into registers; nothing is stored. -/
def Loads (k : Tn) (cc : Cond) (i : Instr) (m n : Nat) (a : Cpu → Addr) (put : List Byte → Cpu → Cpu) : Prop :=
  Does k cc i fun g t u =>
    let r := t.cpuRead g t.core.now (addrs (a t.core.cpu) n)
    u = after r.1 (put r.2 r.1.core.cpu) m

/-- A store of bytes `v` at the address `a` in `m` cycles (R105): registers change as `put` says, and the bytes are
written at the last cycle, from the address up, and nowhere else. -/
def Stores (k : Tn) (cc : Cond) (i : Instr) (m : Nat) (a : Cpu → Addr) (v : Cpu → List Byte) (put : Cpu → Cpu) : Prop :=
  Does k cc i fun g t u =>
    let w := ({ t with core := { t.core with cpu := put t.core.cpu } } : Tenant).post g (t.core.now + m - 1)
      ((addrs (a t.core.cpu) (v t.core.cpu).length).zip (v t.core.cpu))
    u = { w with core := { w.core with now := t.core.now + m } }

/-- A transfer of control in `m` cycles to the address that `f` gives, by an instruction of `len` bytes: pc takes it with
bit 0 cleared, and the transfer is recorded at the instruction's own address (R104). -/
def Jumps (k : Tn) (cc : Cond) (i : Instr) (m : Nat) (len : Addr) (f : Cpu → Addr) : Prop :=
  Does k cc i fun _ t u =>
    let w := (t.onCpu fun c => { c with pc := f c &&& ~~~1 }).traceAt (t.core.cpu.pc - len)
    u = { w with core := { w.core with now := t.core.now + m } }

/-- The number that a packed-BCD string spells, the least significant byte first. -/
def bcd : List Byte → Nat
  | [] => 0
  | b :: r => b.toNat % 16 + 10 * (b.toNat / 16) + 100 * bcd r

/-- Whether every nibble of a string is a decimal digit. -/
def digitsOk (l : List Byte) : Bool := l.all fun b => decide (b.toNat % 16 < 10) && decide (b.toNat / 16 < 10)

/-- A string instruction (R124 to R126) on strings of decimal digits, none of whose bytes is forbidden: `rel` relates
the two numbers, the carry in, the number of the result `z` and the carry out. The result is written at the last cycle
where `write` says so; the flags are C the carry, Z the result 0, N its top digit 8 or more, V 0, H 0; the pointers
stay. -/
def Strings (k : Tn) (cc : Cond) (i : Instr) (pd ps : Fin 4) (n1 : BitVec 4) (ci write : Bool)
    (rel : Nat → Nat → Nat → Nat → Nat → Nat → Prop) : Prop :=
  Does k cc i fun g t u =>
    let c := t.core.cpu
    let n := n1.toNat + 1
    let d := addrs (c.p pd) n
    let r := t.cpuRead g t.core.now (d ++ addrs (c.p ps) n)
    let x := r.2.take n
    let y := r.2.drop n
    (∀ a ∈ d ++ addrs (c.p ps) n, (t.readByte g t.core.now a).isSome = true) → digitsOk x = true → digitsOk y = true →
      ∃ (z : List Byte) (co : Bool) (f : Byte), z.length = n ∧ digitsOk z = true ∧
        rel (bcd x) (bcd y) (if ci then c.fC.toNat else 0) (bcd z) co.toNat (100 ^ n) ∧
        Flags c { c with f := f } (some co) (some (z.all (· == 0)))
          (some (decide (8 ≤ (z.getLast?.getD 0).toNat / 16))) (some false) (some false) ∧
        let m := if write then 2 + 3 * n else 2 + 2 * n
        let w := (r.1.onCpu fun c => { c with f := f }).post g (r.1.core.now + m - 1) (if write then d.zip z else [])
        u = { w with core := { w.core with now := r.1.core.now + m } }

/-- No unit of the tenant has an event up to its current cycle. -/
def Quiet (g : Geo) (t : Tenant) : Prop := ∀ x ∈ allEvents, ∀ c, t.due g x = some c → t.core.now < c

/-- What an entry sequence does after its frame (R88 to R90, R93, R96, R104): at the cycle of its vector, which lies in
a line that has begun, it reads 4 bytes, as data, at the base in use then; after its last cycle pc is the address read,
with bit 0 cleared, an interrupt has set CPL, a trap has set T and cleared I, and unless recording is frozen the entry
is in the trace with the pc that it left and bit 0 set. -/
def EntryEnds (g : Geo) : Prop :=
  ∀ (t : Tenant) (x : VecRead) (e : Nat), t.core.vread = some x →
    (x.got = none → x.cycle ≤ e → x.cycle < t.core.begun * g.cpl →
      let c := t.core.cpu
      let r := t.vectorRead g x.cycle
        (addrs ((c.vbrH ++ c.vbrM ++ (0 : Byte) : BitVec 24) + BitVec.ofNat 24 (4 * x.vec)) 4)
      t.stepEntry g e = { r.1 with core := { r.1.core with vread := some { x with got := some (leVec 24 r.2 &&& ~~~1) } } }) ∧
    (∀ pc, x.got = some pc → x.last < e →
      let c := t.core.cpu
      let u := t.stepEntry g e
      let d := u.core.cpu
      u.core = { t.core with vread := none, cpu := d, regs := u.core.regs } ∧
        d = { c with pc := pc, cpl := x.cpl.getD c.cpl, f := d.f, bt := d.bt, btHead := d.btHead, btCount := d.btCount } ∧
        d.f = (if x.cpl.isSome then c.f else (c.f &&& 0xDF) ||| 0x40) ∧
        (t.bit F.CPU_CTRL_BT_FREEZE = true → d.bt = c.bt ∧ d.btHead = c.btHead) ∧
        (t.bit F.CPU_CTRL_BT_FREEZE = false → d.btHead = c.btHead + 1 ∧ Store.get 0 d.bt d.btHead.toNat = x.from_ ||| 1))

/-- The beginning of an entry sequence through vector `v` at the boundary b of tenant `t`, which pushes `frame` up to
cycle b + `p` (R93, R95, R96): `u` is the tenant with the frame stored, whose registers stay but for sp, and whose
vector is read in the cycle after the frame; the handler begins at b + `p` + 4. Of the register words at most the
counter `f` changes, by 1. -/
def Enters (g : Geo) (t u : Tenant) (frame : List Byte) (v p : Nat) (cpl : Option (BitVec 3)) (f : Fld) : Prop :=
  let c := t.core.cpu
  let b := t.core.now
  let sp := c.sp - BitVec.ofNat 24 frame.length
  let w := ({ t with core := { t.core with cpu := { c with sp := sp } } } : Tenant).post g (b + p)
    ((addrs sp frame.length).zip frame)
  u.core = { w.core with now := b + p + 4, vread := some ⟨b + p + 1, v, none, b + p + 3, c.pc, cpl⟩, regs := u.core.regs } ∧
    (∀ a, a ≠ f.key → u.word a = w.word a) ∧ u.word f.key = satInc (w.word f.key)

/-- A trap of the instruction at pc through vector `v` (R95, R96): the long frame of 10 bytes. -/
def TrapEntry (g : Geo) (v : Nat) (t u : Tenant) : Prop :=
  let c := t.core.cpu
  let half (a : Addr) : Half := (t.fetchHalf g t.core.now a).getD 0
  Enters g t u ([BitVec.ofNat 8 (0x80 + v), c.cpl.setWidth 8, c.f] ++ leBytes 3 c.pc
    ++ leBytes 2 (half c.pc) ++ leBytes 2 (half (c.pc + 2))) v 5 none F.CPU_TRAPS_COUNT

/-- A trap while T is 1 (R97): the tenant is HELD by a double trap, with its registers and memory as they were, and
the hosts get TENANT_FAULT, which on HOST-B may record the sequence series (R349). A tenant that a failover makes repeat
its double trap has the state that it had. -/
def DoubleTrap (s : State) (k : Tn) (t : Tenant) (s' : State) : Prop :=
  (s'.tenant k).fld F.TEN_CONT_STATE = (if t.redo then t.fld F.TEN_CONT_STATE else 3) ∧
    (s'.tenant k).core = { t.core with cpu := { t.core.cpu with doubleTrap := true } } ∧
    (∀ j, j ≠ k.val → s'.tenant j = s.tenant j) ∧
    (∀ a, ¬QueueWord a → s'.word a = s.word a) ∧ s'.hbm = s.hbm

end Sys2Proof.Rule

open Sys2Proof Sys2Proof.Machine


/-! ## The CPU -/

/-- ADD, ADC, SUB, SBC, AND, OR, XOR and CMP of two registers, and the forms with an immediate byte: the result, the
flags of R117 and R118, one cycle for a short form and two for a long one, and nothing else. -/
def Sys2Proof.Rule.ByteArithmetic : Prop :=
  ∀ (k : Tn) (cc : Cond) (gd gs : Fin 8) (f : ImmForm) (v : Byte),
    Rule.Regs k cc (.add k cc gd gs) 1 (Rule.Sum8 gd (·.g gd) (·.g gs) (fun _ => false) true) ∧
    Rule.Regs k cc (.adc k cc gd gs) 1 (Rule.Sum8 gd (·.g gd) (·.g gs) (·.fC) true) ∧
    Rule.Regs k cc (.sub k cc gd gs) 1 (Rule.Diff8 gd (·.g gd) (·.g gs) (fun _ => false) true) ∧
    Rule.Regs k cc (.sbc k cc gd gs) 1 (Rule.Diff8 gd (·.g gd) (·.g gs) (·.fC) true) ∧
    Rule.Regs k cc (.and k cc gd gs) 1 (Rule.Logic8 gd fun c => c.g gd &&& c.g gs) ∧
    Rule.Regs k cc (.or k cc gd gs) 1 (Rule.Logic8 gd fun c => c.g gd ||| c.g gs) ∧
    Rule.Regs k cc (.xor k cc gd gs) 1 (Rule.Logic8 gd fun c => c.g gd ^^^ c.g gs) ∧
    Rule.Regs k cc (.cmp k cc gd gs) 1 (Rule.Compare8 (·.g gd) (·.g gs)) ∧
    Rule.Regs k cc (.addi k cc f v) (immBase f) (Rule.Sum8 (immGd f) (·.g (immGd f)) (fun _ => v) (fun _ => false) true) ∧
    Rule.Regs k cc (.cmpi k cc f v) (immBase f) (Rule.Compare8 (·.g (immGd f)) (fun _ => v)) ∧
    Rule.Regs k cc (.andi k cc f v) (immBase f) (Rule.Logic8 (immGd f) fun c => c.g (immGd f) &&& v) ∧
    Rule.Regs k cc (.adci k cc gd v) 2 (Rule.Sum8 gd (·.g gd) (fun _ => v) (·.fC) true) ∧
    Rule.Regs k cc (.subi k cc gd v) 2 (Rule.Diff8 gd (·.g gd) (fun _ => v) (fun _ => false) true) ∧
    Rule.Regs k cc (.sbci k cc gd v) 2 (Rule.Diff8 gd (·.g gd) (fun _ => v) (·.fC) true) ∧
    Rule.Regs k cc (.ori k cc gd v) 2 (Rule.Logic8 gd fun c => c.g gd ||| v) ∧
    Rule.Regs k cc (.xori k cc gd v) 2 (Rule.Logic8 gd fun c => c.g gd ^^^ v)

/-- The instructions of one register: INC and DEC leave C, NEG subtracts from 0, NOT and SWAPN set Z and N alone, the
shifts and rotates put the bit shifted out into C, CLR sets Z and clears N alone, TST leaves H (R117, R118). -/
def Sys2Proof.Rule.ByteUnary : Prop :=
  ∀ (k : Tn) (cc : Cond) (g : Fin 8),
    Rule.Regs k cc (.inc k cc g) 1 (Rule.Sum8 g (·.g g) (fun _ => 1) (fun _ => false) false) ∧
    Rule.Regs k cc (.dec k cc g) 1 (Rule.Diff8 g (·.g g) (fun _ => 1) (fun _ => false) false) ∧
    Rule.Regs k cc (.neg k cc g) 1 (Rule.Diff8 g (fun _ => 0) (·.g g) (fun _ => false) true) ∧
    Rule.Regs k cc (.not k cc g) 1 (fun c c' => c' = { c.setG g (~~~c.g g) with f := c'.f } ∧
      Rule.Flags c c' none (some (c.g g == 0xFF)) (some !(c.g g).msb) none none) ∧
    Rule.Regs k cc (.swapn k cc g) 1 (fun c c' =>
      c' = { c.setG g ((c.g g <<< 4) ||| (c.g g >>> 4)) with f := c'.f } ∧
      Rule.Flags c c' none (some (c.g g == 0)) (some ((c.g g).getLsbD 3)) none none) ∧
    Rule.Regs k cc (.shl k cc g) 1 (Rule.Shift8 g (fun c => c.g g <<< 1) (fun c => (c.g g).getLsbD 7)) ∧
    Rule.Regs k cc (.shr k cc g) 1 (Rule.Shift8 g (fun c => c.g g >>> 1) (fun c => (c.g g).getLsbD 0)) ∧
    Rule.Regs k cc (.asr k cc g) 1 (Rule.Shift8 g (fun c => (c.g g >>> 1) ||| (c.g g &&& 0x80)) (fun c => (c.g g).getLsbD 0)) ∧
    Rule.Regs k cc (.rol k cc g) 1 (Rule.Shift8 g (fun c => (c.g g <<< 1) ||| BitVec.ofNat 8 c.fC.toNat)
      (fun c => (c.g g).getLsbD 7)) ∧
    Rule.Regs k cc (.ror k cc g) 1 (Rule.Shift8 g (fun c => (c.g g >>> 1) ||| BitVec.ofNat 8 (128 * c.fC.toNat))
      (fun c => (c.g g).getLsbD 0)) ∧
    Rule.Regs k cc (.clr k cc g) 1 (fun c c' => c' = { c.setG g 0 with f := c'.f } ∧
      Rule.Flags c c' none (some true) (some false) none none) ∧
    Rule.Regs k cc (.tst k cc g) 1 (fun c c' => c' = { c with f := c'.f } ∧
      Rule.Flags c c' (some false) (some (c.g g == 0)) (some (c.g g).msb) (some false) none)

/-- The 8-bit arithmetic, logic and shift instructions, with two operands and with one. Both parts are stated above. -/
def Obligations.ByteInstructions : Prop := Rule.ByteArithmetic ∧ Rule.ByteUnary

/-- The 16-bit instructions: the carry forms set all of C, Z, N, V and clear H; INCW, DECW and EXT set Z and N alone;
MUL is unsigned and clears C, V and H (R117, R118). -/
def Obligations.PairArithmetic : Prop :=
  ∀ (k : Tn) (cc : Cond) (wd ws : Fin 4) (ga gb : Fin 8) (v : Half),
    Rule.Regs k cc (.addw k cc wd ws) 2 (Rule.Sum16 wd (·.w wd) (·.w ws) (fun _ => false)) ∧
    Rule.Regs k cc (.adcw k cc wd ws) 2 (Rule.Sum16 wd (·.w wd) (·.w ws) (·.fC)) ∧
    Rule.Regs k cc (.subw k cc wd ws) 2 (Rule.Diff16 wd (·.w wd) (·.w ws) (fun _ => false)) ∧
    Rule.Regs k cc (.sbcw k cc wd ws) 2 (Rule.Diff16 wd (·.w wd) (·.w ws) (·.fC)) ∧
    Rule.Regs k cc (.cmpw k cc wd ws) 2 (Rule.Compare16 (·.w wd) (·.w ws)) ∧
    Rule.Regs k cc (.addiw k cc wd v) 2 (Rule.Sum16 wd (·.w wd) (fun _ => v) (fun _ => false)) ∧
    Rule.Regs k cc (.cmpiw k cc wd v) 2 (Rule.Compare16 (·.w wd) (fun _ => v)) ∧
    Rule.Regs k cc (.incw k cc wd) 1 (Rule.Zn16 wd fun c => c.w wd + 1) ∧
    Rule.Regs k cc (.decw k cc wd) 1 (Rule.Zn16 wd fun c => c.w wd - 1) ∧
    Rule.Regs k cc (.ext k cc wd) 1 (Rule.Zn16 wd fun c => ((c.g (lowG wd)).signExtend 16)) ∧
    Rule.Regs k cc (.mul k cc wd ga gb) 4 (fun c c' =>
      let r : Half := (c.g ga).setWidth 16 * (c.g gb).setWidth 16
      c' = { c.setW wd r with f := c'.f } ∧
        Rule.Flags c c' (some false) (some (r == 0)) (some r.msb) (some false) (some false))

/-- Moves between registers, immediates and the selects change no flag (R118, R121); the condition of SEL and SELW is
judged at the first cycle. -/
def Obligations.Moves : Prop :=
  ∀ (k : Tn) (cc : Cond) (gd gs gb : Fin 8) (wd ws wb : Fin 4) (f : ImmForm) (v : Byte) (v16 : Half) (sc : Cond),
    Rule.Regs k cc (.mov k cc gd gs) 1 (fun c c' => c' = c.setG gd (c.g gs)) ∧
    Rule.Regs k cc (.movw k cc wd ws) 1 (fun c c' => c' = c.setW wd (c.w ws)) ∧
    Rule.Regs k cc (.exg k cc gd gs) 1 (fun c c' => c' = (c.setG gd (c.g gs)).setG gs (c.g gd)) ∧
    Rule.Regs k cc (.ldi k cc f v) (immBase f) (fun c c' => c' = c.setG (immGd f) v) ∧
    Rule.Regs k cc (.ldiw k cc wd v16) 2 (fun c c' => c' = c.setW wd v16) ∧
    Rule.Does k cc (.sel k cc gd gs gb sc) (fun g t u =>
      u = Rule.after t (t.core.cpu.setG gd (if t.holds g sc then t.core.cpu.g gs else t.core.cpu.g gb)) 2) ∧
    Rule.Does k cc (.selw k cc wd ws wb sc) (fun g t u =>
      u = Rule.after t (t.core.cpu.setW wd (if t.holds g sc then t.core.cpu.w ws else t.core.cpu.w wb)) 2) ∧
    ∀ i ∈ [Instr.sel k cc gd gs gb sc, .selw k cc wd ws wb sc], ∀ s t, s.cpuReady k i = some t →
      t.holds (s.geo k) cc = false → exec i s = .next ((s.setTenant k (Rule.after t t.core.cpu 1)).issued t 1)

/-- The decimal instructions: DAJ.A and DAJ.S adjust g0 (R122, R123), CNVB.D writes the four decimal digits of the value
modulo 10,000, CNVB.B the value of four digits (R127). -/
def Sys2Proof.Rule.Decimal : Prop :=
  ∀ (k : Tn) (cc : Cond) (wd : Fin 4),
    Rule.Regs k cc (.dajA k cc) 1 (fun c c' =>
      let low := c.fH || decide (9 < (c.g 0).toNat % 16)
      let high := c.fC || decide (0x99 < (c.g 0).toNat)
      let d : Byte := (if low then 6 else 0) + (if high then 0x60 else 0)
      let r := c.g 0 + d
      c' = { c.setG 0 r with f := c'.f } ∧ Rule.Flags c c' (some high) (some (r == 0)) (some r.msb) (some false)
        (some (decide (16 ≤ (c.g 0).toNat % 16 + d.toNat % 16)))) ∧
    Rule.Regs k cc (.dajS k cc) 1 (fun c c' =>
      let d : Byte := (if c.fH then 6 else 0) + (if c.fC then 0x60 else 0)
      let r := c.g 0 - d
      c' = { c.setG 0 r with f := c'.f } ∧ Rule.Flags c c' none (some (r == 0)) (some r.msb) (some false)
        (some (decide ((c.g 0).toNat % 16 < d.toNat % 16)))) ∧
    Rule.Regs k cc (.cnvbD k cc wd) 6 (fun c c' => ∃ r : Half,
      (∀ i < 4, r.toNat / 16 ^ i % 16 = (c.w wd).toNat % 10000 / 10 ^ i % 10) ∧
      c' = { c.setW wd r with f := c'.f } ∧
        Rule.Flags c c' (some (decide (10000 ≤ (c.w wd).toNat))) (some (r == 0)) (some false) (some false) (some false)) ∧
    Rule.Regs k cc (.cnvbB k cc wd) 6 (fun c c' => ∃ r : Half,
      r.toNat = ((List.range 4).map fun i => (c.w wd).toNat / 16 ^ i % 16 * 10 ^ i).sum ∧
      c' = { c.setW wd r with f := c'.f } ∧
        Rule.Flags c c' (some false) (some (r == 0)) (some false)
          (some (decide (∃ i < 4, 9 < (c.w wd).toNat / 16 ^ i % 16))) (some false))

/-- Pointer instructions change one pointer or sp, or move a pointer's byte, and no flag (R118). -/
def Obligations.Pointers : Prop :=
  ∀ (k : Tn) (cc : Cond) (pk : Fin 4) (ws : Fin 4) (g : Fin 8) (n : Fin 3) (v : Byte) (v16 : Half) (s18 : BitVec 18)
    (s6 : BitVec 6) (x : Bool) (d e : PSel),
    Rule.Regs k cc (.ldpi k cc pk v16) 2 (fun c c' => c' = c.setP pk (v16.setWidth 24)) ∧
    Rule.Regs k cc (.ldph k cc pk v) 2 (fun c c' => c' = c.setP pk (v ++ (c.p pk).setWidth 16 : BitVec 24)) ∧
    Rule.Regs k cc (.lea k cc pk s18) 2 (fun c c' => c' = c.setP pk (c.pc + s18.signExtend 24)) ∧
    Rule.Regs k cc (.padd k cc pk ws x) 2 (fun c c' =>
      c' = c.setP pk (c.p pk + (if x then (c.w ws).signExtend 24 else (c.w ws).setWidth 24))) ∧
    Rule.Regs k cc (.adj k cc pk s6) 1 (fun c c' => c' = c.setP pk (c.p pk + s6.signExtend 24)) ∧
    Rule.Regs k cc (.movp k cc d e) 2 (fun c c' => c' = c.setSel d (c.sel e)) ∧
    Rule.Regs k cc (.adjsp k cc v16) 2 (fun c c' => c' = { c with sp := c.sp + v16.signExtend 24 }) ∧
    Rule.Regs k cc (.movgp k cc g pk n) 2 (fun c c' =>
      c' = c.setG g (BitVec.ofNat 8 ((c.p pk).toNat / 256 ^ n.val))) ∧
    Rule.Regs k cc (.movpg k cc pk n g) 2 (fun c c' => ∃ p : Addr,
      (∀ m : Fin 3, byteOf p m = if m = n then c.g g else byteOf (c.p pk) m) ∧ c' = c.setP pk p)

/-- Loads: the address, the bytes and the register that takes them, least significant byte first; the post-increment of a
short form; the loaded value prevails where the same register is changed twice (R83, R113, R118, R119). -/
def Obligations.Loading : Prop :=
  ∀ (k : Tn) (cc : Cond) (gd gx : Fin 8) (wd : Fin 4) (pk ps : Fin 4) (m : PtrForm) (a : BitVec 17) (u : BitVec 5)
    (s14 : BitVec 14),
    Rule.Loads k cc (.ld k cc gd m) (ptrBase m + 1) 1 (·.ea m) (fun b c => (c.postInc 1 m).setG gd (leVec 8 b)) ∧
    Rule.Loads k cc (.ldw k cc wd m) (ptrBase m + 2) 2 (·.ea m) (fun b c => (c.postInc 2 m).setW wd (leVec 16 b)) ∧
    Rule.Loads k cc (.lda k cc gd a) 3 1 (fun _ => a.setWidth 24) (fun b c => c.setG gd (leVec 8 b)) ∧
    Rule.Loads k cc (.ldaw k cc wd a) 4 2 (fun _ => a.setWidth 24) (fun b c => c.setW wd (leVec 16 b)) ∧
    Rule.Loads k cc (.ldx k cc gd pk gx) 3 1 (fun c => c.p pk + (c.g gx).setWidth 24) (fun b c => c.setG gd (leVec 8 b)) ∧
    Rule.Loads k cc (.lds k cc gd u) 2 1 (fun c => c.sp + u.setWidth 24) (fun b c => c.setG gd (leVec 8 b)) ∧
    Rule.Loads k cc (.ldp k cc pk ps s14) 5 3 (fun c => c.p ps + s14.signExtend 24) (fun b c => c.setP pk (leVec 24 b)) ∧
    Rule.Loads k cc (.pop k cc gd) 2 1 (·.sp) (fun b c => ({ c with sp := c.sp + 1 }).setG gd (leVec 8 b)) ∧
    Rule.Loads k cc (.popw k cc wd) 3 2 (·.sp) (fun b c => ({ c with sp := c.sp + 2 }).setW wd (leVec 16 b)) ∧
    Rule.Loads k cc (.popp k cc pk) 4 3 (·.sp) (fun b c => ({ c with sp := c.sp + 3 }).setP pk (leVec 24 b)) ∧
    Rule.Loads k cc (.popf k cc) 2 1 (·.sp) (fun b c =>
      { c with sp := c.sp + 1, f := (leVec 8 b &&& 0x3F) ||| (c.f &&& 0x40) })

/-- Stores: the address, the bytes least significant first, the post-increment of a short form, and the pushes, which
lower sp by the size first (R83, R113, R118). -/
def Obligations.Storing : Prop :=
  ∀ (k : Tn) (cc : Cond) (gs gx : Fin 8) (ws : Fin 4) (pk ps : Fin 4) (m : PtrForm) (a : BitVec 17) (u : BitVec 5)
    (s14 : BitVec 14),
    Rule.Stores k cc (.st k cc gs m) (ptrBase m + 1) (·.ea m) (fun c => [c.g gs]) (·.postInc 1 m) ∧
    Rule.Stores k cc (.stw k cc ws m) (ptrBase m + 2) (·.ea m) (fun c => [c.g (lowG ws), c.g (highG ws)]) (·.postInc 2 m) ∧
    Rule.Stores k cc (.sta k cc gs a) 3 (fun _ => a.setWidth 24) (fun c => [c.g gs]) id ∧
    Rule.Stores k cc (.staw k cc ws a) 4 (fun _ => a.setWidth 24) (fun c => [c.g (lowG ws), c.g (highG ws)]) id ∧
    Rule.Stores k cc (.stx k cc gs pk gx) 3 (fun c => c.p pk + (c.g gx).setWidth 24) (fun c => [c.g gs]) id ∧
    Rule.Stores k cc (.sts k cc gs u) 2 (fun c => c.sp + u.setWidth 24) (fun c => [c.g gs]) id ∧
    Rule.Stores k cc (.stp k cc pk ps s14) 5 (fun c => c.p ps + s14.signExtend 24)
      (fun c => [byteOf (c.p pk) 0, byteOf (c.p pk) 1, byteOf (c.p pk) 2]) id ∧
    Rule.Stores k cc (.push k cc gs) 2 (fun c => c.sp - 1) (fun c => [c.g gs]) (fun c => { c with sp := c.sp - 1 }) ∧
    Rule.Stores k cc (.pushw k cc ws) 3 (fun c => c.sp - 2) (fun c => [c.g (lowG ws), c.g (highG ws)])
      (fun c => { c with sp := c.sp - 2 }) ∧
    Rule.Stores k cc (.pushp k cc pk) 4 (fun c => c.sp - 3)
      (fun c => [byteOf (c.p pk) 0, byteOf (c.p pk) 1, byteOf (c.p pk) 2]) (fun c => { c with sp := c.sp - 3 }) ∧
    Rule.Stores k cc (.pushf k cc) 2 (fun c => c.sp - 1) (fun c => [c.f]) (fun c => { c with sp := c.sp - 1 })

/-- A byte of a CPU access written at cycle `e` in memory that a store can write: reading it gives the byte, whether a
live return-stack entry covers it or not, and every other byte reads as before (R103, R105). -/
def Sys2Proof.Rule.StoredByte : Prop :=
  ∀ (g : Geo) (t : Tenant) (e : Nat) (a : Addr) (v : Byte), isWritableRam a.toNat = true →
    ∀ b < 2 ^ 24, (t.cpuWrite g e [(a, v)]).core.ramByte b = if b = a.toNat then v else t.core.ramByte b

/-- A store whose bytes lie outside the I/O pages writes exactly its bytes that a store can write: every byte of memory
outside them reads as before, the forbidden ones change nothing and count one violation for the access (R85, R268,
R269). -/
def Sys2Proof.Rule.StoreFrame : Prop :=
  ∀ (g : Geo) (t : Tenant) (e : Nat) (ws : List (Addr × Byte)), (∀ w ∈ ws, isIo w.1.toNat = false) →
    (∀ b < 2 ^ 24, (∀ w ∈ ws, w.1.toNat = b → isWritableRam b = false) →
      (t.cpuWrite g e ws).core.ramByte b = t.core.ramByte b) ∧
    (t.cpuWrite g e ws).fld F.TEN_VIOLATIONS_COUNT
      = if ws.all (fun w => isWritableRam w.1.toNat) then t.fld F.TEN_VIOLATIONS_COUNT
        else (t.fld F.TEN_VIOLATIONS_COUNT + 1) % 2 ^ F.TEN_VIOLATIONS_COUNT.w

/-- What a store leaves in memory: the stored byte where it was stored, and every other byte as before. Both parts are stated above. -/
def Obligations.StoredBytes : Prop := Rule.StoredByte ∧ Rule.StoreFrame

/-- Jumps: the target counted from the next instruction in halfwords, or a pointer; DBNZ lowers its register by one
without flags and falls through at 0 (R113, R114, R118). -/
def Sys2Proof.Rule.JumpTargets : Prop :=
  ∀ (k : Tn) (cc : Cond) (g : Fin 8) (pk : Fin 4) (s8 : BitVec 8) (s20 : BitVec 20) (s16 : Half),
    Rule.Jumps k cc (.bra k cc s8) 2 2 (fun c => c.pc + 2 * s8.signExtend 24) ∧
    Rule.Jumps k cc (.brl k cc s20) 3 4 (fun c => c.pc + 2 * s20.signExtend 24) ∧
    Rule.Jumps k cc (.jmp k cc pk) 3 4 (fun c => c.p pk) ∧
    Rule.Does k cc (.dbnz k cc g s16) (fun _ t u =>
      let c := t.core.cpu
      let c1 := c.setG g (c.g g - 1)
      (c.g g = 1 → u = Rule.after t c1 2) ∧
      (c.g g ≠ 1 →
        let w := (t.onCpu fun _ => { c1 with pc := (c.pc + 2 * s16.signExtend 24) &&& ~~~1 }).traceAt (c.pc - 4)
        u = { w with core := { w.core with now := t.core.now + 3 } }))

/-- CALL keeps its return address in a live entry at sp − 3 where a CPU store can write those bytes, and RET takes it back
from the newest entry when that lies at sp: pc, sp and the entries are as before the call (R101, R102). -/
def Sys2Proof.Rule.CallAndReturn : Prop :=
  ∀ (k : Tn) (cc : Cond) (f : CallForm),
    Rule.Does k cc (.call k cc f) (fun _ t u =>
      let c := t.core.cpu
      ((addrs (c.sp - 3) 3).all (fun a => cpuWritable a.toNat) = true → c.rs.length < 16 →
        u.core.cpu.sp = c.sp - 3 ∧ u.core.cpu.rs = c.rs ++ [⟨c.pc, c.sp - 3⟩] ∧ u.core.mem = t.core.mem ∧
        u.core.now = t.core.now + (match f with | .rel8 _ => 2 | .rel20 _ => 3 | .ptr _ => 3) ∧
        u.core.cpu.pc = (match f with
          | .rel8 d => c.pc + 2 * d.signExtend 24
          | .rel20 d => c.pc + 2 * d.signExtend 24
          | .ptr p => c.p p) &&& ~~~1)) ∧
    Rule.Does k cc (.ret k cc) (fun _ t u =>
      let c := t.core.cpu
      ∀ r x, c.rs = r ++ [x] → x.res = c.sp →
        u.core.cpu.sp = c.sp + 3 ∧ u.core.cpu.rs = r ∧ u.core.cpu.pc = x.ret &&& ~~~1 ∧ u.core.mem = t.core.mem ∧
        u.core.now = t.core.now + 2)

/-- Jumps, calls and returns. Both parts are stated above. -/
def Obligations.ControlTransfers : Prop := Rule.JumpTargets ∧ Rule.CallAndReturn

/-- NOP, the flag instructions, and WAIT, which keeps the tenant at its boundary until WAIT_WAKE (R99, R118, R120). -/
def Sys2Proof.Rule.SystemGroup : Prop :=
  ∀ (k : Tn) (cc : Cond),
    Rule.Regs k cc (.nop k cc) 1 (fun c c' => c' = c) ∧
    Rule.Regs k cc (.ei k cc) 1 (fun c c' => c' = { c with f := c.f ||| 0x20 }) ∧
    Rule.Regs k cc (.di k cc) 1 (fun c c' => c' = { c with f := c.f &&& 0xDF }) ∧
    Rule.Regs k cc (.clc k cc) 1 (fun c c' => c' = { c with f := c.f &&& 0xFE }) ∧
    Rule.Regs k cc (.sec k cc) 1 (fun c c' => c' = { c with f := c.f ||| 1 }) ∧
    Rule.Regs k cc (.cmc k cc) 1 (fun c c' => c' = { c with f := c.f ^^^ 1 }) ∧
    Rule.Does k cc (.wait k cc) (fun _ t u => u = Rule.after t { t.core.cpu with wait := some t.core.now } 0) ∧
    Rule.Does k cc (.fence k cc) (fun _ t u =>
      let x := t.core
      (x.trail = none ∧ x.qdm = none ∧ x.dma0 = none ∧ x.dma1 = none → u = Rule.after t x.cpu 1) ∧
      (¬(x.trail = none ∧ x.qdm = none ∧ x.dma0 = none ∧ x.dma1 = none) →
        u = Rule.after t { x.cpu with fence := some ⟨x.now, x.trail.isSome, x.qdm.isSome, x.dma0.isSome, x.dma1.isSome⟩ } 0)) ∧
    Rule.Does k cc (.rtt k cc) (fun g t u =>
      let r := t.cpuRead g t.core.now (addrs t.core.cpu.sp 6)
      let b (i : Nat) : Byte := r.2.getD i 0
      let long := (b 0).getLsbD 7
      u.core.cpu.cpl = (b 1).setWidth 3 ∧ u.core.cpu.f = b 2 &&& 0x7F ∧ u.core.mem = t.core.mem ∧
      u.core.cpu.sp = r.1.core.cpu.sp + (if long then 10 else 6) ∧
      u.core.cpu.pc = (b 5 ++ b 4 ++ b 3 : BitVec 24) &&& ~~~1 ∧ u.core.now = r.1.core.now + (if long then 8 else 6))

/-- An instruction whose condition is false takes one cycle and does nothing else: no register, flag, byte of memory or
register page changes (R111). -/
def Obligations.ConditionFalse : Prop :=
  ∀ (k : Tn) (cc : Cond) (i : Instr), cpuTenant i = some k →
    ((encodeShort i).map (fun x => x.1) = some cc ∨ (encodeLong i).map (fun x => x.1) = some cc) →
    ∀ s t, s.cpuReady k i = some t → t.holds (s.geo k) cc = false →
      exec i s = .next ((s.setTenant k (Rule.after t t.core.cpu 1)).issued t 1)

/-- ADDP, SUBP and CMPP on decimal strings: the result, the carry and the flags (R124 to R126). -/
def Sys2Proof.Rule.DecimalStrings : Prop :=
  ∀ (k : Tn) (cc : Cond) (pd ps : Fin 4) (n1 : BitVec 4) (ci : Bool),
    Rule.Strings k cc (.addp k cc pd ps n1 ci) pd ps n1 ci true (fun x y i z co m => z + m * co = x + y + i) ∧
    Rule.Strings k cc (.subp k cc pd ps n1 ci) pd ps n1 ci true (fun x y i z co m => z + y + i = x + m * co) ∧
    Rule.Strings k cc (.cmpp k cc pd ps n1 ci) pd ps n1 ci false (fun x y i z co m => z + y + i = x + m * co)

/-- The packed-decimal instructions on registers and on strings. Both parts are stated above. -/
def Obligations.Decimals : Prop := Rule.Decimal ∧ Rule.DecimalStrings

/-- A reserved encoding at pc traps through vector 1, a forbidden fetch through vector 2; with T set the tenant takes a
double trap (R87, R95 to R97, R115). An entry sequence then reads its vector and ends as `Rule.EntryEnds` says. The
model's choices: in the ranges that R93 and R96 give, the frame is written at the last cycle and the vector read whole at
the first (log entry 94); a double trap that a failover makes repeat keeps STATE (log entry 115). -/
def Obligations.Traps : Prop :=
  (∀ g, Rule.EntryEnds g) ∧
  ∀ (s : State) (k : Tn) (t : Tenant), s.trapReady k = some t →
    (∀ h0 h1, t.fetch (s.geo k) = some (h0, h1) → zdecode k h0 h1 = none →
      (t.core.cpu.fT = false → ∃ u, exec (.reservedOpcodeTrap k) s = .next (s.setTenant k u) ∧ Rule.TrapEntry (s.geo k) 1 t u) ∧
      (t.core.cpu.fT = true → ∃ s', exec (.reservedOpcodeTrap k) s = .next s' ∧ Rule.DoubleTrap s k t s')) ∧
    (t.fetch (s.geo k) = none →
      (t.core.cpu.fT = false → ∃ u, exec (.fetchFault k) s = .next (s.setTenant k u) ∧ Rule.TrapEntry (s.geo k) 2 t u) ∧
      (t.core.cpu.fT = true → ∃ s', exec (.fetchFault k) s = .next s' ∧ Rule.DoubleTrap s k t s'))

/-- An interrupt accepted at a boundary: the short frame is pushed up to cycle b + 3, the vector 16 + n is read in the
cycle after it, the handler begins at b + 7, F stays, and CPL becomes the accepted priority at b + 6, where the entry
sequence ends (R92, R93, R95). The model's choice: the whole frame is written at cycle b + 3 and the vector read whole
in the cycle after (log entry 94). -/
def Obligations.InterruptEntry : Prop :=
  ∀ (s : State) (k : Tn) (t : Tenant) (n p : Nat), (s.tenant k).atBoundary (s.geo k) = some t →
    t.interrupt = some (n, p) →
    ∃ u, exec (.interruptEntry k) s = .next (s.setTenant k u) ∧
      Rule.Enters (s.geo k) t u ([BitVec.ofNat 8 (16 + n), t.core.cpu.cpl.setWidth 8, t.core.cpu.f] ++ leBytes 3 t.core.cpu.pc)
        (16 + n) 3 (some (BitVec.ofNat 3 p)) F.IRQ_ENTRIES_COUNT ∧
      Rule.EntryEnds (s.geo k)

/-- The end of a WAIT at a cycle at which a waking condition holds, and of a FENCE once every item launched before it has
completed: the next boundary is the cycle after (R99, R128). -/
def Sys2Proof.Rule.WaitsEnd : Prop :=
  ∀ (s : State) (k : Tn),
    let t := (s.tenant k).prep (s.geo k) (s.tenant k).core.now
    t.executes = true → t.ring = none → Rule.Quiet (s.geo k) t →
      (∀ n, t.core.cpu.wait = some n → t.wakes = true →
        exec (.waitWake k) s = .next (s.setTenant k (Rule.after t { t.core.cpu with wait := none } 1))) ∧
      (∀ f, t.core.cpu.fence = some f → f.trail = false → f.qdm = false → f.dma0 = false → f.dma1 = false →
        exec (.fenceEnd k) s = .next (s.setTenant k (Rule.after t { t.core.cpu with fence := none } 1)))

/-- The system instructions, and the end of WAIT and FENCE. Both parts are stated above. -/
def Obligations.SystemAndWaits : Prop := Rule.SystemGroup ∧ Rule.WaitsEnd

/-- Every well-formed CPU instruction has an encoding, which decodes to it with every operand, whatever halfword follows a
short one; a long one has bit 15 of its first halfword set (R108 to R115). -/
def Obligations.DecodeOfEncode : Prop :=
  ∀ (i : Instr) (k : Tn) (x : Half), cpuTenant i = some k → i.wf = true →
    ∃ h0 h1, zencode i = some (h0, h1) ∧ h0.getLsbD 15 = h1.isSome ∧ zdecode k h0 (h1.getD x) = some i

/-- Each encoding has one meaning: halfwords that decode to an instruction are its encoding (R108, R115). -/
def Obligations.EncodeOfDecode : Prop :=
  ∀ (k : Tn) (h0 h1 : Half) (i : Instr), zdecode k h0 h1 = some i →
    cpuTenant i = some k ∧ zencode i = some (h0, if h0.getLsbD 15 then some h1 else none)

/-- Halfwords written out from the encoding tables (R113, R114) decode to the instructions that they stand for, and
reserved encodings (R115) to none. -/
def Obligations.SampleWords : Prop :=
  ∀ k : Tn,
    zdecode k 0b0_000_0010_00_011_101 0 = some (.add k .al 3 5) ∧
    zdecode k 0b0_001_0001_01_010_100 0 = some (.movw k .eq 1 2) ∧
    zdecode k 0b0_010_0101_00_111_10_1 0 = some (.ld k .ne 7 (.short 2 true)) ∧
    zdecode k 0b0_000_0110_11111110 0 = some (.bra k .al 0xFE) ∧
    zdecode k 0b1_1001_0000000_0_100 0b00000000_10100101 = some (.ldi k .vc (.long 4) 0xA5) ∧
    zdecode k 0b1_0000_0010111_1_110 0x1FFF = some (.staw k .al 3 0x11FFF) ∧
    zdecode k 0b1_0000_0110000_1111 0xFFFE = some (.brl k .al 0xFFFFE) ∧
    zdecode k 0b1_0000_1000000_0011 0b00000000000_1_10_01 = some (.addp k .al 1 2 3 true) ∧
    zdecode k 0b0_000_0000_00001110 0 = none ∧ zdecode k 0b0_000_0001_11_000_000 0 = none ∧
    zdecode k 0b1_0000_0000000_1_000 0 = none

namespace Sys2Proof.Rule

open Sys2Proof.Machine

/-- Event `ev` of tenant `k` is its next one: command `i` takes it at its cycle `e`. `t` is the tenant with all that
comes before it performed; it becomes `u` with `post`, and nothing else in the block changes. -/
def Event (k : Tn) (ev : Ev) (i : Instr) (pre : Geo → Tenant → Prop) (post : Geo → Tenant → Nat → Tenant → Prop) : Prop :=
  ∀ s t e, (s.tenant k).ready (s.geo k) ev = some (t, e) → t.executes = true → pre (s.geo k) t →
    ∃ u, exec i s = .next (s.setTenant k u) ∧ post (s.geo k) t e u

/-- Tenant `k` performs the store or the read of command `i` at its instruction boundary, cycle `t.core.now`. -/
def Boundary (k : Tn) (i : Instr) (pre : Geo → Tenant → Prop) (post : Geo → Tenant → Tenant → Prop) : Prop :=
  ∀ s t, s.atBoundary k = some t → pre (s.geo k) t →
    ∃ u, exec i s = .next (s.setTenant k u) ∧ post (s.geo k) t u

/-- The tenant `w` is `t` with the execution state `c`, with other register words at `ks` at most. -/
def Now (t w : Tenant) (c : Core) (ks : List Nat) : Prop :=
  (∃ r m x, w = { t with core := { c with regs := r, atc := x }, mregs := m }) ∧
    (∀ a, a ∉ ks → w.word a = t.word a) ∧ ∀ p, w.owner p = t.owner p

/-- The trail of tenant `k` is at the last cycle `e` of its step, an entry `x` with code `op` that does not stop it
(R237): the tenant becomes `u` with `post`. -/
def TrailStep (k : Tn) (op : Nat) (i : Instr) (post : Tenant → Trail → TEntry → Nat → Tenant → Prop) : Prop :=
  ∀ s t tr x e, s.trailReady k = some (t, tr, x, e) → x.op = op → x.stop (s.geo k) tr.entry = none →
    ∃ u, exec i s = .next (s.setTenant k u) ∧ post t tr x e u

/-- The next entry of the trail, at `a`, for a step that begins the cycle after `e`. -/
def goesOn (t : Tenant) (tr : Trail) (e : Nat) (a : Addr) : Core :=
  { t.core with trail := some ⟨a, none, e + 1, e + 1, false, true, tr.tag⟩ }

/-- The EPOCH and the PLACEMENT of a tenant's execution, which an item carries (R252, R289). -/
def tagNow (t : Tenant) : Tag :=
  ⟨BitVec.ofNat 16 (t.fld F.TEN_CONT_EPOCH), BitVec.ofNat 16 (t.fld F.TEN_PLACE_PLACEMENT)⟩

/-- The execution state after a store of bytes to I/O addresses: the live return-stack entries over them take the
bytes (R103). -/
def covered (t : Tenant) (ws : List (Addr × Byte)) : Core :=
  { t.core with cpu := { t.core.cpu with rs := t.core.cpu.rs.map fun r => ws.foldl (fun r w => r.write w.1 w.2) r } }

/-- The execution state with nothing left of an item for a FENCE to wait for. -/
def fenced (c : Core) (h : Fence → Fence) : Core := { c with cpu := { c.cpu with fence := c.cpu.fence.map h } }

end Sys2Proof.Rule

/-- The tenant timers: a tick of the prescaler advances the count by 1, or returns it to 0, which sets WRAP, counts in
WRAPS and makes the timer's DMA request (R310, R311, R314); a read of COUNT_LO latches the high byte, a write to COUNT_HI
loads the count with the byte staged before it, CLR clears count, prescaler and staged byte (R315). A tick at the
start of a line leaves the count of the line that ends as it was (R316). -/
def Obligations.TenantTimers : Prop :=
  ∀ (k : Tn) (j : Fin 4) (v : Byte),
    (∀ wraps : Bool, Rule.Event k (.timer j) (if wraps then .timerWrap k j else .prescalerTick (.tenant k j))
      (fun _ t => decide (t.fld (F.TMR_RELOAD_RELOAD j) ≤ (t.core.timer j).count.toNat) = wraps)
      fun g t e u => ∃ w,
        let x := t.core.timer j
        let d := max 256 (256 * t.fld (F.TMR_DIV_N_N j) + t.fld (F.TMR_DIV_F_F j))
        let n := g.eventsIn (t.fld (F.TMR_CFG_SRC j)) x.upTo e
        u = (if wraps then Tenant.dmaEvent w (5 + j) e else w) ∧
          Rule.Now t w (t.core.setTimer j { x with
              acc := x.acc + 256 * n - d, upTo := e + 1, count := if wraps then 0 else x.count + 1,
              lineCount := if e = t.core.begun * g.cpl then x.count else x.lineCount })
            (if wraps then [(F.TMR_FLAG_WRAP j).key, F.TMR_WRAPS_COUNT.key] else []) ∧
          (wraps = true → w.bit (F.TMR_FLAG_WRAP j) = true ∧
            w.word F.TMR_WRAPS_COUNT.key = satInc (t.word F.TMR_WRAPS_COUNT.key))) ∧
    Rule.Boundary k (.timerCountRead k j) (fun _ _ => True) (fun _ t u =>
      let x := t.core.timer j
      u = { t with core := t.core.setTimer j { x with latch := x.count.extractLsb' 8 8 } }) ∧
    Rule.Boundary k (.timerCountLoad k j v) (fun _ _ => True) (fun _ t u => ∃ c : Core, Rule.Now t u c [] ∧
      (c.timer j).count = v ++ (t.core.timer j).staged ∧
      (∀ i : Fin 4, i ≠ j → (c.timer i).count = (t.core.timer i).count) ∧
      { c with tmr0 := t.core.tmr0, tmr1 := t.core.tmr1, tmr2 := t.core.tmr2, tmr3 := t.core.tmr3 }
        = Rule.covered t [(BitVec.ofNat 24 (0xF719 + 16 * j.val), v)]) ∧
    Rule.Boundary k (.timerClear k j) (fun _ _ => True) (fun _ t u => ∃ c : Core, Rule.Now t u c [] ∧
      (c.timer j).count = 0 ∧ (c.timer j).acc = 0 ∧ (c.timer j).staged = 0 ∧
      (∀ i : Fin 4, i ≠ j → c.timer i = t.core.timer i) ∧
      { c with tmr0 := t.core.tmr0, tmr1 := t.core.tmr1, tmr2 := t.core.tmr2, tmr3 := t.core.tmr3 } = t.core)

/-- Stores to SND.KEYON and KEYOFF join the pending bits (R213); a store to MIX.CTRL with SWAP sets SWAP_PENDING (R220); a
read of RAS captures line, line cycle, pixel and flags of the beam (R159). -/
def Obligations.SoundStoresAndBeam : Prop :=
  ∀ (k : Tn) (m : Half) (v : Byte),
    Rule.Boundary k (.keyon k m) (fun _ _ => True) (fun _ t u =>
      Rule.Now t u { Rule.covered t ((addrs 0xF504 2).zip (leBytes 2 m)) with
        snd := { t.core.snd with keyOn := t.core.snd.keyOn ||| m } } []) ∧
    Rule.Boundary k (.keyoff k m) (fun _ _ => True) (fun _ t u =>
      Rule.Now t u { Rule.covered t ((addrs 0xF506 2).zip (leBytes 2 m)) with
        snd := { t.core.snd with keyOff := t.core.snd.keyOff ||| m } } []) ∧
    Rule.Boundary k (.swap k v) (fun _ _ => True) (fun _ t u =>
      Rule.Now t u (Rule.covered t [(0xF601, v)]) [0x6008 / 4, F.MIX_STATUS_SWAP_PENDING.key] ∧
        u.bit ⟨0x6008 / 4, 0, 1⟩ = v.getLsbD 0 ∧
        u.bit F.MIX_STATUS_SWAP_PENDING = (v.getLsbD 1 || t.bit F.MIX_STATUS_SWAP_PENDING) ∧
        u.bit F.MIX_STATUS_ACTIVE_B = t.bit F.MIX_STATUS_ACTIVE_B) ∧
    Rule.Boundary k (.beamCapture k) (fun _ _ => True) (fun g t u =>
      let n := t.core.now / g.cpl % g.lines
      let c := t.core.now % g.cpl
      Rule.Now t u t.core [F.RAS_VLINE_VLINE.key, F.RAS_HCYC_HCYC.key, F.RAS_HPOS_HPOS.key, F.RAS_BFLAGS_BFLAGS.key] ∧
        u.fld F.RAS_VLINE_VLINE = n % 1024 ∧ u.fld F.RAS_HCYC_HCYC = c % 2048 ∧
        u.fld F.RAS_HPOS_HPOS = (if c < g.vis ∧ n < g.vblank then c * g.w / g.vis else 0x3FF) % 1024 ∧
        u.fld F.RAS_BFLAGS_BFLAGS = (decide (g.vblank ≤ n)).toNat + 2 * (decide (n < g.vblank ∧ g.vis ≤ c)).toNat
          + 4 * (decide (g.h ≤ n ∧ n < g.vblank)).toNat)

/-- Stores to BLT.GO and SAV.GO with GO set start a trail (R243) and a save step (R358) on an idle unit whose CTRL.EN is
set, and set BUSY_GO on a busy one; otherwise they do nothing. -/
def Sys2Proof.Rule.TrailAndSaveGo : Prop :=
  ∀ (k : Tn) (v : Byte),
    Rule.Boundary k (.bltGo k v) (fun _ _ => True) (fun _ t u =>
      let c := Rule.covered t [(0xFB07, v)]
      if v.getLsbD 0 = true then
        match t.core.trail with
        | none => Rule.Now t u (if t.bit ⟨0xB008 / 4, 0, 1⟩ then { c with trail := some ⟨BitVec.ofNat 24 (t.fld F.BLT_TRAIL_TRAIL),
            none, t.core.now + 1, t.core.now + 1, false, false, Rule.tagNow t⟩ } else c) []
        | some _ => Rule.Now t u c [F.BLT_STAT_BUSY_GO.key] ∧ u.bit F.BLT_STAT_BUSY_GO = true
      else Rule.Now t u c []) ∧
    Rule.Boundary k (.savGo k v) (fun _ _ => True) (fun _ t u =>
      let c := Rule.covered t [(0xFD08, v)]
      if v.getLsbD 0 = true then
        match t.core.sav with
        | none => ∃ m : Word, m = t.word F.SAV_MASK_MASK.key ∧
            Rule.Now t u (if t.bit ⟨0xD008 / 4, 0, 1⟩ then { c with sav := some ⟨m,
              t.core.now + 4 + 32 * ((List.range 32).filter fun p => m.getLsbD p).length,
              BitVec.ofNat 16 (t.fld F.TEN_CONT_EPOCH)⟩ } else c) []
        | some _ => Rule.Now t u c [F.SAV_FLAGS_BUSY_GO.key] ∧ u.bit F.SAV_FLAGS_BUSY_GO = true
      else Rule.Now t u c [])

/-- Stores to QDM.GO (R245) and to a channel's GO (R246, R247) with GO set: a busy unit sets BUSY_GO; an idle one whose
CTRL.EN is set starts a transfer or an item from the registers as they stand, with the first request of REQ 0 at the
next cycle and that of REQ 2 at the next VIS_CYC; a quick DMA range outside its regions sets BAD_RANGE, a channel
request of 13 or more BAD_REQ. -/
def Sys2Proof.Rule.DmaGo : Prop :=
  ∀ (k : Tn) (c : Fin 2) (v : Byte),
    Rule.Boundary k (.qdmGo k v) (fun _ _ => v.getLsbD 0 = true) (fun g t u =>
      let x := Rule.covered t [(0xFA0E, v)]
      let src := BitVec.ofNat 24 (t.fld F.QDM_SRC_SRC)
      let dst := BitVec.ofNat 24 (t.fld F.QDM_DST_DST)
      let n := t.fld F.QDM_LEN_LEN
      let from_ (a : Addr) : Prop := a.toNat < 0x4000 ∨ (0x20000 ≤ a.toNat ∧ a.toNat < 0x20000 + g.imgLen)
      let to_ (a : Addr) : Prop := (0x4000 ≤ a.toNat ∧ a.toNat < 0xC000) ∨ (0xE000 ≤ a.toNat ∧ a.toNat < 0xEC00)
      let ok : Prop := 1 ≤ n ∧ n ≤ 32768 ∧ (∀ a ∈ addrs src n, from_ a) ∧ ∀ a ∈ addrs dst n, to_ a
      match t.core.qdm with
      | some _ => Rule.Now t u x [F.QDM_STAT_BUSY_GO.key] ∧ u.bit F.QDM_STAT_BUSY_GO = true
      | none =>
        if t.bit ⟨0xA008 / 4, 0, 1⟩ then
          (ok → Rule.Now t u { x with qdm := some ⟨src, dst, n, t.core.now + 1, Rule.tagNow t⟩ } []) ∧
            (¬ok → Rule.Now t u x [F.QDM_STAT_BAD_RANGE.key] ∧ u.bit F.QDM_STAT_BAD_RANGE = true)
        else Rule.Now t u x []) ∧
    Rule.Boundary k (.dmaGo k c v) (fun _ _ => v.getLsbD 0 = true) (fun g t u =>
      let x := Rule.covered t [(BitVec.ofNat 24 (0xFC12 + 0x20 * c.val), v)]
      let cfg : Byte := BitVec.ofNat 8 (t.fld ⟨(F.DMA_CFG_ESIZE c).key, (F.DMA_CFG_ESIZE c).lo, 8⟩)
      let req := cfg.toNat / 16
      let b := if t.fld (F.DMA_BURST_BURST c) = 0 then 256 else t.fld (F.DMA_BURST_BURST c)
      let n := if t.fld (F.DMA_COUNT_COUNT c) = 0 then 65536 else t.fld (F.DMA_COUNT_COUNT c)
      let first : Option Nat := if req = 0 then some (t.core.now + 1)
        else if req = 2 then some (g.visFrom (t.core.now + 1)) else none
      match t.core.dma c with
      | some _ => Rule.Now t u x [(F.DMA_STAT_BUSY_GO c).key] ∧ u.bit (F.DMA_STAT_BUSY_GO c) = true
      | none =>
        if t.bit ⟨0xC008 / 4, 0, 1⟩ then
          if 13 ≤ req then Rule.Now t u x [(F.DMA_STAT_BAD_REQ c).key] ∧ u.bit (F.DMA_STAT_BAD_REQ c) = true
          else Rule.Now t u (x.setDma c (some ⟨cfg, b, n, BitVec.ofNat 24 (t.fld (F.DMA_SRC_SRC c)),
              BitVec.ofNat 24 (t.fld (F.DMA_DST_DST c)), BitVec.ofNat 24 (t.fld (F.DMA_INDEX_INDEX c)), 0, 0,
              first.map fun r => (r, min b n), if req = 2 then first.map fun r => g.visFrom (r + 1) else none,
              false, false, Rule.tagNow t⟩))
              [(F.DMA_DONE_ELEMS_MOVED c).key] ∧ u.fld (F.DMA_DONE_ELEMS_MOVED c) = 0
        else Rule.Now t u x [])

/-- The GO writes of the tenant units: trail, save, DMA. Both parts are stated above. -/
def Obligations.UnitGo : Prop := Rule.TrailAndSaveGo ∧ Rule.DmaGo

/-- The end of a trail's step (R236, R239, R244): END sets DONE and ends the trail, LINK goes on at its address, WAIT_LINE
and SIGNAL at the next entry, SIGNAL with its bit of SIG set; each counts in COMMANDS. An invalid entry stops the trail
with BAD_OP or BAD_ENTRY (R237). -/
def Obligations.TrailCommands : Prop :=
  ∀ k : Tn,
    let counted (t u : Tenant) : Prop := u.word F.BLT_COMMANDS_COUNT.key = satInc (t.word F.BLT_COMMANDS_COUNT.key)
    let ended (t : Tenant) : Core := Rule.fenced { t.core with trail := none } fun f => { f with trail := false }
    Rule.TrailStep k 0 (.end_ k) (fun t _ _ _ u => counted t u ∧ u.bit F.BLT_STAT_DONE = true ∧
      Rule.Now t u (ended t) [F.BLT_COMMANDS_COUNT.key, F.BLT_STAT_DONE.key]) ∧
    Rule.TrailStep k 5 (.link k) (fun t tr x e u => counted t u ∧
      Rule.Now t u (Rule.goesOn t tr e x.src) [F.BLT_COMMANDS_COUNT.key]) ∧
    Rule.TrailStep k 6 (.waitLine k) (fun t tr _ e u => counted t u ∧
      Rule.Now t u (Rule.goesOn t tr e (tr.entry + 16)) [F.BLT_COMMANDS_COUNT.key]) ∧
    Rule.TrailStep k 7 (.signal k) (fun t tr x e u => counted t u ∧
      u.fld F.BLT_SIG_SIG = t.fld F.BLT_SIG_SIG ||| 2 ^ (x.arg.toNat % 8) ∧
      Rule.Now t u (Rule.goesOn t tr e (tr.entry + 16)) [F.BLT_COMMANDS_COUNT.key, F.BLT_SIG_SIG.key]) ∧
    (∀ s t tr x e b, s.trailReady k = some (t, tr, x, e) → x.stop (s.geo k) tr.entry = some b →
      ∃ u, exec (.trailStop k) s = .next (s.setTenant k u) ∧
        let f := if b = 3 then F.BLT_STAT_BAD_OP else F.BLT_STAT_BAD_ENTRY
        u.bit f = true ∧ Rule.Now t u (ended t) [f.key])

/-- A rectangle command at its last cycle (R230, R236, R238, R240, R241): a destination pixel that one written pixel of
the rectangle alone falls on holds that pixel's value, source pixels as read at that cycle; a byte under no written pixel
stays; the trail goes on at the next entry. A skipped one sets its OVERLAP flag, counts in SKIPS and writes nothing.
A stale trail, of an older epoch or placement, ends instead and writes nothing (R252, R289). While the module is PARKED
the blitters are gated and no trail goes on (R386). -/
def Obligations.Rectangles : Prop :=
  (∀ (k : Tn) (s : State) (tr : Trail) (b : BitVec 128) (i : Instr),
    let t := s.tenant k
    let x := TEntry.ofBytes b
    t.core.trail = some tr → tr.bytes = some b → tr.tag ≠ Rule.tagNow t → x.stop (s.geo k) tr.entry = none →
    s.gated = false →
    ((x.op = 1 ∧ i = .copy k) ∨ (x.op = 2 ∧ i = .fill k) ∨ (x.op = 3 ∧ i = .copykey k) ∨ (x.op = 4 ∧ i = .xform k)) →
      ∃ s', exec i s = .next s' ∧ s'.tenants = (s.setTenant k { t with core := { t.core with trail := none } }).tenants ∧
        s'.hbm = s.hbm ∧ s'.gate = s.gate ∧
        ∀ a, (∀ n, t.engine = some n → a ≠ (F.RNG_SUPPRESSED_COUNT n).key) → s'.word a = s.word a) ∧
  (∀ (k : Tn) (s : State), s.gated = true → ∀ i ∈ [Instr.copy k, .fill k, .copykey k, .xform k, .end_ k, .link k, .waitLine k,
    .signal k, .trailStop k], exec i s = .next s) ∧
  ∀ (k : Tn) (s : State) (t : Tenant) (tr : Trail) (x : TEntry) (e : Nat) (i : Instr),
    s.trailReady k = some (t, tr, x, e) → (s.tenant k).trailStale = false → x.stop (s.geo k) tr.entry = none →
    ((x.op = 1 ∧ i = .copy k) ∨ (x.op = 2 ∧ i = .fill k) ∨ (x.op = 3 ∧ i = .copykey k) ∨ (x.op = 4 ∧ i = .xform k)) →
      let g := s.geo k
      let from_ (p : Nat × Nat) := pixelAddr x.bpp8 x.sodd x.src x.spitch p.1 p.2
      let to_ (p : Nat × Nat) := pixelAddr x.bpp8 x.dodd x.dst x.dpitch (x.target p.1 p.2).1 (x.target p.1 p.2).2
      let v (p : Nat × Nat) : Nat :=
        if x.op = 2 then (if x.bpp8 then x.arg.toNat else x.arg.toNat % 16)
        else pixelOf x.bpp8 (from_ p).2 ((t.readByte g e (from_ p).1).getD 0)
      let drawn (p : Nat × Nat) : Prop := p.1 < x.w ∧ p.2 < x.h ∧ x.writes (v p) = true
      ∃ u s', exec i s = .next s' ∧ s'.tenants = (s.setTenant k u).tenants ∧ s'.hbm = s.hbm ∧ s'.gate = s.gate ∧
        (∀ a, a ≠ (F.SBLT_PIXELS_COUNT t.sector).key → a ≠ (F.SBLT_STAGED_COUNT t.sector).key → s'.word a = s.word a) ∧
        u.core.trail = (Rule.goesOn t tr e (tr.entry + 16)).trail ∧ u.core.now = t.core.now ∧
        (x.skipped = true →
          let f := if x.op = 4 then F.BLT_STAT_OVERLAP_XFORM else F.BLT_STAT_OVERLAP_PITCH
          u.bit f = true ∧ Rule.Now t u (Rule.goesOn t tr e (tr.entry + 16)) [f.key, F.BLT_SKIPS_COUNT.key]) ∧
        (x.skipped = false →
          u.word F.BLT_COMMANDS_COUNT.key = satInc (t.word F.BLT_COMMANDS_COUNT.key) ∧
          (∀ p, drawn p → isWritableRam (to_ p).1.toNat = true → (∀ q, drawn q → to_ q = to_ p → q = p) →
            pixelOf x.bpp8 (to_ p).2 (u.core.ramByte (to_ p).1.toNat) = v p) ∧
          ∀ a, (∀ p, drawn p → (to_ p).1.toNat ≠ a) → u.core.ramByte a = t.core.ramByte a)

/-- A raster entry at its cycle (R151 to R156): an entry of a line that the frame does not have, or one before its
predecessor, is skipped with its flag; an invalid target is skipped; a valid one writes its bytes at its position. Then
the next entry of the list is read, or the list ends. -/
def Sys2Proof.Rule.RasterEntries : Prop :=
  ∀ k : Tn, Rule.Event k .raster (.rasterEntry k) (fun _ _ => True) fun g t e u =>
    ∀ b, t.core.ras.entry = some b →
      let x := REntry.ofBytes b
      let r := t.core.ras
      let pos := if x.x < g.w then (r.frameLine + x.line) * 1024 + x.x else (r.frameLine + x.line + 1) * 1024
      let skip : Option Fld := if g.lines ≤ x.line then some F.RAS_ERR_RANGE_SKIP
        else if pos < r.prev then some F.RAS_ERR_ORDER_SKIP
        else if x.valid then none else some F.RAS_ERR_BAD_TARGET
      let n := t.fld F.RAS_PTR_PTR
      let next : BitVec 64 := leVec 64 ((List.range 8).map fun j => t.core.ramAt e (0x4000 + (r.base + 8 * n + j) % 0x8000))
      (match skip with
        | some f => u.bit f = true ∧ u.word F.RAS_SKIPS_COUNT.key = satInc (t.word F.RAS_SKIPS_COUNT.key) ∧
            u.core.rlog = t.core.rlog
        | none => u.word F.RAS_ENTRIES_COUNT.key = satInc (t.word F.RAS_ENTRIES_COUNT.key) ∧ u.core.ras.prev = pos ∧
            (∃ w ∈ u.core.rlog, w.pos = pos ∧ w.raster = true ∧ w.key = (viewStore x.page x.reg x.lo).1 ∧
              w.val = (viewStore x.page x.reg x.lo).2.2) ∧
            u.core.rlog.length = t.core.rlog.length + (if x.wide then 2 else 1)) ∧
      (if n < min r.len 1024 then
          u.fld F.RAS_PTR_PTR = n + 1 ∧
            if next.getLsbD 15 then u.bit F.RAS_STATUS_ACTIVE = false ∧ u.core.ras.entry = none
            else u.core.ras.entry = some next ∧ u.core.ras.readAt = e
        else u.bit F.RAS_STATUS_ACTIVE = false ∧ u.core.ras.entry = none) ∧
      u.core.mem = t.core.mem ∧ u.core.cpu = t.core.cpu ∧ u.core.now = t.core.now

/-- A line-match unit sets its bit of LM_PEND and makes its DMA request (R160, R161, R247); the evaluation of a canvas
line keeps the first LIMIT sprites on it in the order from FIRST, and counts the others as dropped (R138, R140). -/
def Sys2Proof.Rule.LineMatchAndSprites : Prop :=
  ∀ k : Tn,
    (∀ j : Fin 4, Rule.Event k (.lineMatch j) (.lineMatch k j) (fun _ _ => True) fun _ t e u => ∃ w,
      u = Tenant.dmaEvent w (9 + j) e ∧ Rule.Now t w (t.core.setLmFrom j (e + 1)) [F.RAS_LM_PEND_PEND.key] ∧
        w.fld F.RAS_LM_PEND_PEND = t.fld F.RAS_LM_PEND_PEND ||| 2 ^ j.val) ∧
    Rule.Event k .sprite (.spriteEvaluation k) (fun _ _ => True) fun g t _ u =>
      let l := t.core.evalNext
      let at_ (f : Fld) : Nat := getBits (t.core.targetWord (t.word f.key) f.key (l * 1024)) f.lo f.w
      let limit := if at_ F.SPR_LIMIT_LIMIT = 0 ∨ 64 < at_ F.SPR_LIMIT_LIMIT then 64 else at_ F.SPR_LIMIT_LIMIT
      let on := ((List.range 256).map fun j => spriteBytes t.core.sat ((at_ F.SPR_FIRST_FIRST + j) % 256)).filter
        fun b => spriteOn b (l % g.lines)
      let dropped := on.length - limit
      Rule.Now t u { t.core with evalNext := g.canvasFrom (l + 1), kept := t.core.kept ++ [⟨l, on.take limit⟩] }
          [F.SPR_LINE_COUNT_LINE_COUNT.key, F.SPR_DROP_LAST_DROP_LAST.key, F.SPR_STATUS_LINE_OVF.key, F.SPR_OVF_ANY_OVF.key,
            F.SPR_DROPS_COUNT.key, F.SPR_OVF_LINES_COUNT.key] ∧
        u.fld F.SPR_LINE_COUNT_LINE_COUNT = min on.length limit ∧ u.fld F.SPR_DROP_LAST_DROP_LAST = dropped ∧
        u.bit F.SPR_STATUS_LINE_OVF = decide (0 < dropped) ∧
        (0 < dropped → u.bit F.SPR_OVF_ANY_OVF = true ∧
          u.word F.SPR_OVF_LINES_COUNT.key = satInc (t.word F.SPR_OVF_LINES_COUNT.key)) ∧
        (dropped = 0 → u.word F.SPR_DROPS_COUNT.key = t.word F.SPR_DROPS_COUNT.key)

/-- Raster programs, line-match units and sprite evaluation. Both parts are stated above. -/
def Obligations.RasterAndSprites : Prop := Rule.RasterEntries ∧ Rule.LineMatchAndSprites

/-- An audio tick (R78, R208, R213, R217, R218, R220): the sound unit of the engine takes the due ticks of its tenants
by their deadlines, and another one than the first waits; the first makes one output sample of its number on both paths,
whose main magnitude never exceeds the threshold of the set in use and which is silent while MIX.CTRL.EN is 0; a pending
swap takes effect, pending keys are consumed while SND.CTRL.EN is 1. -/
def Obligations.AudioTicks : Prop :=
  ∀ (k : Tn) (s : State),
    (∀ j w n d x n' d' x', Store.find? s.tenants j = some w → j ≠ k.val → w.engine = (s.tenant k).engine →
      (s.tenant k).engine ≠ none → s.sampleDue k = some (n, d, x) → s.sampleDue j = some (n', d', x') →
      (n' * d < n * d' ∨ (n' * d = n * d' ∧ x' ≤ x)) → exec (.audioTick k) s = .next s) ∧
    ∀ t e, s.sampleFirst k = true → (s.tenant k).ready (s.geo k) .audio = some (t, e) →
    ∃ u, exec (.audioTick k) s
        = .next ((s.tenantWork (s.tenant k) fun w => { w with samples := w.samples + 1 }).setTenant k u) ∧
    let b := if t.bit F.MIX_STATUS_SWAP_PENDING then !t.bit F.MIX_STATUS_ACTIVE_B else t.bit F.MIX_STATUS_ACTIVE_B
    u.core.snd.ticks = t.core.snd.ticks + 1 ∧
      (∃ o, u.core.snd.out = t.core.snd.out ++ [o] ∧ o.no = t.core.snd.ticks ∧
        o.main.peak ≤ 128 * t.fld (F.MIX_LIM_TH_LIM_TH b.toNat) + 127 ∧
        o.fast.peak ≤ 128 * t.fld (F.MIX_LIM_TH_LIM_TH b.toNat) + 127 ∧
        (t.bit ⟨0x6008 / 4, 0, 1⟩ = false → o.main = ⟨0, 0⟩ ∧ o.fast = ⟨0, 0⟩)) ∧
      u.bit F.MIX_STATUS_ACTIVE_B = b ∧ u.bit F.MIX_STATUS_SWAP_PENDING = false ∧
      (t.bit ⟨0x5008 / 4, 0, 1⟩ = true → u.core.snd.keyOn = 0 ∧ u.core.snd.keyOff = 0) ∧
      (t.bit ⟨0x5008 / 4, 0, 1⟩ = false → u.core.snd.keyOn = t.core.snd.keyOn ∧ u.core.snd.voices = t.core.snd.voices) ∧
      u.core.now = t.core.now ∧ u.core.begun = t.core.begun ∧
      u.core.cpu = { t.core.cpu with rs := u.core.cpu.rs }

namespace Sys2Proof.Rule

open Sys2Proof.Machine

/-- The block `u` is `s` with other register words at `ks` at most. -/
def Block (s u : State) (ks : List Nat) : Prop :=
  (∃ r, u = { s with regs := r }) ∧ ∀ a, a ∉ ks → u.word a = s.word a

/-- Every byte of a tenant's memory but those at the addresses of `ws` reads as before. -/
def MemoryBut (t u : Tenant) (ws : List Addr) : Prop :=
  ∀ a : Nat, (∀ w ∈ ws, w.toNat ≠ a) → u.core.ramByte a = t.core.ramByte a

/-- The burst of channel `c` of tenant `k` is at its last cycle `e` on physical channel `ch` of a unit that runs, with no
bus error, no termination and no stall for a credit: `n` elements of item `i`, which is of the tenant's epoch and
placement (R17, R247 to R252). -/
def BurstDue (s : State) (k : Tn) (c : Fin 2) (t : Tenant) (i : DmaItem) (e ch n : Nat) : Prop :=
  s.burstReady k c = some (t, i, e) ∧ (s.tenant k).dmaStale c = false ∧ s.chOf t.sector k c = some ch ∧
    s.burstFlows k ch = true ∧ t.replaysFault c e = false ∧ s.chEn t.sector ch = true ∧ s.dmaStopped t.sector = false ∧ i.failed = false ∧
    i.terminated = false ∧ ∃ b, i.busy = some (b, n)

/-- Field `f` of the target registers as the pixel at effect position `pos` sees it (R143, R156). -/
def seen (t : Tenant) (pos : Nat) (f : Fld) : Nat := getBits (t.core.targetWord (t.word f.key) f.key pos) f.lo f.w

/-- The value of pixel (`fx`, `fy`) of pattern `tile` at byte offset `base`, in 4 or 8 bits for a pixel (R131, R132). -/
def patternValue (t : Tenant) (pos : Nat) (bpp8 : Bool) (base tile fx fy : Nat) : Nat :=
  if bpp8 then (t.core.vramAt pos (base + 64 * tile + 8 * fy + fx)).toNat
  else (t.core.vramAt pos (base + 32 * tile + 4 * fy + fx / 2)).toNat / 16 ^ (fx % 2) % 16

/-- Plane `p` is opaque at canvas pixel (`x`, `n`), where it shows index `v` (R133 to R136). -/
def PlaneShows (t : Tenant) (pos p x n v : Nat) : Prop :=
  let r := seen t pos
  let depth := r (F.VID_MODE_DEPTH p)
  let w := 8 * (32 * 2 ^ r (F.VID_MODE_MAPW p))
  let h := 8 * (32 * 2 ^ r (F.VID_MODE_MAPH p))
  let px := (x + r (F.VID_SCROLLX_SCROLL p)) % w
  let py := (n + r (F.VID_SCROLLY_SCROLL p)) % h
  let o := 2 * r (F.VID_MAPBASE_MAPBASE p) + 2 * (py / 8 * (w / 8) + px / 8)
  let e := (t.core.vramAt pos o).toNat + 256 * (t.core.vramAt pos (o + 1)).toNat
  let fx := if e / 2 ^ 14 % 2 = 1 then 7 - px % 8 else px % 8
  let fy := if e / 2 ^ 15 % 2 = 1 then 7 - py % 8 else py % 8
  let q := patternValue t pos (depth == 2) (32 * r (F.VID_PATBASE_PATBASE p)) (e % 1024) fx fy
  (depth = 1 ∨ depth = 2) ∧
    (r ⟨0x1008 / 4, 1, 1⟩ = 1 → r F.VID_NOWRAP_NOWRAP / 2 ^ p % 2 = 1 →
      x + r (F.VID_SCROLLX_SCROLL p) % w < w ∧ n + r (F.VID_SCROLLY_SCROLL p) % h < h) ∧
    q ≠ 0 ∧ v = (q + r (F.PAL_OFS_OFS p) + (if depth = 1 then 16 * (e / 1024 % 16) else 0)) % 256

/-- Sprite `b` covers canvas pixel (`x`, `n`) and is opaque there, with index `v` (R137 to R139). -/
def SpriteShows (t : Tenant) (pos : Nat) (b : BitVec 64) (x n v : Nat) : Prop :=
  ∃ sx sy : Nat,
    let w := 8 * ((b.extractLsb' 11 3).toNat + 1)
    let h := 8 * ((b.extractLsb' 26 3).toNat + 1)
    let fx := if b.getLsbD 29 then w - 1 - sx else sx
    let fy := if b.getLsbD 30 then h - 1 - sy else sy
    let q := patternValue t pos (b.getLsbD 46) (32 * seen t pos F.SPR_PATBASE_PATBASE)
      (((b.extractLsb' 32 10).toNat + fy / 8 * (w / 8) + fx / 8) % 1024) (fx % 8) (fy % 8)
    (x : Int) = (b.extractLsb' 0 11).toInt + sx ∧ (n : Int) = (b.extractLsb' 16 10).toInt + sy ∧ sx < w ∧ sy < h ∧
      q ≠ 0 ∧ v = (q + (b.extractLsb' 48 8).toNat + seen t pos F.PAL_OFS_SPR_OFS
        + (if b.getLsbD 46 then 0 else 16 * (b.extractLsb' 42 4).toNat)) % 256

/-- The priority group of a sprite (R137). -/
def groupOf (b : BitVec 64) : Nat := (b.extractLsb' 14 2).toNat

/-- The rank order front to back (R141), planes as 0 to 3 and sprite groups as 4 to 7: with EXPERT 0 each group before the
planes of its priority, with EXPERT 1 the slots that are not skipped. -/
def rankOrder (t : Tenant) (pos : Nat) : List Nat :=
  let r := seen t pos
  if r ⟨0x1008 / 4, 1, 1⟩ = 1 then
    ((List.range 8).filter fun k => r (F.VID_ORDER_SKIP k) != 1).map fun k => r (F.VID_ORDER_LAYER k)
  else [3, 2, 1, 0].flatMap fun g => (4 + g) :: (List.range 4).filter fun p => r (F.VID_MODE_PRIO p) == g

/-- Rank `c` shows index `v` at a pixel: its plane is opaque there, or, while SPR.CTRL.EN is 1, the first sprite of its
group among the kept ones that is opaque there (R142). -/
def RankShows (t : Tenant) (pos x n : Nat) (kept : List (BitVec 64)) (c v : Nat) : Prop :=
  if c < 4 then PlaneShows t pos c x n v
  else seen t pos ⟨0x2008 / 4, 0, 1⟩ = 1 ∧ ∃ front b back, kept = front ++ b :: back ∧ groupOf b = c - 4 ∧
    SpriteShows t pos b x n v ∧ ∀ a ∈ front, groupOf a = c - 4 → ∀ u, ¬SpriteShows t pos a x n u

/-- The bytes that entries of a mirror's stream write, in order. -/
def stagedWrites (es : List MEntry) : List (Nat × Byte) :=
  es.flatMap fun e => match e with
    | .write ws => ws
    | _ => []

end Sys2Proof.Rule

/-- A quick DMA transfer at its last cycle (R230, R245): each writable destination byte holds its source byte as read at
that cycle, no other byte changes, DONE is set, the transfer is counted and the unit is idle. A stale transfer, of an
older epoch or placement, ends and writes nothing (R252, R289). -/
def Sys2Proof.Rule.QuickDma : Prop :=
  (∀ (k : Tn) (s : State) (q : Qdm), (s.tenant k).core.qdm = some q → q.tag ≠ Rule.tagNow (s.tenant k) →
    ∃ s', exec (.quickDmaTransfer k) s = .next s' ∧ s'.hbm = s.hbm ∧ s'.gate = s.gate ∧
      s'.tenants = (s.setTenant k { s.tenant k with core := { (s.tenant k).core with qdm := none } }).tenants ∧
      ∀ a, (∀ n, (s.tenant k).engine = some n → a ≠ (F.RNG_SUPPRESSED_COUNT n).key) → s'.word a = s.word a) ∧
  ∀ (k : Tn) (s : State) (t : Tenant) (e : Nat) (q : Qdm), (s.tenant k).ready (s.geo k) .qdm = some (t, e) →
    t.executes = true → (∀ x, (s.tenant k).core.qdm = some x → x.tag = Rule.tagNow (s.tenant k)) →
    s.mirrorStalled k = false → t.core.qdm = some q → q.len ≤ 2 ^ 24 →
    ∃ u, exec (.quickDmaTransfer k) s = .next (s.setTenant k u) ∧
      (∀ j, j < q.len → isWritableRam (q.dst + BitVec.ofNat 24 j).toNat = true →
        u.core.ramByte (q.dst + BitVec.ofNat 24 j).toNat
          = (t.readByte (s.geo k) e (q.src + BitVec.ofNat 24 j)).getD 0) ∧
      Rule.MemoryBut t u (addrs q.dst q.len) ∧ u.core.qdm = none ∧ u.bit F.QDM_STAT_DONE = true ∧
      u.word F.QDM_TRANSFERS_COUNT.key = satInc (t.word F.QDM_TRANSFERS_COUNT.key) ∧ u.core.now = t.core.now ∧
      u.core.trail = t.core.trail ∧ u.core.dma0 = t.core.dma0 ∧ u.core.dma1 = t.core.dma1

/-- A burst of a channel's item (R230, R246, R247): each element of the burst is moved from its source, found through its
index with GATHER, as read at the burst's last cycle; ELEMS counts the elements; the item that has moved COUNT elements
sets DONE and frees its physical channel. Only a read of HBM with both stacks in service is corrected from the other
copy (R265, R266). -/
def Sys2Proof.Rule.DmaBursts : Prop :=
  ∀ (k : Tn) (c : Fin 2) (corrected : Nat) (s : State) (t : Tenant) (i : DmaItem) (e ch n : Nat),
    Rule.BurstDue s k c t i e ch n → t.burstBusError (s.geo k) e i = false → n * i.esize ≤ 2 ^ 24 →
    let g := s.geo k
    let from_ (j p : Nat) : Addr :=
      let o := if i.gather then leNat ((i.indexAddrs (i.next + j)).map (t.dmaByte g e)) else i.next + j
      i.src + BitVec.ofNat 24 (o * i.esize) + BitVec.ofNat 24 p
    let to_ (j p : Nat) : Addr := i.dst + BitVec.ofNat 24 ((i.next + j) * i.esize) + BitVec.ofNat 24 p
    ∃ u s', exec (.dmaBurst k c corrected) s = .next s' ∧ s'.tenants = (s.setTenant k u).tenants ∧ s'.hbm = s.hbm ∧
      s'.gate = s.gate ∧
      (s.cont.fencedStacks ≠ [] ∨ (∀ a ∈ t.burstReads g e i, g.isCart a.toNat = false) →
        s'.word F.MOD_HBM_CORRECTED_COUNT.key = s.word F.MOD_HBM_CORRECTED_COUNT.key) ∧
      (∀ j p, j < n → p < i.esize → isWritableRam (to_ j p).toNat = true →
        u.core.ramByte (to_ j p).toNat = (t.readByte g e (from_ j p)).getD 0) ∧
      Rule.MemoryBut t u ((List.range n).flatMap fun j => (List.range i.esize).map fun p => to_ j p) ∧
      u.word F.DMA_BURSTS_COUNT.key = satInc (t.word F.DMA_BURSTS_COUNT.key) ∧
      u.fld (F.DMA_DONE_ELEMS_MOVED c) = (i.next + n) % 65536 ∧
      (i.count ≤ i.next + n → u.core.dma c = none ∧ u.bit (F.DMA_STAT_DONE c) = true ∧
        s'.bit (F.SDMA_CH_BUSY (4 * t.sector + ch / 16) (ch % 16)) = false) ∧
      (i.next + n < i.count → ∃ i', u.core.dma c = some i' ∧ i'.next = i.next + n ∧ i'.count = i.count ∧
        i'.src = i.src ∧ i'.dst = i.dst)

/-- The bytes that DMA moves. Both parts are stated above. -/
def Obligations.DmaTransfers : Prop := Rule.QuickDma ∧ Rule.DmaBursts

/-- A waiting item that is not stale gets one of the free channels of an enabled page of its sector, a stale one none
(R246, R252); while the module is PARKED the unit is gated (R386). A bus error of the burst's read stops the unit:
STOPPED and RESTARTING are set, the burst does not write, the hosts are told (R248, R249). An uncorrectable HBM word is
a bus error of a burst that reads HBM. The model's choice: whether it meets one is an operand of the command (log entry
117). -/
def Sys2Proof.Rule.DmaChannels : Prop :=
  ∀ (k : Tn) (c : Fin 2) (pick : Nat) (hbm : Bool) (s : State),
    let sec := (s.tenant k).sector
    let free (n : Nat) : Prop := n < 64 ∧ s.bit (F.SDMA_CH_BUSY (4 * sec + n / 16) (n % 16)) = false ∧ s.chEn sec n = true
    ((∃ n, free n) → ((s.tenant k).core.dma c).isSome = true → s.chOf sec k c = none →
      (s.tenant k).fld F.TEN_PLACE_SLOT < 1152 → s.dmaStopped sec = false → (s.tenant k).dmaStale c = false →
      ∃ n u, free n ∧ exec (.dmaChannelAssign k c pick) s = .next u ∧
        Rule.Block s u [(F.SDMA_CH_BUSY (4 * sec + n / 16) (n % 16)).key] ∧
        u.bit (F.SDMA_CH_BUSY (4 * sec + n / 16) (n % 16)) = true ∧
        u.fld (F.SDMA_CH_TENANT (4 * sec + n / 16) (n % 16)) = k ∧ u.fld (F.SDMA_CH_TCH (4 * sec + n / 16) (n % 16)) = c ∧
        u.bit (F.SDMA_CH_TERMINATED (4 * sec + n / 16) (n % 16)) = false) ∧
    (s.gated = true ∨ (s.tenant k).dmaStale c = true → exec (.dmaChannelAssign k c pick) s = .next s) ∧
    (∀ t i e ch n, Rule.BurstDue s k c t i e ch n →
      let word := hbm && (t.burstReads (s.geo k) e i).any fun a => (s.geo k).isCart a.toNat
      (word = true ∨ t.burstBusError (s.geo k) e i = true) →
      ∃ u, exec (.busError k c hbm) s = .next (u.tell 0x0205 t.sector) ∧
        Rule.Block ((s.setTenant k { t with core := t.core.setDma c (some { i with failed := word }) }).setSdma t.sector
            ⟨[], (s.sdma t.sector).dead, (s.sdma t.sector).faulted⟩) u
          ((List.range 4).map (fun p => (F.SDMA_STATUS_STOPPED (4 * t.sector + p)).key)
            ++ [(F.SEC_STATUS_DMA_STOPPED t.sector).key, 0x4C / 4, F.MOD_HBM_UNCORRECTED_COUNT.key,
              (F.SDMA_BUS_ERRORS_COUNT (4 * t.sector)).key]) ∧
        (∀ p, p < 4 → u.bit (F.SDMA_STATUS_STOPPED (4 * t.sector + p)) = true ∧
          u.bit (F.SDMA_STATUS_RESTARTING (4 * t.sector + p)) = true) ∧
        u.bit (F.SEC_STATUS_DMA_STOPPED t.sector) = true ∧
        u.word (F.SDMA_BUS_ERRORS_COUNT (4 * t.sector)).key = satInc (s.word (F.SDMA_BUS_ERRORS_COUNT (4 * t.sector)).key))

/-- The restart of a stopped sector DMA unit (R249, R250): its busy channels restart in order, one whose burst fails is
terminated, which the tenant journals; when all have restarted, STOPPED and RESTARTING clear, DMA_RESUMED names the
number of terminated channels, and each tenant affected has its DMA_FAULT. While the module is PARKED the unit is gated
(R386). The model's choice: a restart judges a burst that has come to its last cycle, and other channels keep their item
(log entry 117). -/
def Sys2Proof.Rule.DmaRestarts : Prop :=
  ∀ (sec : Sec) (ch : Fin 64) (fails : Bool) (s : State), s.dmaStopped sec = true →
    (s.gated = true → exec (.dmaChannelRestart sec ch fails) s = .next s ∧ exec (.dmaResumed sec) s = .next s) ∧
    (s.gated = false →
    let p := 4 * sec.val + ch.val / 16
    let k : Tn := Fin.ofNat 1024 (s.fld (F.SDMA_CH_TENANT p (ch.val % 16)))
    let c : Fin 2 := if s.fld (F.SDMA_CH_TCH p (ch.val % 16)) = 0 then 0 else 1
    let x := s.sdma sec
    let g := s.geo k
    let waits (n : Nat) : Prop := s.bit (F.SDMA_CH_BUSY (4 * sec + n / 16) (n % 16)) = true ∧ n ∉ x.running
    let bad (t : Tenant) (i : DmaItem) (e : Nat) : Prop := s.burstReady k c = some (t, i, e) ∧ i.terminated = false ∧
      (t.burstBusError g e i = true ∨ (fails = true ∧ ∃ a ∈ t.burstReads g e i, g.isCart a.toNat = true))
    (waits ch.val → (∀ n, n < ch.val → ¬waits n) →
      ∃ s', exec (.dmaChannelRestart sec ch fails) s = .next s' ∧
        (s'.sdma sec).running = x.running ++ [ch.val] ∧ s'.gate = s.gate ∧ s'.hbm = s.hbm ∧
        s'.word (F.SDMA_RESTARTS_COUNT (4 * sec)).key = satInc (s.word (F.SDMA_RESTARTS_COUNT (4 * sec)).key) ∧
        (∀ t i e, bad t i e → (s'.sdma sec).dead = x.dead + 1 ∧ s'.bit (F.SDMA_CH_TERMINATED p (ch.val % 16)) = true ∧
          (∃ j, (s'.tenant k).core.dma c = some j ∧ j.terminated = true ∧ j.next = i.next) ∧
          (s'.tenant k).journal.length = (s.tenant k).journal.length + 1) ∧
        ((∀ t i e, ¬bad t i e) → (s'.sdma sec).dead = x.dead ∧ (s'.tenant k).journal = (s.tenant k).journal ∧
          ∀ i, (s.tenant k).core.dma c = some i → (s'.tenant k).core.dma c = some { i with failed := false })) ∧
    ((∀ n, n < 64 → ¬waits n) → ∃ u, Rule.Block (s.setSdma sec ⟨[], 0, []⟩) u
        ((List.range 4).map (fun p => (F.SDMA_STATUS_STOPPED (4 * sec + p)).key) ++ [(F.SEC_STATUS_DMA_STOPPED sec).key]) ∧
      exec (.dmaResumed sec) s = .next (x.faulted.eraseDups.foldl (fun s k => s.tell 0x0207 k)
        (u.notify 0x0206 [(sec.val, x.dead)])) ∧
      u.bit (F.SEC_STATUS_DMA_STOPPED sec) = false ∧ ∀ p, p < 4 →
        u.bit (F.SDMA_STATUS_STOPPED (4 * sec + p)) = false ∧ u.bit (F.SDMA_STATUS_RESTARTING (4 * sec + p)) = false))

/-- The DMA channels of a tenant and of a sector, and what stops and restarts them. Both parts are stated above. -/
def Obligations.DmaUnits : Prop := Rule.DmaChannels ∧ Rule.DmaRestarts

/-- The start of a tenant line (R64, R70, R80) and of a tenant frame (R73, R74, R91): the lag is judged before and after
(R72), the beam registers show the line and the frame, the wall clock stands at the start's tick at least, the inputs that
wait have entered; at frame 0 the reset entry takes pc from the first bytes of the image; a pending hold or park stops the
tenant in place of the frame start, its lag judged before, while it is RUNNING. -/
def Obligations.LineAndFrameStarts : Prop :=
  ∀ (k : Tn) (at_ : Nat) (s : State),
    let g := s.geo k
    (∀ t e frame, s.lineReady k at_ frame = some (t, e) → (s.tenant k).stop = .none →
      ∃ u, exec (if frame then .tenantFrameStart k at_ else .tenantLineStart k at_) s
          = .next ((((((s.advance at_).setTenant k t).updateLag k).setTenant k u)).updateLag k) ∧
        u.core.begun = t.core.begun + 1 ∧ u.fld F.TEN_BEAM_LINE = t.core.begun % g.lines % 1024 ∧
        u.fld F.TEN_BEAM_FRAME = t.core.begun / g.lines % 2 ^ 22 ∧ (t.replay = [] → u.inputs = []) ∧
        (t.core.entered = true → u.core.now = t.core.now) ∧
        (t.core.entered = false → u.core.entered = true ∧ u.core.now = 4 ∧ u.core.cpu.sp = 0x4000 ∧
          u.core.cpu.pc = (leVec 24 ((List.range 4).map fun i => if i < g.imgLen then g.cartByte (0x20000 + i) else 0)
            : Addr) &&& ~~~1)) ∧
    ((s.tenant k).executes = true → (s.tenant k).core.begun % g.lines = 0 → (s.tenant k).ring = none →
      ((s.tenant k).ready g .line).isSome = true →
      ∀ x n, (x, n) ∈ [(StopReq.hold, 3), (.park, 4)] → (s.tenant k).stop = x →
        let s1 := (s.advance at_).updateLag k
        ∃ u, exec (.tenantFrameStart k at_) s = .next ((s1.setTenant k u).updateLag k) ∧
          u.fld F.TEN_CONT_STATE = n ∧ u.stop = .none ∧ u.core = (s.tenant k).core ∧
          u.fld F.TEN_MAX_LAG_COUNT = (s1.tenant k).fld F.TEN_MAX_LAG_COUNT) ∧
    ((s.tenant k).executes = true → (s.tenant k).core.begun * g.cpl ≤ (s.tenant k).core.now →
      s.tick < (s.tenant k).release g (s.tenant k).core.begun → (s.tenant k).release g (s.tenant k).core.begun ≤ at_ →
      ∃ s', exec (.paceRelease k at_) s = .next s' ∧ s'.tick = at_ ∧ (s'.tenant k).core = (s.tenant k).core ∧
        (∀ j : Nat, j ≠ k → s'.tenant j = s.tenant j) ∧ s'.hbm = s.hbm ∧
        (s.pins.acts = [] → s.rtc.set = none → ∀ a, ¬Rule.QueueWord a → s'.word a = s.word a))

/-- A ring at its ring point captures the execution state (R271, R273), with the CPU that it shows, at the end of the
instruction or entry sequence in progress (R106); its commit keeps the captured state as the tenant's record, closes the
lines before it and drops the journal up to it (R275, R277). At a mirror the commit waits until the ring's marker is
staged, while the mirror is warm; then the staged writes before the marker are applied to its image, in order, and what
was staged after it stays. -/
def Obligations.Rings : Prop :=
  ∀ (k : Tn) (at_ : Nat) (s : State),
    let g := s.geo k
    (∀ t r, (s.tenant k).executes = true → (s.tenant k).ring = none → (s.tenant k).ready g .ring = some (t, r) →
      ∃ s', exec (.ringTake k at_) s = .next s' ∧ s'.tick = max s.tick at_ ∧
        let c := { t.core with nextRing := g.ringAfter r, ringNo := t.core.ringNo + 1 }
        (s'.tenant k).core = c ∧ (s'.tenant k).ring = some ⟨t.core.ringNo, c, t.endCpu g, r / g.cpl, t.journal.length⟩ ∧
        (∀ j : Nat, j ≠ k → s'.tenant j = s.tenant j) ∧ s'.hbm = s.hbm) ∧
    (∀ r m, (s.tenant k).ring = some r → (s.tenant k).mirror = some m → (s.tenant k).fld F.TEN_MIRROR_MSTATE = 2 →
      .marker r.no ∉ m.staging → exec (.ringCommit k) s = .next s) ∧
    (∀ r, (s.tenant k).ring = some r → (s.tenant k).waitPromotion = false →
      (∀ m, (s.tenant k).mirror = some m → (s.tenant k).fld F.TEN_MIRROR_MSTATE = 2 → .marker r.no ∈ m.staging) →
      ∃ s', exec (.ringCommit k) s = .next s' ∧
        let u := s'.tenant k
        ((s.tenant k).mirror = none → u.mirror = none) ∧
        (∀ m, (s.tenant k).mirror = some m → .marker r.no ∉ m.staging → u.mirror = some m) ∧
        (∀ m front back, (s.tenant k).mirror = some m → m.staging = front ++ .marker r.no :: back → .marker r.no ∉ front →
          ∃ m', u.mirror = some m' ∧ m' = { m with staging := back, synced := true, image := m'.image } ∧
            ∀ a, memGet m'.image a = match (Rule.stagedWrites front).reverse.find? fun w => w.1 == a with
              | some w => w.2
              | none => memGet m.image a) ∧
        u.ring = none ∧ u.handed = r.closed ∧ u.recordValid = true ∧
        u.record = { r.captured with snd := { r.captured.snd with out := [] } } ∧
        u.journal = (s.tenant k).journal.drop r.journaled ∧ u.core.cpu = (s.tenant k).core.cpu ∧
        u.core.mem = (s.tenant k).core.mem ∧ u.core.now = (s.tenant k).core.now ∧
        (∀ e, (s.tenant k).engine = some e →
          s'.word (F.RNG_RINGS_COUNT e).key = satInc (s.word (F.RNG_RINGS_COUNT e).key)) ∧
        (∀ j : Nat, j ≠ k → s'.tenant j = s.tenant j))

/-- The mirror of a tenant (R274, R278 to R280): a tenant without one gets a slot that R279 allows beside the engine it
runs on and the one it moves to, WARMING; a live one takes entries of the stream into staging in order while they fit,
and goes cold when one does not; a complete copy becomes warm; the replacement of a mirror that moves takes its place
once it is warm (R281). -/
def Obligations.Mirrors : Prop :=
  ∀ (k : Tn) (n : Nat) (s : State), s.wantsMirror k = true →
    ((s.tenant k).mirror = none → s.mirrorSlots (s.tenant k).runsOn ≠ [] →
      ∃ m s', exec (.mirrorStage k n) s = .next s' ∧ m ∈ s.mirrorSlots (s.tenant k).runsOn ∧
        (s'.tenant k).fld F.TEN_MIRROR_MSLOT = m ∧ (s'.tenant k).fld F.TEN_MIRROR_MSTATE = 1 ∧
        s'.bit (F.RNG_MIRROR_OCC (m / 16) (m % 16)) = true ∧ s'.fld (F.RNG_MIRROR_TENANT (m / 16) (m % 16)) = k ∧
        (s'.tenant k).core = (s.tenant k).core) ∧
    (∀ m, (s.tenant k).mirror = some m → s.mirrorUp k = true →
      (m.live = true → m.staging.foldl (fun x e => x + e.size) 0 + (m.stream.take n).foldl (fun x e => x + e.size) 0 ≤ 8192 →
        exec (.mirrorStage k n) s = .next (s.setTenant k { s.tenant k with
          mirror := some { m with stream := m.stream.drop n, staging := m.staging ++ m.stream.take n } })) ∧
      (m.live = true →
        8192 < m.staging.foldl (fun x e => x + e.size) 0 + (m.stream.take n).foldl (fun x e => x + e.size) 0 →
        ∃ s' : State, exec (.mirrorStage k n) s = .next (s'.tell 0x0105 k) ∧ (s'.tenant k).fld F.TEN_MIRROR_MSTATE = 3 ∧
          (∃ m', (s'.tenant k).mirror = some m' ∧ m'.live = false ∧ m'.staging = [])) ∧
      (m.live = true → (s.tenant k).fld F.TEN_MIRROR_MSTATE = 1 → (s.tenant k).ring = none → m.synced = true →
        (s.tenant k).mirrorMove = none →
        ∃ s' : State, exec (.mirrorWarm k) s = .next (if m.restored then s'.tell 0x0106 k else s') ∧
          (s'.tenant k).fld F.TEN_MIRROR_MSTATE = 2 ∧
          (s'.tenant k).mirror = some { m with image := (s.tenant k).record.mem, restored := false } ∧
          (s'.tenant k).core = (s.tenant k).core)) ∧
    (∀ r, (s.tenant k).mirrorMove = some r → r.dest < 1152 → s.estate (r.dest / 16) = 0 → (s.tenant k).ring = none →
      1 ≤ r.rings →
      ∃ s' : State, exec (.mirrorWarm k) s = .next s' ∧ (s'.tenant k).fld F.TEN_MIRROR_MSLOT = r.dest ∧
        (s'.tenant k).mirrorMove = none ∧ (s'.tenant k).mirror = (s.tenant k).mirror ∧
        (s'.tenant k).core = (s.tenant k).core)

/-- The video unit renders the ready line with the earliest deadline into a line buffer of W pixels (R78, R163). Where
VID.CTRL.EN is 0 at the pixel it has the backdrop's index (R130); where it is 1, the index that the first rank shows
there, from front to back, and the backdrop's where none does: planes, sprites, and their order (R131 to R142). -/
def Obligations.LineRendering : Prop :=
  ∀ (e : Eng) (s : State) (d x k l : Nat), firstLine (s.renderQueue e) = some (d, x, k, l) →
    let g := s.geo k
    let t := s.tenant k
    (∀ y ∈ s.renderQueue e, d < y.1 ∨ (d = y.1 ∧ x ≤ y.2.1)) ∧
    ∃ pix, exec (.lineRender e) s = .next ((s.setTenant k { t with bufs := t.bufs ++ [⟨l, pix⟩], rendered := l + 1 }).work e
        fun w => { w with lines := w.lines + 1 }) ∧
      pix.length = g.w ∧ ∀ i, i < g.w →
        let pos := l * 1024 + i
        let shows := Rule.RankShows t pos i (l % g.lines) (t.core.keptAt l)
        let back : Byte := BitVec.ofNat 8 (Rule.seen t pos F.PAL_BACKDROP_BACKDROP)
        (Rule.seen t pos ⟨0x1008 / 4, 0, 1⟩ = 0 → pix.getD i 0 = back) ∧
        (Rule.seen t pos ⟨0x1008 / 4, 0, 1⟩ = 1 →
          (∀ front c rest v, Rule.rankOrder t pos = front ++ c :: rest → shows c v → (∀ d ∈ front, ∀ u, ¬shows d u) →
            (pix.getD i 0).toNat = v) ∧
          ((∀ c ∈ Rule.rankOrder t pos, ∀ v, ¬shows c v) → pix.getD i 0 = back))

/-- A compositor takes the next line (R163 to R168): it leaves its line buffer, and the frame store holds the composed
indices, which are the tenant's own while no overlay layer is on. In PARKED the compositors are gated (R386). -/
def Obligations.Composition : Prop :=
  ∀ (sec : Sec) (bad : List Nat) (s : State) (i x k : Nat) (b : LineBuf), s.bit ⟨(0x46008 + 0x20000 * sec.val) / 4, 0, 1⟩ = true →
    (s.gated = true → exec (.composeLine sec bad) s = .next s) ∧
    (s.gated = false → (s.countStalls sec).nextLine sec = some (i, x, k, b) →
    let g := s.geo k
    let c := (s.tenant k).compo
    let n := b.line % g.lines
    ∃ s', exec (.composeLine sec bad) s = .next s' ∧ (s'.tenant k).bufs = (s.tenant k).bufs.drop 1 ∧
      (s'.tenant k).core.mem = (s.tenant k).core.mem ∧
      (n ≠ 0 → ∀ j, j < b.pix.length →
        let at_ := frameKey k c.relocated (b.line / g.lines) + n * 640 + j
        memGet s'.hbm at_ = BitVec.ofNat 8 (c.pixel (s.overlayRead k bad) j n (b.pix.getD j 0).toNat) ∧
        ((∀ l, l < 3 → c.fld (F.TEN_OVL_MODE_MODE l) = 0) → memGet s'.hbm at_ = b.pix.getD j 0)) ∧
      (n ≠ 0 → ∀ a, (∀ j, j < b.pix.length → a ≠ frameKey k c.relocated (b.line / g.lines) + n * 640 + j) →
        memGet s'.hbm a = memGet s.hbm a))

/-- A page write of NVS (R352 to R355): verified, the page's current value is the data written, whatever the page held;
not verified, the current value stays, WRITE_FAIL is set and the hosts are told. The page leaves the queue, and then what
has waited for room goes on. -/
def Obligations.NvsPages : Prop :=
  ∀ (s : State) (w : NvsWrite) (r : List NvsWrite), s.nvs.queue = w :: r →
    (∃ (u : State) (c : Bool), exec (.nvsPageWrite true) s = .next u.release ∧ (u.nvsPage w.page).current = some c ∧
      ((u.nvsPage w.page).slot c).bytes = memBytes w.data 0 256 ∧
      u.word F.NVS_PAGE_WRITES_COUNT.key = satInc (s.word F.NVS_PAGE_WRITES_COUNT.key) ∧
      (∀ n, n ≠ w.page → u.nvsPage n = s.nvsPage n) ∧ u.gate = s.gate ∧ (s.nvs.waiting = [] → u.nvs.queue = r)) ∧
    (∃ u : State, exec (.nvsPageWrite false) s = .next u.release ∧ (u.nvsPage w.page).current = (s.nvsPage w.page).current ∧
      (∀ c, (s.nvsPage w.page).current = some c → ((u.nvsPage w.page).slot c).bytes = ((s.nvsPage w.page).slot c).bytes) ∧
      u.bit F.NVS_STATUS_WRITE_FAIL = true ∧ ∀ n, n ≠ w.page → u.nvsPage n = s.nvsPage n)

/-- The save step's end (R358, R359): the selected pages as read at its last cycle are queued to NVS in rising order, and
the completion is to come; a mask of no page completes at once. The end of a reset (R36): the tenant is LOADED with its
save RAM alone, and the hosts are told. -/
def Obligations.SaveAndReset : Prop :=
  ∀ (k : Tn) (s : State),
    (∀ t e x, (s.tenant k).ready (s.geo k) .sav = some (t, e) → t.executes = true → t.core.sav = some x →
      (x.epoch, e) ∉ t.savSeen → s.bit F.NVS_STATUS_PFW = false → s.nvs.waiting = [] →
      s.nvs.queue.length + 32 ≤ 64 →
      let pages := (List.range 32).filter fun p => x.mask.getLsbD p
      ∃ s' ws, exec (.savCommit k) s = .next s' ∧ (s'.tenant k).core = { t.core with sav := none } ∧
        s'.nvs.queue = s.nvs.queue ++ ws ∧ ws.map (·.page) = pages.map (fun p => 32 * k.val + p) ∧
        (∀ w ∈ ws, ∀ i, i < 256 → memGet w.data i = t.core.ramAt e (0x10000 + 256 * (w.page - 32 * k) + i)) ∧
        (pages = [] → (s'.tenant k).inputs = t.inputs ++ [.saveDone true])) ∧
    ((s.tenant k).fld F.TEN_CONT_STATE = 5 → (s.tenant k).unplaced = false → (s.tenant k).waitPromotion = false →
      (s.tenant k).afterReset = [] →
      ∃ u, exec (.resetDone k) s = .next ((s.setTenant k u).tell 0x0107 k) ∧ u.fld F.TEN_CONT_STATE = 1 ∧
        u.bit F.TEN_CONT_LOST = false ∧ u.core.cpu = Cpu.reset ∧ u.core.regs = [] ∧
        u.fld F.TEN_PLACE_SLOT = (s.tenant k).fld F.TEN_PLACE_SLOT ∧ u.epoch = (s.tenant k).epoch ∧
        ∀ a, memGet u.core.mem a = if 0x10000 ≤ a ∧ a < 0x12000 then memGet (s.tenant k).core.mem a else 0)

namespace Sys2Proof.Rule

open Sys2Proof.Machine

/-- The master of a page-bus access. -/
def master : BusSrc → Master
  | .sup _ => .sup
  | .gate m => match m.host with
    | .a => .hostA
    | .b => .hostB

/-- The gate cycle of a page-bus access. -/
def cycle : BusSrc → Nat
  | .sup gc => gc
  | .gate m => m.gc

/-- Command `i` is one message or access of its own, and no PCIe access of several double words, or through BAR2 (R346).
-/
def Whole (i : Instr) : Prop := tlpParts i = [i] ∧ isBar2Read i = none

/-- Command `i` reaches what it is for: the module is on, and `i` is an access of the supervisor, or a message that its
gate link lets through, that has passed the checks of R345 and is not stale (R291), that PFW does not refuse and behind
which no message of HOST-B waits (R340); nothing keeps it waiting. `s1` is the state after the checks. -/
def Arrives (s s1 : State) (i : Instr) : Prop :=
  s.power.mode = .on ∧ s1.mustWait i = false ∧ Whole i ∧
    match inbound i with
    | none => s1 = s
    | some (m, ty, pay) => s.fld F.GTE_STATUS_LINK ≠ 0 ∧ s.linkHolds m.host = false ∧ s.admitB m ty pay = (s1, true) ∧
        formOk i m ty pay = true ∧ (s1.bit F.MOD_EN = true ∨ passesDisabled ty = true) ∧ s1.stale i m ty = false ∧
        (isEpochCmd i = true → s1.bit F.NVS_STATUS_PFW = false) ∧
        (forSup i = true → m.host = .a → s1.gate.waiting.any wasBehind = false)

/-- What a message of HOST-A for the supervisor leaves, `u`, goes on to: the messages of HOST-B that have waited for it in
its gate cycle are tried (R340). -/
def behind (i : Instr) (m : Msg) (u : State) : State :=
  if forSup i && m.host == .a && u.gate.waiting.any wasBehind then u.retry else u

/-- The page bus as the access finds it, in its gate cycle. -/
def turn (s : State) (src : BusSrc) : State := s.busEnter (cycle src)

/-- No host other than the access's own writes the word at `a` of a SHARED page in the gate cycle (R48). -/
def Alone (s1 : State) (src : BusSrc) (p : Page) (a : Nat) : Prop :=
  (turn s1 src).ownerOf p = 3 →
    (∀ w ∈ (turn s1 src).bus.wrote, w.key = a / 4 → w.who = master src ∨ w.who = .sup) ∧
    (master src = .hostB → (turn s1 src).aFollows (cycle src) a = false)

/-- The write of `d` under `mask` to the register at `a` of page `p` reaches the page bus, and the owner of the page
accepts it (R41, R42). -/
def Reaches (s s1 : State) (src : BusSrc) (p : Page) (a : Nat) (mask : BitVec 4) (d : Word) : Prop :=
  Arrives s s1 (.configWrite src (BitVec.ofNat 32 a) mask d) ∧ a % 4 = 0 ∧ a < 2 ^ 32 ∧ pageOf a = some p ∧
    p.hasReg (a - p.base) = true ∧ hostAOnly a = false ∧
    ownerAccepts ((turn s1 src).ownerOf p) (master src) = true ∧ Alone s1 src p a

/-- The block `u` is `s` with other register words at `ks` at most, and with what the page bus remembers of the gate
cycle, up to which tick the counters of wall time have been read, and which sources have sent their EVENT (R301). -/
def Words (s u : State) (ks : List Nat) : Prop :=
  (∃ r b q n, u = { s with regs := r, bus := b, miq := q, accrued := n }) ∧ ∀ a, a ∉ ks → u.word a = s.word a

/-- What the gate cycle in progress has added to the RC fields of the word at `a` (R7): what they hold above what they
held when it began. -/
def counted (s : State) (a : Nat) : Word :=
  let rc := BitVec.ofNat 32 (moduleWord a).rc
  let now := s.word (a / 4) &&& rc
  let old := s.wordBefore (a / 4) &&& rc
  if old ≤ now then now - old else 0

/-- What a read leaves in the RC fields of the word at `a`: all that the gate cycle has counted, beyond the greatest value
too (R7). -/
def kept (s : State) (a : Nat) : Word :=
  counted s a + (BitVec.ofNat 32 (s.bus.counts.count (a / 4, false)) &&& BitVec.ofNat 32 (moduleWord a).rc)

/-- OWNER in the CTRL word at `a` is `n`, and nothing else changes. -/
def OwnerSet (s u : State) (a n : Nat) : Prop :=
  match tenantOf a with
  | none => Words s u [a / 4] ∧ u.word (a / 4) = setBits (s.word (a / 4)) 4 2 n
  | some (k, o) => ∃ m, Words (s.setTenant k { s.tenant k with mregs := m }) u [] ∧
      ∀ j, let old := Store.get (tenantRst j) (s.tenant k).mregs j
        Store.get (tenantRst j) m j = if j = o / 4 then setBits old 4 2 n else old

/-- Command `i`, which writes `d` under `mask` to the register at `a`, answers a next state `u` with `post`, wherever
the write is accepted in a state with `pre`. -/
def Writes (i : Instr) (src : BusSrc) (a : Nat) (mask : BitVec 4) (d : Word) (pre : State → Prop)
    (post : State → State → Prop) : Prop :=
  ∀ s s1 p, Reaches s s1 src p a mask d → pre s1 → ∃ u, exec i s = .next u ∧ post s1 u

/-- A message dropped at check `n` (R345): counted, with its cause and type, and DROP_SEEN set. -/
def Dropped (s u : State) (n : Nat) (ty : Byte) (also : List Fld) : Prop :=
  (∃ r, u = { s with regs := r }) ∧
    (∀ f ∈ F.GTE_DROP_COUNT_COUNT :: also, u.word f.key = satInc (s.word f.key)) ∧
    u.fld F.GTE_DROP_CAUSE_CHECK = n ∧ u.fld F.GTE_DROP_CAUSE_TYPE = ty.toNat ∧ u.bit F.GTE_STATUS_DROP_SEEN = true ∧
    ∀ a, a ∉ [F.GTE_DROP_COUNT_COUNT.key, F.GTE_DROP_CAUSE_CHECK.key, F.GTE_STATUS_DROP_SEEN.key] ++ also.map Fld.key →
      u.word a = s.word a

/-- The RC counter at address `a` counts one, in the module pages or in a tenant's; nothing else changes. -/
def Counted (s u : State) (a : Nat) : Prop :=
  match tenantOf a with
  | none => Words s u [a / 4] ∧ u.word (a / 4) = satInc (s.word (a / 4))
  | some (k, o) => ∃ t, Words (s.setTenant k t) u [] ∧ Now (s.tenant k) t (s.tenant k).core [o / 4] ∧
      t.word (o / 4) = satInc ((s.tenant k).word (o / 4))

/-- The blocks whose registers only hold what is written to them. -/
def plain (b : Blk) : Bool := [Blk.nvs, .lan, .ptp, .sec, .sblt, .sdma, .cmp, .eng, .bnk, .rng].contains b

end Sys2Proof.Rule

/-- What becomes of a message that arrives (R17, R339, R345 to R349, R396, R422): nothing while the module is OFF or no
gate link is up; one whose gate link has no credit is held before it, for HOST-B with a PAUSE; a message of HOST-A comes
through the submission ring and takes its next slot, but for BAR accesses; the datagrams of HOST-B, to its port and in
an address family that is enabled, are checked for the rate, the key and TAG, and SEQ; TYPE, LENGTH and the aim of the
message are checked; a module that is not enabled drops all but five types; a message that has to wait is kept in order,
and before READY every one but a CONFIG_READ waits; a stale one is answered so. A PCIe access of several double words is
one access for each, in rising order, a BAR2 write an IMAGE_CHUNK, a BAR2 read gives 0. The model's choices: how the
ring's next message stands as a command (log entry 21), where a millisecond begins and when SEQ is taken (26), the cause
of a datagram without a key (27), that nothing arrives while both links are down (29), and that a datagram of a family
that is off counts nowhere (111). -/
def Obligations.GateChecks : Prop :=
  (∀ (m : Msg) (a : Word) (mask : BitVec 4) (d : Word) (x : BitVec 4 × Word) (r : List (BitVec 4 × Word)) (s s' : State),
    m.host = .a →
    (exec (.configWrite (.gate { m with tlp := .one }) a mask d) s = .next s' →
      exec (.configWrite (.gate { m with tlp := .more (x :: r) }) a mask d) s
        = exec (.configWrite (.gate { m with tlp := .more r }) (a + 4) x.1 x.2) s') ∧
    (exec (.configRead (.gate { m with tlp := .one }) a) s = .next s' →
      exec (.configRead (.gate { m with tlp := .more (x :: r) }) a) s
        = exec (.configRead (.gate { m with tlp := .more r }) (a + 4)) s') ∧
    exec (.configWrite (.gate { m with tlp := .bar2 }) a 15 d) s
      = exec (.imageChunk { m with tlp := .bar2, type := none, flags := 0, tenant := 0xFFFF, epoch := 0xFFFF, len := 12 } 0 a
          (leBytes 4 d)) s ∧
    (s.power.mode = .on → exec (.configRead (.gate { m with tlp := .bar2 }) a) s = .next { s with gate := { s.gate with
      pcie := s.gate.pcie ++ [.readReply m.tag 0xFFFF 0 0 0] } })) ∧
  ∀ (i : Instr) (m : Msg) (ty : Byte) (pay : List Byte) (s : State), inbound i = some (m, ty, pay) →
    (s.power.mode = .off → exec i s = .next s) ∧
    (Rule.Whole i → s.power.mode = .on → s.fld F.GTE_STATUS_LINK = 0 → exec i s = .next s) ∧
    (Rule.Whole i → s.power.mode = .on → s.fld F.GTE_STATUS_LINK ≠ 0 → s.linkHolds m.host = true →
      exec i s = .next { s with gate := { s.gate with blocked := s.gate.blocked ++ [i]
                                                      pauses := s.gate.pauses + (if m.host = .b then 1 else 0) } }) ∧
    (Rule.Whole i → s.power.mode = .on → s.fld F.GTE_STATUS_LINK ≠ 0 → s.linkHolds m.host = false → m.host = .b →
      let s0 := { s with gate := s.gate.window s.tick }
      let s2 := { s0 with gate := { s0.gate with rate := s0.gate.rate + 1 } }
      let family := s.bit (if m.src.v6 then F.GTE_CFG_V6_EN else F.GTE_CFG_V4_EN) = true ∧
        m.dport = BitVec.ofNat 16 (s.fld F.GTE_CFG_HB_PORT)
      let late := max 1 (s.fld F.GTE_HB_RATE_RATE) ≤ s0.gate.rate
      let key := s.bit F.GTE_KEY_CTRL_KEY_SET = true ∧
        m.auth = hbTag s.gate.key (leBytes 8 m.seq ++ msgBytes m ty pay)
      let new := s.gate.rxTop.toNat < m.seq.toNat ∨ (m.seq.toNat < s.gate.rxTop.toNat ∧
        s.gate.rxTop.toNat ≤ m.seq.toNat + 64 ∧ m.seq ∉ s.gate.seqWindow)
      (¬family → exec i s = .next s) ∧
      (family → late → ∃ u, exec i s = .next u ∧ Rule.Dropped s0 u 1 ty [F.GTE_RATE_DROP_COUNT]) ∧
      (family → ¬late → ¬key → ∃ u, exec i s = .next u ∧ Rule.Dropped s2 u 2 ty [F.GTE_AUTH_FAIL_COUNT]) ∧
      (family → ¬late → key → ¬new → ∃ u, exec i s = .next u ∧ Rule.Dropped s2 u 3 ty [F.GTE_REPLAY_DROP_COUNT]) ∧
      (family → ¬late → key → new → ∃ s1, s.admitB m ty pay = (s1, true) ∧ m.seq ∈ s1.gate.seqWindow ∧
        s1.gate.rxTop.toNat = max s.gate.rxTop.toNat m.seq.toNat)) ∧
    (Rule.Whole i → m.host = .a → s.linkHolds .a = false →
      let direct := ((ty = 1 ∨ ty = 2) ∧ m.tenant = 0xFFFF) ∨ m.tlp = .bar2
      let head := s.gate.fld F.BAR4_SQ_HEAD_HEAD
      let size := s.gate.fld F.BAR4_SQ_SIZE_SIZE
      let slot := s.gate.fld F.BAR4_RING_CTRL_EN = 1 ∧ size ≠ 0 ∧ head ≠ s.gate.fld F.BAR4_SQ_TAIL_TAIL
      (direct → s.admitB m ty pay = (s, true)) ∧
      (¬direct → ¬slot → exec i s = .next s) ∧
      (¬direct → slot → ∃ g, s.admitB m ty pay = ({ s with gate := g }, true) ∧ { g with bar4 := s.gate.bar4 } = s.gate ∧
        g.fld F.BAR4_SQ_HEAD_HEAD = (head + 1) % size % 4096 ∧
        ∀ a, a ≠ F.BAR4_SQ_HEAD_HEAD.key → g.bar4Word a = s.gate.bar4Word a)) ∧
    (Rule.Whole i → s.fld F.GTE_STATUS_LINK ≠ 0 → s.linkHolds m.host = false → ∀ s1, s.admitB m ty pay = (s1, true) →
      let waits (v : State) : State := { v with gate := { v.gate with waiting := v.gate.waiting ++ [i] } }
      (s.power.mode = .start → ty ≠ 2 → exec i s = .next (waits s1)) ∧
      (s.power.mode = .start → ty = 2 → formOk i m ty pay = true → s1.stale i m ty = false → exec i s = .next (s1.effect i)) ∧
      (s.power.mode = .on → formOk i m ty pay = false →
        ∃ u, exec i s = .next (Rule.behind i m u) ∧ Rule.Dropped s1 u 4 ty []) ∧
      (s.power.mode = .on → formOk i m ty pay = true → s1.bit F.MOD_EN = false → ty ∉ [1, 2, 3, 7] →
        ∃ u, exec i s = .next (Rule.behind i m u) ∧ Rule.Dropped s1 u 5 ty []) ∧
      (s.power.mode = .on → formOk i m ty pay = true → s1.bit F.MOD_EN = true ∨ ty ∈ [1, 2, 3, 7] →
        (s1.mustWait i = true → isEpochCmd i = false ∨ s1.bit F.NVS_STATUS_PFW = false →
          exec i s = .next (Rule.behind i m (waits s1))) ∧
        (s1.mustWait i = true → isEpochCmd i = true → s1.bit F.NVS_STATUS_PFW = true → s1.stale i m ty = false →
          exec i s = .next (Rule.behind i m (waits (s1.count F.NVS_REFUSED_COUNT)))) ∧
        (s1.mustWait i = false → s1.stale i m ty = true → ∃ v, Rule.Words s1 v [F.GTE_STALE_NACKS_COUNT.key] ∧
          v.word F.GTE_STALE_NACKS_COUNT.key = satInc (s1.word F.GTE_STALE_NACKS_COUNT.key) ∧
          exec i s = .next (Rule.behind i m (v.reply m (access i).isSome 0x10 0)))))

/-- CONFIG_WRITE (R5, R6, R30, R31, R42, R48): an accepted write changes the RW fields of the enabled bytes, clears W1C
fields written with 1 but for those that the hardware has set in the gate cycle, and changes no other register; a write
to a reserved page or to no register counts in VOID_ACCESS, one that the owner does not accept in WR_REJECT, and one of
HOST-B to a word of a SHARED page that HOST-A has written in the same gate cycle in CONFLICT_DROP: none of them writes.
A write of HOST-A to a word that HOST-B has written in the gate cycle takes that write back, which counts in
CONFLICT_DROP, and one of HOST-B gives way to one of HOST-A that is still to come in the gate cycle. The OWNER field
that HOST-A writes to a page that it does not own applies from the next gate cycle on, though the write counts in
WR_REJECT (R45). -/
def Sys2Proof.Rule.ConfigWrites : Prop :=
  ∀ (src : BusSrc) (a : Nat) (mask : BitVec 4) (d : Word),
    let i : Instr := .configWrite src (BitVec.ofNat 32 a) mask d
    let x := Rule.master src
    let m := byteMask mask
    let def_ := moduleWord a
    let after (s1 : State) (w : Word) : Word := blend (m &&& BitVec.ofNat 32 def_.rw) d w
      &&& ~~~(m &&& d &&& BitVec.ofNat 32 def_.w1c &&& (Rule.turn s1 src).wordBefore (a / 4))
    (∀ s s1 p, Rule.Reaches s s1 src p a mask d → Rule.plain p.blk = true → 0x14 ≤ a - p.base →
      ∃ u, exec i s = .next u ∧ Rule.Words s1 u [a / 4] ∧ u.word (a / 4) = after s1 (s1.word (a / 4))) ∧
    (∀ s s1 p w, Rule.Arrives s s1 i → a % 4 = 0 → a < 2 ^ 32 → pageOf a = some p → p.hasReg (a - p.base) = true →
      p.blk ∈ [Blk.nvs, .lan, .ptp] → 0x14 ≤ a - p.base → x = .hostA → (Rule.turn s1 src).ownerOf p = 3 →
      (Rule.turn s1 src).bus.wrote = [w] → w.key = a / 4 → w.who = .hostB →
      ∃ u, exec i s = .next u ∧ Rule.Words s1 u [a / 4, F.GTE_CONFLICT_DROP_COUNT.key] ∧ u.word (a / 4) = after s1 w.stored ∧
        u.word F.GTE_CONFLICT_DROP_COUNT.key = satInc (s1.word F.GTE_CONFLICT_DROP_COUNT.key)) ∧
    (∀ s s1, Rule.Arrives s s1 i → a % 4 = 0 → a < 2 ^ 32 → hostAOnly a = false →
      (pageOf a = none → ∃ u, exec i s = .next u ∧ Rule.Counted s1 u 0xF04) ∧
      ∀ p, pageOf a = some p →
        let o := (Rule.turn s1 src).ownerOf p
        let beaten := x = .hostB ∧ o = 3 ∧ ((Rule.turn s1 src).aFollows (Rule.cycle src) a = true ∨
          ∃ w ∈ (Rule.turn s1 src).bus.wrote, w.key = a / 4 ∧ w.who = .hostA)
        (ownerAccepts o x = false → ¬(x = .hostA ∧ a - p.base = 8) →
          ∃ u, exec i s = .next u ∧ Rule.Counted s1 u (p.base + 0xF00)) ∧
        (ownerAccepts o x = false → x = .hostA → a = p.base + 8 →
          (p.blk.fixed = true ∨ mask.getLsbD 0 = false ∨ getBits d 4 2 = 0 →
            ∃ u, exec i s = .next u ∧ Rule.Counted s1 u (p.base + 0xF00)) ∧
          (p.blk.fixed = false → mask.getLsbD 0 = true → getBits d 4 2 ≠ 0 →
            ∃ v u, exec i s = .next u ∧ Rule.Counted s1 v (p.base + 0xF00) ∧ Rule.OwnerSet v u a (getBits d 4 2) ∧
              u.ownerOf p = o ∧ ∀ gc, u.bus.cycle < gc → (u.busEnter gc).ownerOf p = getBits d 4 2)) ∧
        (ownerAccepts o x = true → beaten → ∃ u, exec i s = .next u ∧ Rule.Counted s1 u 0x3F0C) ∧
        (ownerAccepts o x = true → ¬beaten → p.hasReg (a - p.base) = false →
          ∃ u, exec i s = .next u ∧ Rule.Counted s1 u (p.base + 0xF04)))

/-- CONFIG_READ and its kin (R5, R7, R31, R32, R47, R49, R318, R342): a read answers the register's value, with
write-only and reserved bits 0, as it stood before what another master has written in the gate cycle, and clears its RC
fields but for what the gate cycle has counted, beyond the greatest value too; an increment in the cycle of the read
counts on; a read of a LO half latches the HI half for its master; a read of no register answers 0 and counts in
VOID_ACCESS. The model's choices: a HI half that no read of its LO half has latched reads 0, whatever the register's
reset value (log entry 33), and so does an address of 256 MiB and above (log entry 34). -/
def Obligations.ConfigReads : Prop :=
  ∀ (src : BusSrc) (a : Nat) (inc : Bool) (s s1 : State),
    let i : Instr := .configRead src (BitVec.ofNat 32 a)
    let x := Rule.master src
    let answer (v : State) (w : Word) : State := match src with
      | .sup _ => v
      | .gate m => v.reply m true 0 w
    let wrote := (Rule.turn s1 src).bus.wrote.filter fun w => w.key == a / 4
    Rule.Arrives s s1 i → a % 4 = 0 → a < 2 ^ 32 →
    exec (.latchedRead src (BitVec.ofNat 32 a)) s = exec i s ∧
    (pageOf a = none → ∃ v, exec i s = .next (answer v 0) ∧ Rule.Counted s1 v 0xF04) ∧
    ∀ p, pageOf a = some p →
      let b := (Rule.turn s1 src).accrue p a
      (p.hasReg (a - p.base) = false → ∃ v, exec i s = .next (answer v 0) ∧ Rule.Counted s1 v (p.base + 0xF04)) ∧
      (p.hasReg (a - p.base) = true → isLatched p (a - p.base) = false → a - p.base ≠ 16 → p.blk ≠ .pio →
        ∀ w r, wrote = w :: r → (∀ y ∈ wrote, y.who ≠ x) → ∃ v, exec i s = .next (answer v w.shown)) ∧
      (p.hasReg (a - p.base) = true → tenantOf a = none → p.blk ≠ .pio →
        ((∀ w ∈ wrote, w.who = x) ∨ ∃ w ∈ wrote, w.who = x) →
        let def_ := moduleWord a
        let rc := BitVec.ofNat 32 def_.rc
        let left := Rule.counted b a
        let value := match isLatched p (a - p.base), (Rule.turn s1 src).bus.latches.find? fun l => l.1 == x && l.2.1 == a with
          | true, some l => l.2.2
          | true, none => 0
          | false, _ => if a - p.base = 16 then b.pageRead p x a
              else blend rc (b.pageRead p x a - left) (b.pageRead p x a)
        (∃ v, exec i s = .next (answer v value) ∧ Rule.Words s1 v [a / 4] ∧
          v.word (a / 4) = (if def_.rc = 0 then b.word (a / 4) else blend rc (Rule.kept b a) (b.word (a / 4))) ∧
          (∀ h, latchedBy p (a - p.base) = some h → ∃ w, (x, h, w) ∈ v.bus.latches ∧
            (∀ l ∈ v.bus.latches, l.1 = x → l.2.1 = h → l.2.2 = w) ∧ (h ≠ a → w = b.pageRead p x h))) ∧
        (∃ v, exec (.rcCounterRead src (BitVec.ofNat 32 a) inc) s = .next (answer v value) ∧ Rule.Words s1 v [a / 4] ∧
          v.word (a / 4) = (let w := if def_.rc = 0 then b.word (a / 4) else blend rc (Rule.kept b a) (b.word (a / 4))
            if inc = true ∧ def_.rc ≠ 0 then satInc w else w)) ∧
        (p.blk ∈ [Blk.nvs, .rtc, .pnl, .clk, .stn, .sec, .sdma] → 0x14 ≤ a - p.base → b.pageRead p x a
          = s1.word (a / 4) &&& BitVec.ofNat 32 (def_.rw ||| def_.ro ||| def_.w1c ||| def_.rc)))

/-- CTRL and EXPERT_KEY of a page (R38, R44, R45): an OWNER other than SUP written to an assignable page is its owner from
the next gate cycle on, and until then the old one is; the key 0x5EED arms its writer, any other write to the page
takes an arm away; EXPERT is set by a write of the armed master alone. -/
def Sys2Proof.Rule.OwnersAndExperts : Prop :=
  ∀ (src : BusSrc) (page : Word) (mask : BitVec 4) (d : Word) (s s1 : State) (p : Page) (a : Nat),
    let x := Rule.master src
    let arms := (Rule.turn s1 src).bus.arms.contains (x, p.base)
    (a = onPage page 8 → Rule.Reaches s s1 src p a mask d → p.blk.fixed = false → mask.getLsbD 0 = true →
      Rule.plain p.blk = true → getBits d 4 2 ≠ 0 →
      ∃ u, exec (.ownerWrite src page mask d) s = .next u ∧ Rule.Words s1 u [a / 4] ∧
        u.ownerOf p = (Rule.turn s1 src).ownerOf p ∧
        ∀ gc, u.bus.cycle < gc → (u.busEnter gc).ownerOf p = getBits d 4 2) ∧
    (a = onPage page 16 → Rule.Reaches s s1 src p a mask d →
      ∃ u, exec (.expertKey src page mask d) s = .next u ∧ Rule.Words s1 u [] ∧
        ((x, p.base) ∈ u.bus.arms ↔ mask.getLsbD 0 = true ∧ mask.getLsbD 1 = true ∧ getBits d 0 16 = 0x5EED) ∧
        ∀ r, r ≠ (x, p.base) → (r ∈ u.bus.arms ↔ r ∈ s1.bus.arms)) ∧
    (a = onPage page 8 → Rule.Reaches s s1 src p a mask (setBits d 1 1 1) → mask.getLsbD 0 = true →
      Rule.plain p.blk = true → p.blk.fixed = true ∨ getBits d 4 2 = 0 →
      ∃ u, exec (.expertSet src page mask d) s = .next u ∧ Rule.Words s1 u [a / 4] ∧ (x, p.base) ∉ u.bus.arms ∧
        u.bit ⟨a / 4, 1, 1⟩ = (arms || s1.bit ⟨a / 4, 1, 1⟩))

/-- Writes over the page bus, and who may write. Both parts are stated above. -/
def Obligations.WritesAndOwners : Prop := Rule.ConfigWrites ∧ Rule.OwnersAndExperts

namespace Sys2Proof.Rule

open Sys2Proof.Machine

/-- TENANT_CMD `i` of message `m`, aimed at tenant `k`, is performed, and answered with the status `st` (R342), which its
arguments, the state and the tenant give: the block becomes `v` with `post`. -/
def Answered (i : Instr) (m : Msg) (st : State → Tenant → Nat → Byte) (post : State → Nat → State → Byte → Prop) : Prop :=
  ∀ (s s1 : State) (k : Nat), Arrives s s1 i → aimedAt m = some k → badCmd m = none →
    (s1.fld F.PWR_STATUS_STATE = 4 → i = .hold m ∨ i = .park m) →
    ∃ v c, exec i s = .next (v.reply m false c 0) ∧ c = st s1 (s1.tenant k) k ∧ post s1 k v c

/-- Nothing changes where a command is refused. -/
def Kept (s v : State) : Prop := Words s v []

/-- The block `v` is `s` with tenant `k` changed into `u`. -/
def Changed (s v : State) (k : Nat) (u : Tenant) : Prop := Words (s.setTenant k u) v []

/-- The tenants but `k`. -/
def Others (s v : State) (k : Nat) : Prop := ∀ j, j ≠ k → v.tenant j = s.tenant j

/-- The first `n` hits of a chain of checks: the status of the first that applies, or 0. -/
def first (l : List (Bool × Byte)) : Byte := ((l.find? fun x => x.1).map fun x => x.2).getD 0

/-- The current value of a page of NVS (R353). -/
def nvsBytes (s : State) (n : Nat) : List Byte :=
  match (s.nvsPage n).current with
  | some c => ((s.nvsPage n).slot c).bytes
  | none => List.replicate 256 0

end Sys2Proof.Rule

/-- TENANT_CMD HOLD, PARK, RESUME, UNPARK and MAIL (R73, R74, R75, R80, R342, R388): the status, and what each does to a
tenant that allows it. A module that is PARKED answers all but HOLD and PARK with BAD_STATE, and a reserved CMD is
BAD_ARGS. The model's choices: the state is judged first (log entry 46), a HOLD while a PARK is pending changes nothing
(log entry 93), and a tenant that was LOST or held by a double trap when it was parked is HELD again by UNPARK (log
entry 58). -/
def Sys2Proof.Rule.HoldAndResume : Prop :=
  ∀ (m : Msg) (at_ : Nat) (len : Byte) (data : List Byte),
    Rule.Answered (.hold m) m (fun _ t _ => if t.fld F.TEN_CONT_STATE = 2 then 0 else 0x11) (fun s k v c =>
      let t := s.tenant k
      if c = 0 then Rule.Changed s v k (if t.stop = .park then t else
        { t with stop := .hold, heldByModule := false }) else Rule.Kept s v) ∧
    Rule.Answered (.park m) m (fun _ t _ => if t.fld F.TEN_CONT_STATE ∈ [2, 3] then 0 else 0x11) (fun s k v c =>
      let t := s.tenant k
      if c = 0 then ∃ u, Rule.Changed s v k u ∧ u.core = t.core ∧ u.parkedByModule = false ∧
          (t.fld F.TEN_CONT_STATE = 2 → u = { t with stop := .park, parkedByModule := false }) ∧
          (t.fld F.TEN_CONT_STATE = 3 → u.fld F.TEN_CONT_STATE = 4)
      else Rule.Kept s v) ∧
    Rule.Answered (.resume m at_) m (fun _ t _ => Rule.first [(t.fld F.TEN_CONT_STATE != 3, 0x11),
        (t.bit F.TEN_CONT_LOST, 0x27), (t.core.cpu.doubleTrap || t.redo, 0x26)]) (fun s k v c =>
      let t := s.tenant k
      let u := v.tenant k
      if c = 0 then v.tick = max s.tick at_ ∧ u.fld F.TEN_CONT_STATE = 2 ∧ u.stop = .none ∧ u.core = t.core ∧
          u.bindLine = t.core.begun ∧ u.bindTick = (s.tbOf t).frameFrom (max s.tick at_ + 100000) ∧
          u.resumeJ = t.resumeJ ++ [.resume] ∧ Rule.Others s v k
      else Rule.Kept (s.advance at_) v) ∧
    Rule.Answered (.unpark m at_) m (fun _ t _ => if t.fld F.TEN_CONT_STATE = 4 then 0 else 0x11) (fun s k v c =>
      let t := s.tenant k
      let u := v.tenant k
      let es := t.engines
      let woken : Prop := ∃ e ∈ es, (s.advance at_).estate e = 6
      let held := t.bit F.TEN_CONT_LOST || t.core.cpu.doubleTrap || t.redo
      if c = 0 ∧ held = true then Rule.Changed (s.advance at_) v k u ∧ u.fld F.TEN_CONT_STATE = 3 ∧ u.core = t.core ∧
          u.parkedByModule = false
      else if c = 0 then u.fld F.TEN_CONT_STATE = 2 ∧ u.stop = .none ∧ u.parkedByModule = false ∧ u.core = t.core ∧
          u.bindLine = t.core.begun ∧
          (woken → u.bindTick = (s.tbOf t).frameFrom (max s.tick at_ + 20000 + 100000)) ∧
          (¬woken → u.bindTick = (s.tbOf t).frameFrom (max s.tick at_ + 100000)) ∧
          u.resumeJ = t.resumeJ ++ [.unpark] ∧ Rule.Others s v k ∧ ∀ e ∈ es, e < 72 → v.estate e ≠ 6
      else Rule.Kept (s.advance at_) v) ∧
    Rule.Answered (.mail m len data) m (fun _ t _ => Rule.first [(decide (t.fld F.TEN_CONT_STATE = 0 ∨
        5 ≤ t.fld F.TEN_CONT_STATE), 0x11), (decide (len = 0 ∨ 32 < len.toNat ∨ data.length ≠ len.toNat), 0x12)]) (fun s k v c =>
      let t := s.tenant k
      if c = 0 then Rule.Changed s v k { t with inputs := t.inputs ++ [.mail data] } else Rule.Kept s v) ∧
    ∀ s s1 i k pay, inbound i = some (m, 4, pay) → Rule.Arrives s s1 i → aimedAt m = some k →
      ((badCmd m).isSome = true → exec i s = .next (s1.reply m false 0x12 0)) ∧
      (badCmd m = none → i ≠ .hold m → i ≠ .park m → s1.fld F.PWR_STATUS_STATE = 4 →
        exec i s = .next (s1.reply m false 0x11 0))

/-- TENANT_CMD LOAD, START, RESET and MOVE (R36, R62, R69, R75, R91, R281, R290, R341, R342, R357): the first check that
fails gives the status and changes nothing (the order of the checks after the state's is the model's choice, log entry
46, and so is NO_SLOT for START of a tenant that waits for a slot, log entry 48); LOAD raises the epoch, places the
tenant and copies its save pages; START begins the tenant from its registers and save RAM; RESET raises the epoch,
recorded in NVS first (the record queued), ends the arms on the tenant's pages, and resets the tenant; MOVE reserves a
slot for it, and where R279 forbids that slot beside the tenant's mirror, the mirror moves too. -/
def Sys2Proof.Rule.LoadAndStart : Prop :=
  ∀ (m : Msg) (a : LoadArgs) (at_ pick : Nat) (slot : Half),
    let es := ([a.e0, a.e1, a.e2, a.e3].map BitVec.toNat).filter fun e => e != 0xFFFF
    Rule.Answered (.load m a pick) m (fun s t k => Rule.first [
        (!decide (t.fld F.TEN_CONT_STATE ≤ 1 ∨ (t.fld F.TEN_CONT_STATE = 3 ∧ t.bit F.TEN_CONT_LOST = true)), 0x11),
        (es.any fun e => decide (2048 ≤ e), 0x12),
        (!decide (a.imageLen.toNat ≤ 16256 * 1024 ∧ a.imageBase.toNat * 65536 + a.imageLen.toNat ≤ 2 ^ 32), 0x35),
        ((s.bindAll k es).isNone, 0x34),
        ((profileFault a.geom a.cyc a.pace (s.tbSet (getBits a.geom 16 2))).isSome,
          (profileFault a.geom a.cyc a.pace (s.tbSet (getBits a.geom 16 2))).getD 0),
        (decide (¬(t.slot < 1152 ∧ t.bit F.TEN_PLACE_TAKEOVER = false) ∧ s.homeSlots k = []), 0x31)]) (fun s k v c =>
      let t := s.tenant k
      let u := v.tenant k
      if c = 0 then u.fld F.TEN_CONT_STATE = 1 ∧ u.bit F.TEN_CONT_LOST = false ∧ u.epoch = nextEpoch t.epoch ∧
          u.image = ⟨a.imageBase.toNat * 65536, a.imageLen.toNat⟩ ∧ Rule.Others s v k ∧
          (∀ i, memGet u.core.mem i = if 0x10000 ≤ i ∧ i < 0x12000
            then (Rule.nvsBytes s (32 * k + (i - 0x10000) / 256)).getD (i % 256) 0 else 0) ∧
          u.slot < 1152 ∧ (t.slot < 1152 → t.bit F.TEN_PLACE_TAKEOVER = false → t.fld F.TEN_CONT_STATE ≤ 1 → u.slot = t.slot) ∧
          u.fld F.TEN_GEOM_WIDTH16 = getBits a.geom 0 6 ∧ u.fld F.TEN_GEOM_TB = getBits a.geom 16 2 ∧
          u.fld F.TEN_CYC_CYC_PER_LINE = getBits a.cyc 0 12 ∧ u.fld F.TEN_PACE_LEAD = getBits a.pace 16 3 ∧
          ∀ e ∈ es, v.ebit F.STN_ENT_CTRL_EN e = true ∧ v.efld F.STN_ENT_CTRL_TENANT e = k
      else Rule.Kept s v) ∧
    Rule.Answered (.start m at_) m (fun s t _ =>
        let f := profileFault (t.word F.TEN_GEOM_TB.key) (t.word F.TEN_CYC_VIS_CYC.key) (t.word F.TEN_PACE_LEAD.key) (s.tbOf t)
        Rule.first [(t.fld F.TEN_CONT_STATE != 1, 0x11), (f.isSome, f.getD 0),
          (!(s.advance at_).tbRunning (t.fld F.TEN_GEOM_TB), 0x25), (t.unplaced, 0x31)]) (fun s k v c =>
      let t := s.tenant k
      let u := v.tenant k
      if c = 0 then v.tick = max s.tick at_ ∧ u.fld F.TEN_CONT_STATE = 2 ∧ u.stop = .none ∧ u.bindLine = 0 ∧
          u.bindTick = (s.tbOf t).frameFrom (max s.tick at_ + 100000) ∧
          u.core = { Core.reset with
            mem := t.core.mem.filter fun e => 0x10000 ≤ e.1 && e.1 < 0x12000
            regs := t.core.regs
            snd := { Sound.reset with keyOn := t.core.snd.keyOn, keyOff := t.core.snd.keyOff }
            tmr0 := { t.core.tmr0 with upTo := 0 }, tmr1 := { t.core.tmr1 with upTo := 0 }
            tmr2 := { t.core.tmr2 with upTo := 0 }, tmr3 := { t.core.tmr3 with upTo := 0 } } ∧
          u.fld F.TEN_BEAM_LINE = 0 ∧ u.fld F.TEN_BEAM_FRAME = 0 ∧ u.journal = [] ∧ Rule.Others s v k ∧
          (∀ e ∈ (s.advance at_).entriesOf k, (v.entry e).fullReq = true) ∧ v.regs = (s.advance at_).regs
      else Rule.Kept (s.advance at_) v) ∧
    Rule.Answered (.reset m) m (fun _ t _ => if 1 ≤ t.fld F.TEN_CONT_STATE ∧ t.fld F.TEN_CONT_STATE ≤ 4 then 0 else 0x11)
      (fun s k v c =>
      let t := s.tenant k
      let u := v.tenant k
      if c = 0 then u.epoch = nextEpoch t.epoch ∧ Rule.Others s v k ∧
          (∀ r ∈ v.bus.arms, (tenantOf r.2).map (fun x => x.1) ≠ some k) ∧
          ((v.pageLatest (36881 + k / 128)).drop (2 * (k % 128))).take 2 = leBytes 2 (nextEpoch t.epoch) ∧
          (t.waitPromotion = true → u.resetWait = true ∧ u.fld F.TEN_CONT_STATE = t.fld F.TEN_CONT_STATE ∧ u.core = t.core) ∧
          (t.waitPromotion = false → u.fld F.TEN_CONT_STATE = 5 ∧ u.stop = .none ∧ u.inputs = [] ∧ u.bufs = [] ∧
            u.ring = none ∧ u.move = none ∧ u.mirror = none)
      else Rule.Kept s v) ∧
    (∀ s s1 k, Rule.Arrives s s1 (.move m slot pick) → aimedAt m = some k → badCmd m = none →
      s1.fld F.PWR_STATUS_STATE ≠ 4 →
      let t := s1.tenant k
      let wrong := Rule.first [(decide (t.fld F.TEN_CONT_STATE = 5 ∨ t.move.isSome = true ∨ t.unplaced = true), 0x30),
        (decide (t.fld F.TEN_CONT_STATE = 0 ∨ t.bit F.TEN_CONT_LOST = true), 0x33),
        (decide (1152 ≤ slot.toNat ∧ slot ≠ 0xFFFF), 0x12), (slot == 0xFFFF && s1.homeSlots k == [], 0x31), (slot != 0xFFFF && !s1.homeFree slot.toNat, 0x32),
        (slot != 0xFFFF && !s1.homeLegal k slot.toNat && s1.mirrorFor k slot.toNat == [], 0x32)]
      (wrong ≠ 0 → ∃ v, exec (.move m slot pick) s = .next (v.reply m false wrong 0) ∧ Rule.Kept s1 v) ∧
      (wrong = 0 → ∃ v n, exec (.move m slot pick) s = .next (v.reply m false 0 0) ∧
        (slot = 0xFFFF → s1.homeLegal k n = true) ∧ (slot ≠ 0xFFFF → n = slot.toNat) ∧
        (s1.homeLegal k n = false → ∃ x, (v.tenant k).mirrorMove = some ⟨x, 0⟩ ∧ x ∈ s1.mirrorFor k n) ∧
        (v.tenant k).move = some ⟨n, 0⟩ ∧ (v.tenant k).bit F.TEN_CONT_MOVING = true ∧ (v.tenant k).core = t.core ∧
        (v.tenant k).slot = t.slot ∧ v.homeOcc n = true ∧ Rule.Others s1 v k))

/-- The TENANT_CMDs. Both parts are stated above. -/
def Obligations.TenantCommands : Prop := Rule.HoldAndResume ∧ Rule.LoadAndStart

/-- The other messages (R172, R223, R343, R344, R351): an image chunk is stored in the image store unless it touches an
image in use; overlay bytes wait for a frame boundary; a preview is begun, changed or ended; WAKE sets WAKE_RX, and in
DORMANT, where HOST-B's checks pass, drives source 364 for 1 ms (32 samples of LANTERN, the model's choice, log entry
45). That overlay bytes and previews act on the tenant of the header is the model's choice (log entry 43). -/
def Obligations.OtherMessages : Prop :=
  ∀ (m : Msg) (x : Byte) (off : Word) (data : List Byte) (path : Byte) (frames : Half) (s s1 : State),
    (Rule.Arrives s s1 (.imageChunk m 0 off data) → off.toNat + data.length ≤ 2 ^ 32 →
      (s1.imageHeld off.toNat data.length = false → ∃ h, exec (.imageChunk m 0 off data) s = .next { s1 with hbm := h } ∧
        (∀ i, i < data.length → memGet h (off.toNat + i) = data.getD i 0) ∧
        ∀ a, (a < off.toNat ∨ off.toNat + data.length ≤ a) → memGet h a = memGet s1.hbm a) ∧
      (s1.imageHeld off.toNat data.length = true → ∃ u, exec (.imageChunk m 0 off data) s = .next u ∧
        Rule.Words s1 u [F.GTE_IMAGE_REJECT_COUNT.key] ∧
        u.word F.GTE_IMAGE_REJECT_COUNT.key = satInc (s1.word F.GTE_IMAGE_REJECT_COUNT.key))) ∧
    (∀ k, Rule.Arrives s s1 (.overlayWrite m x off data) → aimedAt m = some k →
      let t := s1.tenant k
      exec (.overlayWrite m x off data) s = .next (s1.setTenant k { t with
        compo := { t.compo with writes := t.compo.writes ++ [⟨x, m.flags.getLsbD 0, off.toNat, data⟩] } })) ∧
    (∀ k, Rule.Arrives s s1 (.previewReq m x path frames) → aimedAt m = some k →
      let mine (p : Preview) : Bool := p.tenant == k && p.host == m.host
      let rest := s1.previews.filter fun p => !mine p
      let others := ((s1.previews.map Preview.tenant).filter fun n => n != k).eraseDups
      let code : Byte := Rule.first [(decide (3 < x.toNat ∨ 1 < path.toNat), 0x12),
        (decide (frames ≠ 0 ∧ 4 ≤ others.length), 0x36)]
      exec (.previewReq m x path frames) s = .next (State.reply (if code ≠ 0 then s1 else { s1 with
        previews := if frames = 0 then rest else rest ++ [⟨m.host, k, x, path, frames.toNat⟩] }) m false code 0)) ∧
    (Rule.Arrives s s1 (.wake m) → exec (.wake m) s = .next (s1.setBit F.GTE_STATUS_WAKE_RX true)) ∧
    (s.power.mode = .dormant → (m.host = .a → exec (.wake m) s = .next s) ∧
      (m.host = .b → msgType m 7 = 7 → s.admitB m 7 [] = (s1, true) → m.len = 0 →
        exec (.wake m) s = .next { s1 with power := { s1.power with wakeDrive := 32 } } ∧
        ({ s1 with power := { s1.power with wakeDrive := 32 } } : State).srcLevel 364 = true))

namespace Sys2Proof.Rule

open Sys2Proof.Machine

/-- Room has returned in the completion ring (R347): the gate `g` holds the messages `old` in their order, and then the
EVENTs `more` of sources that had to wait for room and qualify, if EVT_A lets EVENTs go to HOST-A at all. A message
is held only while there is no room. -/
def Refilled (s : State) (g : Gate) (old : List HostMsg) : Prop :=
  (g.held = [] ∨ g.cqRoom = false) ∧ ∃ more, g.cq.map (·.msg) ++ g.held = old ++ more ∧
    (s.bit F.GTE_CTRL_EVT_A = false → more = []) ∧
    ∀ x ∈ more, ∃ n ∈ s.gate.missed, s.qualifies 3 n = true ∧
      x = .event 1 (BitVec.ofNat 16 n) (BitVec.ofNat 8 (s.miqFld (F.MIQ_SRC_VECTOR n))) []

end Sys2Proof.Rule

/-- The commands SQ_TAIL, CQ_HEAD, RING_CTRL, COUNTERS, GATE_LINK_FAIL and PCIE_RESET, the host side of the gate (R339,
R347, R403): each of them completes in every state. With no power nothing happens; else the word written is held, RO
fields stay, a write of CQ_HEAD frees the slots before it, one of RING_CTRL with EN 0 empties both rings; the page named
by CNT_LIST is read and sent to both hosts; a gate link that fails gets its credits back, and lets in what was held
before it; PERST# resets the rings and their registers. The model's choices: RING_CTRL stands for the words of BAR4 that
have no row (log entry 18), what a ring emptied by RING_CTRL keeps (log entry 19), and that COUNTERS goes to both hosts
(log entry 35). -/
def Obligations.HostRings : Prop :=
  ∀ (v : Word) (off : Fin 14) (l : Fin 2) (s : State),
    (s.power.mode ≠ .on → s.power.mode ≠ .start →
      exec (.sqTail v) s = .next s ∧ exec (.cqHead v) s = .next s ∧ exec (.ringCtrl off v) s = .next s) ∧
    (s.power.mode = .on ∨ s.power.mode = .start →
      (∃ g, exec (.sqTail v) s = .next { s with gate := g } ∧ g.fld F.BAR4_SQ_TAIL_TAIL = v.toNat % 2 ^ 12 ∧
        (∀ n, n ≠ F.BAR4_SQ_TAIL_TAIL.key → g.bar4Word n = s.gate.bar4Word n) ∧ g.cq = s.gate.cq ∧
        g.held = s.gate.held ∧ g.missed = s.gate.missed) ∧
      (∃ g, exec (.cqHead v) s = .next { s with gate := g } ∧ g.fld F.BAR4_CQ_HEAD_HEAD = v.toNat % 2 ^ 12 ∧
        let size := s.gate.fld F.BAR4_CQ_SIZE_SIZE
        Rule.Refilled s g ((s.gate.cq.drop ((v.toNat % 2 ^ 12 + size - s.gate.fld F.BAR4_CQ_HEAD_HEAD % size) % size)).map
          (·.msg) ++ s.gate.held) ∧
        ∀ n, n ≠ F.BAR4_CQ_HEAD_HEAD.key → n ≠ F.BAR4_CQ_TAIL_TAIL.key → g.bar4Word n = s.gate.bar4Word n) ∧
      (v.getLsbD 0 = false → ∃ g, exec (.ringCtrl 0 v) s = .next { s with gate := g } ∧
        g.fld F.BAR4_RING_CTRL_EN = 0 ∧ g.cq = [] ∧ g.held = s.gate.held ∧
        g.fld F.BAR4_SQ_HEAD_HEAD = s.gate.fld F.BAR4_SQ_TAIL_TAIL ∧
        g.fld F.BAR4_CQ_TAIL_TAIL = s.gate.fld F.BAR4_CQ_HEAD_HEAD) ∧
      (v.getLsbD 0 = true → ∃ g, exec (.ringCtrl 0 v) s = .next { s with gate := g } ∧
        g.fld F.BAR4_RING_CTRL_EN = 1 ∧ g.fld F.BAR4_SQ_HEAD_HEAD = s.gate.fld F.BAR4_SQ_HEAD_HEAD ∧
        Rule.Refilled s g (s.gate.cq.map (·.msg) ++ s.gate.held)) ∧
      exec (.ringCtrl 5 v) s = exec (.sqTail v) s ∧ exec (.ringCtrl 11 v) s = exec (.cqHead v) s ∧
      (off ∉ [0, 11] → ∃ g, exec (.ringCtrl off v) s = .next { s with gate := g } ∧
        g.bar4Word off = blend (BitVec.ofNat 32 (bar4Def (4 * off)).rw) v (s.gate.bar4Word off) ∧
        (∀ n, n ≠ off.val → g.bar4Word n = s.gate.bar4Word n) ∧ g.cq = s.gate.cq ∧ g.held = s.gate.held ∧
        g.missed = s.gate.missed)) ∧
    (s.power.mode ≠ .on ∨ s.fld F.GTE_CNT_PERIOD_MS = 0 → exec .counters s = .next s) ∧
    (s.power.mode = .on → s.fld F.GTE_CNT_PERIOD_MS ≠ 0 →
      exec .counters s = .next (s.counterPages.foldl State.sendCounters s) ∧
      ∀ n p, s.counterPages = [n] → pageOf n = some p → p.base = n → Rule.plain p.blk = true → s.bus.wrote = [] →
        let at_ (i : Nat) : Nat := n + 0xF00 + 4 * i
        let b (i : Nat) : State := s.accrue p (at_ i)
        let rc (i : Nat) : Word := BitVec.ofNat 32 (moduleWord (at_ i)).rc
        let left (i : Nat) : Word := Rule.counted (b i) (at_ i)
        let w (i : Nat) : Word := if p.hasReg (0xF00 + 4 * i) then
          blend (rc i) ((b i).pageRead p .sup (at_ i) - left i) ((b i).pageRead p .sup (at_ i)) else 0
        ∃ u, exec .counters s = .next (u.toHosts (.counters (BitVec.ofNat 32 n) ((List.range 64).map w))) ∧
          Rule.Words s u ((List.range 64).map fun i => at_ i / 4) ∧
          ∀ i, i < 64 → p.hasReg (0xF00 + 4 * i) = true → u.word (at_ i / 4) = (if rc i = 0 then (b i).word (at_ i / 4)
            else blend (rc i) (Rule.kept (b i) (at_ i)) ((b i).word (at_ i / 4)))) ∧
    (∃ r, let u : State := { s with
        regs := r
        credits := s.credits.filter fun c => c.path != .gateLink l false && c.path != .gateLink l true }
      exec (.gateLinkFail l) s = .next u.unblock ∧
      (∀ a, a ≠ F.GTE_STATUS_LINK.key → u.word a = s.word a) ∧
      ∀ j, (u.fld F.GTE_STATUS_LINK).testBit j = ((s.fld F.GTE_STATUS_LINK).testBit j && decide (j ≠ l.val))) ∧
    exec .pcieReset s = .next { s with gate := { s.gate with bar4 := [], cq := [] } }

namespace Sys2Proof.Rule

open Sys2Proof.Machine

/-- The refusal code of PWR.CMD `op` (R390), or 0: the state does not allow it, no wake source is armed, a tenant runs or
moves, an update is in progress, or PFW is raised. -/
def refusal (s : State) (op : Nat) : Byte :=
  let st := s.fld F.PWR_STATUS_STATE
  first [(!decide ((op = 1 ∧ st = 2) ∨ (op = 2 ∧ st = 4) ∨ (op = 3 ∧ (st = 2 ∨ st = 4))), 1),
    (decide (op = 3) && !(s.bit ⟨0x7008 / 4, 0, 1⟩ && (List.range 32).any s.selActs), 2),
    (decide (op = 3) && s.tenants.any (fun x => x.2.move.isSome || x.2.waitPromotion || x.2.st == 2 || x.2.st == 5), 3),
    (decide (op = 3) && decide (s.fld F.FWU_STATUS_PHASE ≠ 0), 4), (s.bit F.PWR_STATUS_PFW, 5)]

/-- A PWR.CMD that is refused changes PWR.REFUSE and tells the hosts; one that is not has the effect `post`. -/
def PowerWrite (i : Instr) (src : BusSrc) (mask : BitVec 4) (d : Word) (op : Nat) (post : State → State → Prop) : Prop :=
  Writes i src 0x1020 mask (setBits d 0 2 op) (fun _ => mask.getLsbD 0 = true) fun s u =>
    let c := refusal s op
    if c = 0 then post s u
    else Words (s.tell 0x0604 c.toNat) u [F.PWR_REFUSE_CODE.key] ∧ u.fld F.PWR_REFUSE_CODE = c.toNat ∧
      u.bit F.PWR_REFUSE_REFUSED = true

/-- A write of OP `op` to FWU.CMD in a state with `legal` does `post`; in any other it is counted in CMD_REJECT. -/
def FwuWrite (i : Instr) (src : BusSrc) (mask : BitVec 4) (d : Word) (op : Nat) (legal : State → Prop)
    (post : State → State → Prop) : Prop :=
  Writes i src 0x6020 mask (setBits d 0 4 op) (fun _ => mask.getLsbD 0 = true) fun s u =>
    (legal s → post s u) ∧ (¬legal s → Words s u [F.FWU_CMD_REJECT_COUNT.key] ∧
      u.word F.FWU_CMD_REJECT_COUNT.key = satInc (s.word F.FWU_CMD_REJECT_COUNT.key))

/-- The image slots: active, previous, staging. -/
def slots (s : State) : Nat × Nat × Nat := (s.fld F.FWU_SLOTS_ACTIVE, s.fld F.FWU_SLOTS_PREVIOUS, s.fld F.FWU_SLOTS_STAGING)

/-- The firmware record says what the registers say, and whether the active image is confirmed: that is what its page
holds once the writes that NVS has accepted, or that wait for PFW to clear, have been performed. -/
def Recorded (s : State) (rollback confirmed : Bool) : Prop :=
  s.fwu.rollback = rollback ∧ s.fwu.confirmed = confirmed ∧ (s.pageLatest 311296).take 6 =
    [1, BitVec.ofNat 8 (slots s).1, BitVec.ofNat 8 (slots s).2.1, BitVec.ofNat 8 (slots s).2.2,
      BitVec.ofNat 8 confirmed.toNat, BitVec.ofNat 8 rollback.toNat]

/-- The settings groups of `u` are those that the active image of `s` starts with (R384): a group stored with another
schema version has been reset to its defaults, and any other is as it was. -/
def Settled (s u : State) : Prop :=
  let new := s.slotField s.slots.1 28 2
  ∀ p ∈ settingsPages, u.schemaOf p = new ∧ u.pageLatest p =
    if s.schemaOf p = new then s.pageLatest p else memBytes (memPut [] 0 (Config.settingsPage p new)) 0 256

end Sys2Proof.Rule

/-- PWR.CMD (R387 to R391): PARK parks the running tenants; RUN wakes the engines and unparks the tenants that the module
has parked; DORMANT leaves the RTC, LAN, key and sequence state alone and turns all else off, and LANTERN recognises and
records at once what is pending as it begins (R306, R307); a command that may not be obeyed is refused with its code. -/
def Obligations.PowerCommands : Prop :=
  ∀ (src : BusSrc) (mask : BitVec 4) (d : Word),
    Rule.PowerWrite (.powerPark src mask d) src mask d 1 (fun s u =>
      Rule.Words { s.tell 0x0603 3 with tenants := s.tenants.map fun x => (x.1, if x.2.fld F.TEN_CONT_STATE = 2
        then { x.2 with stop := .park, parkedByModule := true } else x.2) } u [F.PWR_STATUS_STATE.key] ∧
      u.fld F.PWR_STATUS_STATE = 3) ∧
    Rule.PowerWrite (.powerRun src mask d) src mask d 2 (fun s u => s.Inv →
      u.fld F.PWR_STATUS_STATE = 2 ∧ (∀ e, e < 72 → s.estate e = 6 → u.estate e = 0) ∧
      ∀ k, let t := s.tenant k
        if t.fld F.TEN_CONT_STATE = 4 ∧ t.parkedByModule = true then (u.tenant k).fld F.TEN_CONT_STATE = 2 ∧
          (u.tenant k).stop = .none ∧ (u.tenant k).parkedByModule = false ∧ (u.tenant k).core = t.core ∧
          (u.tenant k).bindLine = t.core.begun ∧
          (u.tenant k).bindTick = (s.tbOf t).frameFrom (s.tick + 20000 + 100000)
        else u.tenant k = t) ∧
    Rule.PowerWrite (.powerDormant src mask d) src mask d 3 (fun s u => s.Inv →
      u.power = { s.power with mode := .dormant } ∧ u.tenants = [] ∧ u.hbm = [] ∧ u.push = [] ∧ u.entries = [] ∧
      u.nvs.queue = [] ∧ u.miq = [] ∧ u.pins.asleep = 0xF ∧ u.gate.key = s.gate.key ∧ u.gate.rxTop = s.gate.rxTop ∧
      u.gate.cq = [] ∧ u.bit F.GTE_KEY_CTRL_KEY_SET = s.bit F.GTE_KEY_CTRL_KEY_SET ∧
      (∀ f ∈ [F.GTE_CFG_HB_PORT, F.GTE_CFG_V4_EN, F.GTE_CFG_V6_EN, F.GTE_HB_RATE_RATE], u.fld f = s.fld f) ∧
      let pre := ((s.setPower 6).panelQuiet.drainNvs).pinsAsleep
      let hit (i : Nat) : Bool := pre.selLevel i || u.selLevel i
      u.gate.txSeq = pre.gate.txSeq ∧ u.nvs.pages = pre.nvs.pages ∧
      (∀ a, (0x5000 ≤ 4 * a ∧ 4 * a < 0x6000) ∨ (0x7000 ≤ 4 * a ∧ 4 * a < 0x8000) →
        a ∉ [F.LAN_HIT_HIT.key, F.LAN_CAUSE_SOURCE.key] → u.word a = s.word a) ∧
      ∀ i, i < 32 → Store.get 0 u.lan i = (if hit i then 3 else 0) ∧
        (u.word F.LAN_HIT_HIT.key).getLsbD i = ((s.word F.LAN_HIT_HIT.key).getLsbD i || hit i))

/-- MOD.CTRL.EN, MOD.READMIT and CLK.RST_PORT (R292, R293, R404, R422): setting EN starts the engines that are OFF,
after a self-test if they have run before; clearing EN turns them off, and is rejected while a tenant is not EMPTY;
READMIT starts the test of a fenced engine or a faulted ring; a port taken into reset loses its link, its queues and its
credits, which come back with the end of the reset (R402). -/
def Obligations.ModuleRows : Prop :=
  ∀ (src : BusSrc) (mask : BitVec 4) (d : Word),
    Rule.Writes (.modEnable src mask d) src 8 mask (setBits d 0 1 1)
      (fun s => mask.getLsbD 0 = true ∧ getBits d 4 2 = 0 ∧ s.bit F.MOD_EN = false) (fun s u =>
      let es := (List.range 72).filter fun e => s.estate e == 7
      u.bit F.MOD_EN = true ∧ u.cont = { s.cont with starting := true, startSet := es, startedOnce := true } ∧ u.tenants = s.tenants ∧
        (s.cont.startedOnce = false → Rule.Words { s with cont := u.cont } u [2]) ∧
        (s.cont.startedOnce = true → ∀ e, e < 72 → u.estate e = if e ∈ es then 3 else s.estate e)) ∧
    Rule.Writes (.modDisable src mask d) src 8 mask (setBits d 0 1 0)
      (fun s => mask.getLsbD 0 = true ∧ getBits d 4 2 = 0 ∧ s.bit F.MOD_EN = true) (fun s u =>
      if s.tenants.all fun x => x.2.fld F.TEN_CONT_STATE == 0 then
        u.bit F.MOD_EN = false ∧ u.bit F.MOD_STATUS_ENGINES_UP = false ∧ u.cont.starting = false ∧
          ∀ e, e < 72 → s.estate e = 0 ∨ s.estate e = 6 → u.estate e = 7
      else Rule.Words s u [2, 0xF00 / 4] ∧ u.bit F.MOD_EN = true ∧ u.word (0xF00 / 4) = satInc (s.word (0xF00 / 4))) ∧
    Rule.Writes (.readmit src mask d) src 0x64 mask (setBits d 31 1 1) (fun _ => mask = 0xF) (fun s u =>
      let n := getBits d 0 7
      (n < 72 → s.estate n = 1 → u.estate n = 3 ∧ (∀ e, e < 72 → e ≠ n → u.estate e = s.estate e) ∧ u.credits = s.credits) ∧
      (n < 72 → s.estate n ≠ 1 → Rule.Words s u []) ∧
      (∀ c : Sec, n = 72 + 2 * c.val ∨ n = 73 + 2 * c.val →
        let b := decide (n = 73 + 2 * c.val)
        (s.ringState c b = 1 → u.ringState c b = 2 ∧ ∀ p ∈ ringPaths c b, (u.credit p).held = 0) ∧
        (s.ringState c b ≠ 1 → Rule.Words s u []))) ∧
    Rule.Writes (.portReset src mask d) src 0x2040 mask d (fun _ => True) (fun s u =>
      let w := blend (byteMask mask &&& 0xFFFF) d (s.word (0x2040 / 4))
      u.word (0x2040 / 4) = w ∧ ∀ p, p < 16 →
        if w.getLsbD p = true ∧ (s.word (0x2040 / 4)).getLsbD p = false then
          u.bit (F.PRT_STATUS_LINK_UP p) = false ∧ (u.port p).audio = [] ∧ (u.port p).queue = [] ∧ (u.port p).inbox = []
        else u.port p = s.port p ∧ u.bit (F.PRT_STATUS_LINK_UP p) = s.bit (F.PRT_STATUS_LINK_UP p)) ∧
    Rule.Writes (.portReset src mask d) src 0x2040 mask d (fun _ => True) (fun s u =>
      let w := blend (byteMask mask &&& 0xFFFF) d (s.word (0x2040 / 4))
      ∀ (p : PortNo) (q : Path), q ∈ [Path.egress p, Path.ingress p] →
        (u.credit q).held = if w.getLsbD p then (if (s.word (0x2040 / 4)).getLsbD p then (s.credit q).held else 0)
          else if (s.word (0x2040 / 4)).getLsbD p then creditMax q else (s.credit q).held)

/-- FWU.CMD and the staged bytes (R376, R377, R378, R381, R382): each command acts in the phases that allow it and is
counted as rejected in any other; a chunk is taken from the master that has opened the update, in order and within
STAGE_LEN, and the last one starts verification; the staged bytes go into the pages of the staging slot, VERIFY writing
the last page that is not whole. A ROLLBACK of a trial starts the settings rule of R384 at once. The bytes of the
firmware record, and that ACTIVATE, CONFIRM and ROLLBACK are rejected during PFW, are the model's choices (log entry
52). -/
def Obligations.FirmwareCommands : Prop :=
  ∀ (src : BusSrc) (mask : BitVec 4) (d : Word) (m : Msg) (off : Word) (data : List Byte) (s s1 : State),
    let ph (s : State) : Nat := s.fld F.FWU_STATUS_PHASE
    let pfw (s : State) : Bool := s.bit F.NVS_STATUS_PFW
    let st := F.FWU_STATUS_PHASE.key
    Rule.FwuWrite (.fwuOpen src mask d) src mask d 1
      (fun s => ph s = 0 ∧ 1024 ≤ s.fld F.FWU_STAGE_LEN_LEN ∧ s.fld F.FWU_STAGE_LEN_LEN ≤ 20971520) (fun s u =>
      Rule.Words { s with fwu := { s.fwu with issuer := some (Rule.master src), staged := [] } } u
        [st, F.FWU_RECEIVED_BYTES.key] ∧ ph u = 1 ∧ u.fld F.FWU_RECEIVED_BYTES = 0) ∧
    Rule.FwuWrite (.fwuVerify src mask d) src mask d 2 (fun s => ph s = 1) (fun s u =>
      let n := s.fld F.FWU_RECEIVED_BYTES
      ph u = 2 ∧ Rule.Words { s with nvs := u.nvs } u [st, F.NVS_QUEUE_LEVEL.key, F.NVS_REFUSED_COUNT.key] ∧
        (n % 256 = 0 → u.nvs = s.nvs) ∧ (n % 256 ≠ 0 → u.pageLatest (65536 + 81920 * s.fld F.FWU_SLOTS_STAGING + n / 256)
          = memBytes s.fwu.staged (256 * (n / 256)) 256)) ∧
    Rule.FwuWrite (.fwuActivate src mask d) src mask d 3
      (fun s => ph s = 3 ∧ s.bit F.FWU_STATUS_STANDBY_READY = true ∧ pfw s = false) (fun s u =>
      ph u = 4 ∧ u.bit F.FWU_STATUS_STANDBY_READY = false ∧ Rule.Recorded u false false ∧
        Rule.slots u = ((Rule.slots s).2.2, (Rule.slots s).1, (Rule.slots s).2.1) ∧ u.tenants = s.tenants) ∧
    Rule.FwuWrite (.fwuConfirm src mask d) src mask d 4 (fun s => ph s = 6 ∧ pfw s = false) (fun s u =>
      ph u = 0 ∧ u.fwu.reboot = true ∧ Rule.Recorded u false true ∧ Rule.slots u = Rule.slots s ∧ u.tenants = s.tenants) ∧
    Rule.FwuWrite (.fwuRollback src mask d) src mask d 5 (fun s => (ph s = 0 ∨ ph s = 6) ∧ pfw s = false) (fun s u =>
      ph u = (if ph s = 6 then 5 else 4) ∧ Rule.Recorded u true (decide (ph s = 6)) ∧
        (ph s = 6 → Rule.Settled (s.setSlots ((Rule.slots s).2.1, (Rule.slots s).1, (Rule.slots s).2.2)) u) ∧ u.bit F.FWU_STATUS_STANDBY_READY = false ∧
        Rule.slots u = ((Rule.slots s).2.1, (Rule.slots s).1, (Rule.slots s).2.2) ∧ u.tenants = s.tenants) ∧
    Rule.FwuWrite (.fwuAbort src mask d) src mask d 6 (fun s => 1 ≤ ph s ∧ ph s ≤ 3)
      (fun s u => Rule.Words s u [st] ∧ ph u = 0) ∧
    (Rule.Arrives s s1 (.imageChunk m 1 off data) →
      let n := off.toNat + data.length
      let last := m.flags.getLsbD 0 = true ∨ n = s1.fld F.FWU_STAGE_LEN_LEN
      let ok := ph s1 = 1 ∧ s1.fwu.issuer = some (Rule.master (.gate m)) ∧ off.toNat = s1.fld F.FWU_RECEIVED_BYTES ∧
        n ≤ s1.fld F.FWU_STAGE_LEN_LEN ∧ pfw s1 = false
      ∃ u, exec (.imageChunk m 1 off data) s = .next u ∧
        (ok → u.fld F.FWU_RECEIVED_BYTES = n ∧ (∀ i, i < data.length → memGet u.fwu.staged (off.toNat + i) = data.getD i 0) ∧
          (∀ a, (a < off.toNat ∨ n ≤ a) → memGet u.fwu.staged a = memGet s1.fwu.staged a) ∧
          ph u = (if last then 2 else 1) ∧ u.tenants = s1.tenants ∧
          ∀ p, off.toNat / 256 ≤ p → (p < n / 256 ∨ (last ∧ 256 * p < n)) →
            u.pageLatest (65536 + 81920 * s1.fld F.FWU_SLOTS_STAGING + p) = memBytes u.fwu.staged (256 * p) 256) ∧
        (¬ok → Rule.Words s1 u [F.FWU_CHUNK_REJECT_COUNT.key] ∧
          u.word F.FWU_CHUNK_REJECT_COUNT.key = satInc (s1.word F.FWU_CHUNK_REJECT_COUNT.key)))

/-- The course of an update (R375, R378 to R381, R384, R385) and the supervisors (R294): verification ends with its
result, the standby takes over the image, which applies its settings rule, and the role, the trial ends TRIAL_S seconds
after the swap, the standby is ready again; a supervisor that fails is replaced, in BOOTING once the standby has booted,
and what waited for that proceeds afterwards. The model's choices: the instants of a takeover, with STANDBY_READY and
ACTIVE_SUP_B (log entry 51), and the bytes of the firmware record (log entry 52). -/
def Obligations.FirmwareHandover : Prop :=
  ∀ (s : State),
    let ph (s : State) : Nat := s.fld F.FWU_STATUS_PHASE
    let st := F.FWU_STATUS_PHASE.key
    let busy := s.bit F.MOD_CONT_STATUS_SUP_TAKEOVER
    (ph s = 2 → let r := s.verify s.fwu.staged (s.fld F.FWU_RECEIVED_BYTES)
      ∃ u, exec .fwuVerified s = .next u ∧ u.fld F.FWU_STATUS_RESULT = r ∧ u.bit F.FWU_STATUS_NOTICE = true ∧
        (r = 0 → ph u = 3 ∧ u.fld F.FWU_STAGED_VER_VERSION = leNat (memBytes s.fwu.staged 24 4) ∧
          Rule.Words (s.tell 0x0501 0) u [st, F.FWU_STAGED_VER_VERSION.key]) ∧
        (r ≠ 0 → ph u = 0 ∧ Rule.Words (s.tell 0x0502 r) u [st, F.FWU_VERIFY_FAILS_COUNT.key] ∧
          u.word F.FWU_VERIFY_FAILS_COUNT.key = satInc (s.word F.FWU_VERIFY_FAILS_COUNT.key))) ∧
    (ph s = 4 → ∃ u, exec .syncing s = .next u ∧ u.tenants = s.tenants ∧ Rule.slots u = Rule.slots s ∧ Rule.Settled s u ∧
      (s.fwu.failed = false → ph u = 5 ∧ u.bit F.MOD_CONT_STATUS_ACTIVE_SUP_B = s.bit F.MOD_CONT_STATUS_ACTIVE_SUP_B) ∧
      (s.fwu.failed = true → ph u = 6 ∧ u.fwu = { s.fwu with failed := false, swapTick := s.tick } ∧
        u.bit F.MOD_CONT_STATUS_ACTIVE_SUP_B = !s.bit F.MOD_CONT_STATUS_ACTIVE_SUP_B)) ∧
    (ph s = 5 → busy = false → (s.tbRunning 0 = false ∨ s.tbLineNow 0 = true) → s.fld F.FWU_TRIAL_S_SECONDS ≠ 0 →
      ∃ u, exec .fwuSwapped s = .next u ∧ ph u = 6 ∧
        u.bit F.MOD_CONT_STATUS_ACTIVE_SUP_B = !s.bit F.MOD_CONT_STATUS_ACTIVE_SUP_B ∧
        u.word F.FWU_SWAPS_COUNT.key = satInc (s.word F.FWU_SWAPS_COUNT.key) ∧
        u.word F.FWU_ROLLBACKS_COUNT.key = (if s.fwu.rollback then satInc (s.word F.FWU_ROLLBACKS_COUNT.key)
          else s.word F.FWU_ROLLBACKS_COUNT.key) ∧ Rule.Words
          { s.tell 0x0503 s.activeItem with fwu := { s.fwu with swapTick := s.tick } } u
          [st, F.MOD_CONT_STATUS_ACTIVE_SUP_B.key, F.FWU_SWAPS_COUNT.key, F.FWU_ROLLBACKS_COUNT.key]) ∧
    (ph s = 6 → s.bit F.NVS_STATUS_PFW = false → s.fwu.swapTick + 100000000 * s.fld F.FWU_TRIAL_S_SECONDS ≤ s.tick →
      ∃ u, exec .trialEnd s = .next u ∧ ph u = 0 ∧ u.fwu.reboot = true ∧ Rule.Recorded u false true ∧ Rule.slots u = Rule.slots s ∧ u.bit F.FWU_STATUS_STANDBY_READY = false) ∧
    (s.bit F.MOD_STATUS_READY = true → ph s < 4 → s.bit F.FWU_STATUS_STANDBY_READY = false → busy = false →
      ∃ u, exec .standbyReady s = .next u ∧ u.bit F.FWU_STATUS_STANDBY_READY = true ∧
        (s.fwu.reboot = false → Rule.Words s u [st]) ∧
        (s.fwu.reboot = true → Rule.Words { s.tell 0x0504 s.activeItem with fwu := { s.fwu with reboot := false } } u [st])) ∧
    exec .supHeartbeat s = .next { s with cont := { s.cont with lastHb := s.tick } } ∧
    (s.tick < s.fwu.swapTick + 100000000 * s.fld F.FWU_TRIAL_S_SECONDS → exec .trialEnd s = .next s) ∧
    (busy = false → ph s = 4 → ∃ u, exec .supFailover s = .next u ∧
      Rule.Words { s with fwu := { s.fwu with failed := true } } u [F.MOD_CONT_STATUS_SUP_TAKEOVER.key] ∧
      u.bit F.MOD_CONT_STATUS_SUP_TAKEOVER = true ∧
      u.bit F.MOD_CONT_STATUS_ACTIVE_SUP_B = s.bit F.MOD_CONT_STATUS_ACTIVE_SUP_B) ∧
    (busy = false → ph s ≠ 4 → ∃ u, exec .supFailover s = .next u ∧
      u.bit F.MOD_CONT_STATUS_ACTIVE_SUP_B = !s.bit F.MOD_CONT_STATUS_ACTIVE_SUP_B ∧
      u.bit F.MOD_CONT_STATUS_SUP_TAKEOVER = true ∧ u.bit F.FWU_STATUS_STANDBY_READY = false ∧ u.tenants = s.tenants ∧
      (ph s = 5 → ph u = 6 ∧ u.fwu = { s.fwu with swapTick := s.tick }) ∧
      (ph s = 6 → ph u = 0 ∧ u.word F.FWU_ROLLBACKS_COUNT.key = satInc (s.word F.FWU_ROLLBACKS_COUNT.key) ∧ u.fwu.rejected = s.fwu.rejected ++ [(Rule.slots s).1] ∧ Rule.Recorded u false true) ∧
      (ph s < 4 → ph u = ph s ∧ Rule.Words (s.notify 0x0209 []) u [st, F.MOD_CONT_STATUS_SUP_TAKEOVER.key])) ∧
    (s.fwu.failed = true → exec .supTakeoverDone s = .next s) ∧
    (busy = true → s.fwu.failed = false → ∃ v : State, exec .supTakeoverDone s = .next v.release ∧ v.bit F.MOD_CONT_STATUS_SUP_TAKEOVER = false ∧
      v.cont.heldFailures = [] ∧ (s.cont.heldFailures = [] → Rule.Block s v [F.MOD_CONT_STATUS_SUP_TAKEOVER.key]))

/-- Commits (R59, R227, R349, R350, R364, R367, R369): the HOST-B key, of HOST-A alone, the calendar, a panel update, a
timebase and a sink's set swap, each with what refuses it. A set of the calendar applies at the LANTERN tick that follows.
The pages of the key, of the sequence series and of the panel's record are the model's choice (log entry 70). -/
def Obligations.Commits : Prop :=
  ∀ (src : BusSrc) (mask : BitVec 4) (d : Word) (n : Fin 4) (j : Fin 8),
    (∀ s s1, Rule.Arrives s s1 (.configWrite src 0x30C0#32 mask (setBits d 0 1 1)) → mask.getLsbD 0 = true →
      (Rule.master src = .hostA → ∃ u, exec (.keyCommit src mask d) s = .next u ∧
        u.gate = { s1.gate with
          key := leVec 256 ((List.range 8).flatMap fun k => leBytes 4 (s1.word (0x30A0 / 4 + k)))
          rxTop := 0, seqWindow := [], txSeq := 0 } ∧ u.bit F.GTE_KEY_CTRL_KEY_SET = true ∧
        (s1.bit F.NVS_STATUS_PFW = false → s1.nvs.waiting = [] → s1.nvs.queue.length + 2 ≤ 64 →
          u.nvs.queue.map (·.page) = s1.nvs.queue.map (·.page) ++ [36864, 36865] ∧ u.nvs.waiting = [])) ∧
      (Rule.master src ≠ .hostA → ∃ u, exec (.keyCommit src mask d) s = .next u ∧ Rule.Counted s1 u 0x3F00)) ∧
    Rule.Writes (.rtcCommit src mask d) src 0x5030 mask (setBits d 0 1 1) (fun _ => mask.getLsbD 0 = true) (fun s u =>
      let time := s.word F.RTC_SET_TIME_HUND.key
      let date := s.word F.RTC_SET_DATE_DAY.key
      (setValid time date = true → u.bit F.RTC_STATUS_VALID = true ∧
        Rule.Words { s with rtc := { s.rtc with set := some (time, date) } } u
          [F.RTC_STATUS_VALID.key, F.RTC_COMMITS_COUNT.key] ∧
        u.word F.RTC_COMMITS_COUNT.key = satInc (s.word F.RTC_COMMITS_COUNT.key)) ∧
      (setValid time date = false → u.bit F.RTC_STATUS_CAL_REJECT = true ∧
        Rule.Words s u [F.RTC_STATUS_CAL_REJECT.key, F.RTC_REJECTS_COUNT.key] ∧
        u.word F.RTC_REJECTS_COUNT.key = satInc (s.word F.RTC_REJECTS_COUNT.key))) ∧
    (∀ (s : State) time date, s.rtc.set = some (time, date) → s.power.charged = true →
      ∃ u, exec .rtcHundredth s = .next u ∧
        Rule.Words { s with rtc := { s.rtc with set := none } } u
          [F.RTC_TIME_HUND.key, F.RTC_DATE_DAY.key, F.RTC_STATUS_ALARM.key] ∧
        (setValid time date = true → u.word F.RTC_TIME_HUND.key = time ∧
          u.fld F.RTC_DATE_DAY = getBits date F.RTC_DATE_DAY.lo F.RTC_DATE_DAY.w ∧
          u.fld F.RTC_DATE_MONTH = getBits date F.RTC_DATE_MONTH.lo F.RTC_DATE_MONTH.w ∧
          u.fld F.RTC_DATE_YEAR = getBits date F.RTC_DATE_YEAR.lo F.RTC_DATE_YEAR.w ∧
          u.fld F.RTC_DATE_WDAY = (6 + (calendarOf time date).days) % 7)) ∧
    Rule.Writes (.panelUpdate src mask d) src 0x8020 mask (setBits d 0 1 1) (fun _ => mask.getLsbD 0 = true) (fun s u =>
      u.bit F.PNL_STATUS_PENDING = true ∧
      let busy := s.bit F.PNL_STATUS_BUSY || s.bit F.PNL_STATUS_RECOVERING || s.bit F.NVS_STATUS_PFW || s.panel.starting
      (busy = true → Rule.Words s u [F.PNL_STATUS_PENDING.key]) ∧
      (busy = false → u.panel = { s.panel with starting := true, ready := false } ∧
        (s.nvs.waiting = [] → s.nvs.queue.length < 64 → u.nvs.queue.map (·.page) = s.nvs.queue.map (·.page) ++ [36880]))) ∧
    Rule.Writes (.tbCommit src n mask d) src (0x1A034 + 0x20 * n.val) mask (setBits d 1 1 1)
      (fun s => mask.getLsbD 0 = true ∧ s.bit (F.TBS_TB_CTL_RUN n.val) = d.getLsbD 0) (fun s u =>
      let b := s.tbStaged n.val
      let code := Rule.first [(!decide (1500 ≤ b.lineTicks ∧ b.lineTicks ≤ 6400), 1),
        (!decide (200 ≤ b.lines ∧ b.lines ≤ 700), 2),
        (!decide (192 ≤ b.visLines ∧ b.visLines ≤ b.vblank ∧ b.vblank + 1 ≤ b.lines ∧ b.visLines ≤ 700), 3),
        (s.tenants.any fun x => x.2.fld F.TEN_CONT_STATE != 0 && x.2.fld F.TEN_GEOM_TB == n.val, 4)]
      (code = 0 → Rule.Words { s with tb := u.tb } u [(F.TBS_TB_CTL_RUN n.val).key] ∧ u.tbSet n.val = b ∧
        ∀ i, i ≠ n.val → u.tbSet i = s.tbSet i) ∧
      (code ≠ 0 → Rule.Words s u [(F.TBS_TB_CTL_RUN n.val).key, (F.TBS_TB_STAT_REJECT n.val).key] ∧
        u.bit (F.TBS_TB_STAT_REJECT n.val) = true ∧ u.fld (F.TBS_TB_STAT_REJECT_CODE n.val) = code.toNat)) ∧
    Rule.Writes (.sinkSwap src j mask d) src (0x1B100 + 0x100 * j.val) mask (setBits d 1 1 1)
      (fun _ => mask.getLsbD 0 = true) (fun s u =>
      Rule.Words s u [(F.PSH_SINK_CTRL_EN j.val).key] ∧ u.bit (F.PSH_SINK_CTRL_SWAP_PENDING j.val) = true ∧
        u.bit (F.PSH_SINK_CTRL_ACTIVE_B j.val) = s.bit (F.PSH_SINK_CTRL_ACTIVE_B j.val))

/-- Start and end of power (R383, R387, R388, R392 to R397, R403, R407): feeds, start-up, READY, PFW and the fall of the
supplies; a module wakes from DORMANT only with a feed, and the warning at 78 °C comes again at each rise to it. The
model's choices: what happens within one command of a start or a change of power state (log entries 54 and 119), and
that a start begins with both gate links up, LINK = 3 (log entry 55). -/
def Obligations.PowerEvents : Prop :=
  ∀ (b : Bool) (deg : Nat) (s : State),
    let feed (s : State) (b : Bool) : Bool := s.bit (if b then F.PWR_STATUS_FEED_B else F.PWR_STATUS_FEED_A)
    let chg := if b then F.PWR_STATUS_FEED_B_CHG else F.PWR_STATUS_FEED_A_CHG
    let inlet (s : State) (b v : Bool) : State :=
      { s with power := if b then { s.power with inletB := v } else { s.power with inletA := v } }
    let started (u : State) (cause domain : Nat) : Prop := u.power.mode = .start ∧ u.tenants.all (fun x =>
        x.2.fld F.TEN_CONT_STATE == 0) ∧ u.hbm = [] ∧ u.tick = 0 ∧ u.fld F.PWR_STATUS_STATE = 1 ∧
      u.fld F.PWR_LAST_START_CAUSE = cause ∧ u.fld F.PWR_LAST_START_DOMAIN = domain ∧ u.fld F.GTE_STATUS_LINK = 3 ∧
      u.bit F.CLK_STATUS_ALL_LOCKED = true ∧ (∀ e, e < 72 → u.bit (F.BNK_STATUS_CLEARING e) = true) ∧
      u.power.charged = true ∧ u.gate.waiting = []
    (s.power.mode = .on → feed s b = true → ∃ u, exec (.feedLost b) s = .next u ∧
      Rule.Words ((inlet s b false).tell 0x0601 b.toNat) u [F.PWR_STATUS_FEED_A.key, F.PWR_FEED_LOSSES_COUNT.key] ∧
      feed u b = false ∧ feed u !b = feed s !b ∧ u.bit chg = true ∧
      u.word F.PWR_FEED_LOSSES_COUNT.key = satInc (s.word F.PWR_FEED_LOSSES_COUNT.key)) ∧
    (s.power.mode = .on → s.power.tripped = false → feed s b = false → ∃ u, exec (.feedRestored b) s = .next u ∧
      Rule.Words ((inlet s b true).tell 0x0602 b.toNat) u [F.PWR_STATUS_FEED_A.key] ∧ feed u b = true ∧
      feed u !b = feed s !b ∧ u.bit chg = true) ∧
    (s.power.mode = .off → s.power.tripped = false → feed s b = false → s.Inv →
      ∃ u, exec (.feedRestored b) s = .next u ∧ started u 0 0 ∧ feed u b = true) ∧
    (s.power.mode = .off → s.power.tripped = false → feed s b = true → s.Inv →
      ∃ u, exec .powerOn s = .next u ∧ started u 0 0) ∧
    (s.power.mode = .off → s.power.tripped = false → feed s false = false → feed s true = false →
      exec .powerOn s = exec (.feedRestored false) s) ∧
    (s.power.mode = .dormant → s.recognised ≠ [] → feed s b = true → s.Inv → ∃ u, exec .lanternWake s = .next u ∧
      exec .powerOn s = .next u ∧ started u 1 0 ∧
      u.fld F.LAN_DORMANT_WAKES_COUNT = min 65535 (s.fld F.LAN_DORMANT_WAKES_COUNT + 1)) ∧
    (s.power.mode = .dormant → feed s false = false → feed s true = false →
      exec .lanternWake s = .next s ∧ exec .powerOn s = .next s) ∧
    (s.power.mode = .start → (∀ e, e < 72 → s.bit (F.BNK_STATUS_CLEAR_DONE e) = true) → s.fwu.abandoned = false →
      s.gate.waiting = [] → ∃ u, exec .ready s = .next u ∧
        Rule.Words ({ s with power := { s.power with mode := .on } }.tell 0x0603 2) u ([F.MOD_STATUS_READY.key,
          F.PWR_STATUS_STATE.key, F.MIQ_TH_TH_SUPA.key] ++ supSources.map fun n => (F.MIQ_SRC_PRIO n).key) ∧
        u.bit F.MOD_STATUS_READY = true ∧ u.fld F.PWR_STATUS_STATE = 2) ∧
    (s.power.mode = .on → feed s false = false → feed s true = false → s.bit F.PWR_STATUS_PFW = false →
      ∃ u, exec .pfw s = .next u ∧ u.bit F.PWR_STATUS_PFW = true ∧ u.bit F.NVS_STATUS_PFW = true ∧
        u.word F.PWR_PFW_COUNT_COUNT.key = satInc (s.word F.PWR_PFW_COUNT_COUNT.key) ∧
        let ph := s.fld F.FWU_STATUS_PHASE
        let told := ((s.setBit F.PWR_STATUS_PFW true).setBit F.NVS_STATUS_PFW true).notify 0x0403 []
        let back := (ph = 4 ∨ ph = 5) ∧ s.fwu.confirmed = false ∧ s.fwu.failed = false
        (1 ≤ ph → ph ≤ 3 → u.fld F.FWU_STATUS_PHASE = 0) ∧
        (¬back → Rule.Words told u [F.PWR_STATUS_PFW.key, F.NVS_STATUS_PFW.key, F.PWR_PFW_COUNT_COUNT.key,
          F.FWU_STATUS_PHASE.key]) ∧
        (back → u.fld F.FWU_STATUS_PHASE = 0 ∧ Rule.Recorded u false true ∧
          let (x, y, z) := Rule.slots s
          Rule.slots u = if s.fwu.rollback then (y, x, z) else (y, z, x))) ∧
    (s.bit F.PWR_STATUS_PFW = true → feed s b = true → ∃ v : State, exec .pfwCleared s = .next v.release ∧
      v.bit F.PWR_STATUS_PFW = false ∧ v.bit F.NVS_STATUS_PFW = false ∧ v.tenants = s.tenants ∧
      (s.nvs.queue ++ s.nvs.waiting.take (64 - s.nvs.queue.length)) <+: v.nvs.queue) ∧
    (s.power.mode = .on → feed s false = false → feed s true = false →
      ∃ u, exec .supplyFall s = .next u ∧ u.power = { s.power with mode := .off } ∧ u.tenants = [] ∧ u.hbm = [] ∧
        u.nvs.queue = [] ∧ u.panel.mixed = (s.panel.mixed || s.bit F.PNL_STATUS_BUSY)) ∧
    (s.power.mode = .off ∨ s.power.mode = .dormant → feed s false = false → feed s true = false → ∃ u, exec .alwaysOnLoss s = .next u ∧
      (s.Inv → ∀ a, u.word a = blend (cageBits a) (s.word a) (moduleRst a)) ∧ u.rtc = Rtc.reset ∧
      u.power = { s.power with mode := .off, charged := false, wakeDrive := 0 } ∧ u.tenants = [] ∧
      u.nvs.pages = s.nvs.pages) ∧
    (s.fld F.PWR_STATUS_STATE = 3 → (∀ x ∈ s.tenants, x.2.move = none ∧ x.2.waitPromotion = false ∧
      x.2.fld F.TEN_CONT_STATE ∉ [2, 5]) → ∃ u, exec .parkComplete s = .next u ∧ u.fld F.PWR_STATUS_STATE = 4 ∧
        u.tenants = s.tenants ∧ (∀ e, e < 72 → s.estate e = 0 → u.estate e = 6 ∧ u.bit (F.BNK_STATUS_RETAINED e) = true)) ∧
    (s.power.mode = .on → deg = 78 ∨ (78 ≤ s.power.warned ∧ deg = s.power.warned + 2) → exec (.temperatureWarning deg) s = .next
      ({ s with power := { s.power with warned := deg } }.toHosts (.log Config.warnSeverity (BitVec.ofNat 64 s.tick) deg))) ∧
    (s.power.mode = .on → s.power.tripped = false → ∃ u, exec .temperatureTrip s = .next u ∧
      u.power = { s.power with tripped := true } ∧ feed u false = false ∧ feed u true = false ∧ u.tenants = s.tenants ∧
      (feed s b = true → u.bit chg = true)) ∧
    (s.power.mode = .on → s.power.tripped = true → ∃ u, exec .temperatureRecover s = .next u ∧
      u.power = { s.power with tripped := false } ∧ feed u false = (feed s false || s.power.inletA) ∧
      feed u true = (feed s true || s.power.inletB) ∧ u.tenants = s.tenants ∧
      (feed s b = false → s.inlet b = true → u.bit chg = true))

namespace Sys2Proof.Rule

open Sys2Proof.Machine

/-- Timer `n` alone changes among the module timers, and no register but those at `ks`. -/
def Timer (s u : State) (n : Nat) (ks : List Nat) : Prop :=
  Words { s with mt := u.mt } u ks ∧ ∀ i, i ≠ n → u.mtm i = s.mtm i

/-- Channel `j` of PIO engine `n` alone changes among the PIO channels. -/
def Channel (s u : State) (n j : Nat) : Prop := ∀ i k, i < 4 → k < 32 → (i, k) ≠ (n, j) → u.pioCh i k = s.pioCh i k

/-- A 48-bit value from a low word and the low half of a high one. -/
def value48 (lo hi : Word) : BitVec 48 := hi.extractLsb' 0 16 ++ lo

/-- Whether channel `j` of PIO engine `n` has its RUN bit set. -/
def runs (s : State) (n j : Nat) : Bool := (s.word (F.PIO_RUN_RUN n).key).getLsbD j

/-- The write of `d` to a group register of PIO engine `n` (R336): for the selected channels `act` waits for the next
rotation, at whose clock 0 each of them alone changes as `post` says; nothing else changes before. -/
def Group (i : Instr) (src : BusSrc) (a : Nat) (mask : BitVec 4) (d : Word) (n : Nat) (act : Nat → PioAct)
    (post : State → State → Nat → Prop) : Prop :=
  Writes i src a mask d (fun _ => True) fun s u =>
    let js := (List.range 32).filter fun j => (byteMask mask &&& d).getLsbD j
    Words { s with pins := { s.pins with acts := s.pins.acts ++ js.map act } } u [] ∧
    (s.pins.acts = [] → ∀ r, s.rotation < r → ∀ j, j < 32 →
      let v := u.newRotation r
      if j ∈ js then post s v j
      else runs v n j = runs s n j ∧ ∃ w, v.pioCh n j = { s.pioCh n j with wait := w })

/-- The prescaler of channel `j` of PIO engine `n` has a tick for its next instruction `w`, with the code `op`, which is
valid (R333, R334): the state becomes `s1`, and command `i` goes on from there to `u` with `post`, in which no other
channel changes. -/
def Pio (n : Fin 4) (j : Fin 32) (op : Nat) (i : Instr) (post : State → Nat → State → Prop) : Prop :=
  ∀ s s1, s.pioTick n j = some s1 → ifld (s1.pioInstr n j) 12 4 = op → pioBad (s1.pioInstr n j) (s1.pioLen n j) = false →
    ∃ u, exec i s = .next u ∧ Channel s1 u n j ∧ post s1 (s1.pioInstr n j) u

/-- The channel goes on at the offset `off`, and its data are `c`. -/
def goes (s u : State) (n j off : Nat) (c : PioCh) : Prop :=
  u.fld (F.PIO_PC_OFFSET n j) = off % s.pioLen n j % 32 ∧ u.bit (F.PIO_PC_WAITING n j) = false ∧
    u.pioCh n j = { c with wait := .none }

/-- The channel stays at its instruction and waits as `w` says. -/
def stays (s u : State) (n j : Nat) (w : PioWait) : Prop :=
  u.fld (F.PIO_PC_OFFSET n j) = s.fld (F.PIO_PC_OFFSET n j) ∧ u.bit (F.PIO_PC_WAITING n j) = true ∧
    u.pioCh n j = { s.pioCh n j with wait := w }

/-- The lanes that a SET or OUT gives: their levels or directions under a mask, those before it staying in the rotation
in progress (R332). -/
def lanes (s : State) (c : PioCh) (dirs : Bool) (m v : Nat) : PioCh :=
  let k : BitVec 4 := BitVec.ofNat 4 m
  let mix (old : BitVec 4) : BitVec 4 := (old &&& ~~~k) ||| (BitVec.ofNat 4 v &&& k)
  let fresh := decide (c.rot < s.rotation)
  { c with
    lanes := if dirs then c.lanes else mix c.lanes, dirs := if dirs then mix c.dirs else c.dirs
    oldLanes := if fresh then c.lanes else c.oldLanes, oldDirs := if fresh then c.dirs else c.oldDirs, rot := s.rotation }

end Sys2Proof.Rule

/-- Writes to module timers and PIO engines (R317, R319, R335, R336): RESTART returns a timer to 0; a LO half is held
and a HI half forms the value, in use at once while the timer is disabled, when what is pending of other registers stays
so, and pending otherwise; the group registers start, stop and restart the selected channels alone; TXF and RXF are the
ends of two FIFOs of four words. -/
def Obligations.TimerAndPioWrites : Prop :=
  ∀ (src : BusSrc) (i j : Fin 8) (n : Fin 4) (k : Fin 32) (ph : Bool) (mask : BitVec 4) (d : Word),
    Rule.Writes (.mtRestart src i mask d) src (0xA008 + 0x1000 * i.val) mask (setBits d 6 1 1)
      (fun _ => mask.getLsbD 0 = true ∧ getBits d 4 2 = 0) (fun s u =>
      Rule.Timer s u i [(F.MTM_EN i).key] ∧ (u.mtm i).count = 0 ∧ (u.mtm i).acc = 0 ∧ (u.mtm i).owed = 0 ∧
        (u.mtm i).upTo = s.tick) ∧
    Rule.Writes (.halfWrite src (BitVec.ofNat 32 (0xA024 + 0x1000 * i.val)) mask d) src (0xA024 + 0x1000 * i.val) mask d
      (fun _ => mask = 0xF) (fun s u => Rule.Timer s u i [] ∧ u.mtm i = { s.mtm i with periodLo := some d }) ∧
    Rule.Writes (.halfWrite src (BitVec.ofNat 32 (0xA028 + 0x1000 * i.val)) mask d) src (0xA028 + 0x1000 * i.val) mask d
      (fun _ => mask = 0xF) (fun s u =>
      let v := Rule.value48 ((s.mtm i).periodLo.getD (s.word (F.MTM_PERIOD_LO_PERIOD i).key)) d
      (s.bit (F.MTM_EN i) = true → Rule.Timer s u i [] ∧ u.mtm i = { s.mtm i with periodLo := none, period := some v }) ∧
      (s.bit (F.MTM_EN i) = false → Rule.Timer s u i [(F.MTM_PERIOD_LO_PERIOD i).key, (F.MTM_PERIOD_HI_PERIOD i).key] ∧
        u.mtPeriod i = v.toNat ∧ u.mtm i = { s.mtm i with periodLo := none, period := none })) ∧
    Rule.Writes (.halfWrite src (BitVec.ofNat 32 (0xA120 + 8 * ph.toNat + 0x1000 * i.val + 0x40 * j.val)) mask d) src
      (0xA120 + 8 * ph.toNat + 0x1000 * i.val + 0x40 * j.val) mask d (fun _ => mask = 0xF) (fun s u =>
      Rule.Timer s u i [] ∧ ((u.mtm i).chan j) = if ph then { (s.mtm i).chan j with phaseLo := some d }
        else { (s.mtm i).chan j with dutyLo := some d }) ∧
    Rule.Writes (.halfWrite src (BitVec.ofNat 32 (0xA124 + 8 * ph.toNat + 0x1000 * i.val + 0x40 * j.val)) mask d) src
      (0xA124 + 8 * ph.toNat + 0x1000 * i.val + 0x40 * j.val) mask d (fun _ => mask = 0xF) (fun s u =>
      let c := (s.mtm i).chan j
      let lo := if ph then F.MTM_PHASE_LO_PHASE i j else F.MTM_DUTY_LO_DUTY i j
      let hi := if ph then F.MTM_PHASE_HI_PHASE i j else F.MTM_DUTY_HI_DUTY i j
      let v := Rule.value48 ((if ph then c.phaseLo else c.dutyLo).getD (s.word lo.key)) d
      (s.bit (F.MTM_EN i) = true → Rule.Timer s u i [] ∧ ((u.mtm i).chan j) = if ph then
        { c with phaseLo := none, phase := some v } else { c with dutyLo := none, duty := some v }) ∧
      (s.bit (F.MTM_EN i) = false → Rule.Timer s u i [lo.key, hi.key] ∧ u.halves lo hi = v.toNat ∧
        (u.mtm i).period = (s.mtm i).period ∧ (∀ x, x ≠ j.val → (u.mtm i).chan x = (s.mtm i).chan x) ∧
        (u.mtm i).chan j = if ph then { c with phaseLo := none, phase := none } else { c with dutyLo := none, duty := none })) ∧
    Rule.Group (.groupStart src n mask d) src (0x16020 + 0x1000 * n.val) mask d n (.start n) (fun s v j =>
      Rule.runs v n j = true ∧ v.pioCh n j = { s.pioCh n j with
        acc := 0, owed := 0, turns := max (s.pioCh n j).turns (s.rotation + 1), txs := 0, rxs := 0, wait := .none } ∧
      v.fld (F.PIO_PC_OFFSET n j) = 0 ∧ v.fld (F.PIO_K0_COUNT n j) = 0 ∧ v.fld (F.PIO_K1_COUNT n j) = 0 ∧
      v.fld (F.PIO_SHIFT_TX_COUNT n j) = 0 ∧ v.fld (F.PIO_SHIFT_RX_COUNT n j) = 0) ∧
    Rule.Group (.groupStop src n mask d) src (0x16024 + 0x1000 * n.val) mask d n (.stop n) (fun s v j =>
      Rule.runs v n j = false ∧ ∃ a o w, v.pioCh n j = { s.pioCh n j with
        acc := a, owed := o, turns := max (s.pioCh n j).turns (s.rotation + 1), wait := w }) ∧
    Rule.Group (.clkRestart src n mask d) src (0x16028 + 0x1000 * n.val) mask d n (.restart n) (fun s v j =>
      Rule.runs v n j = Rule.runs s n j ∧ ∃ o w, v.pioCh n j = { s.pioCh n j with
        acc := 0, owed := o, turns := max (s.pioCh n j).turns (s.rotation + 1), wait := w }) ∧
    Rule.Writes (.txf src n k mask d) src (0x16908 + 0x1000 * n.val + 0x30 * k.val) mask d (fun _ => mask ≠ 0) (fun s u =>
      let c := s.pioCh n k
      (c.tx.length < 4 → Rule.Words { s with pio := u.pio } u [] ∧ Rule.Channel s u n k ∧
        u.pioCh n k = { c with tx := c.tx ++ [(d &&& byteMask mask, s.rotation)] }) ∧
      (4 ≤ c.tx.length → u.pio = s.pio ∧ u.bit (F.PIO_FLAGS_TX_OVF n k) = true)) ∧
    ∀ s s1, let a := 0x1690C + 0x1000 * n.val + 0x30 * k.val
      Rule.Arrives s s1 (.configRead src (BitVec.ofNat 32 a)) →
      let answer (v : State) (w : Word) : State := match src with
        | .sup _ => v
        | .gate m => v.reply m true 0 w
      let c := s1.pioCh n k
      (∀ w r, c.rx = w :: r → ∃ v, exec (.rxf src n k) s = .next (answer v w) ∧ Rule.Words { s1 with pio := v.pio } v [] ∧
        Rule.Channel s1 v n k ∧ v.pioCh n k = { c with rx := r }) ∧
      (c.rx = [] → ∃ v, exec (.rxf src n k) s = .next (answer v 0) ∧ Rule.Words s1 v [(F.PIO_FLAGS_RX_EMPTY n k).key] ∧
        v.bit (F.PIO_FLAGS_RX_EMPTY n k) = true)

/-- Writes to station entries and to the module's words of a tenant page (R170, R194, R198, R200, R206, R207, R361): EN
set enables an entry unless R207 refuses it, EN cleared discards what the entry has in hand, FORCE_RESYNC asks for a
full frame; OVL_CTRL.COMMIT marks the overlay set for the next frame, after a reset in progress (R36), SAV.ERASE zeroes
the save RAM and its pages. -/
def Obligations.EntryAndTenantWrites : Prop :=
  ∀ (src : BusSrc) (e : Ent) (k : Tn) (mask : BitVec 4) (d : Word),
    let key := (F.STN_ENT_CTRL_EN (e.val / 64) (e.val % 64)).key
    Rule.Writes (.entryEnable src e mask d) src (entCtrl e) mask (setBits d 0 1 1)
      (fun s => mask = 0xF ∧ s.ebit F.STN_ENT_CTRL_EN e = false ∧ d.getLsbD 8 = false) (fun s u =>
      let w := blend 0x03FF00F7 (setBits d 0 1 1) (s.word key)
      if s.enRefused e w then Rule.Words s u [(F.STN_ENT_REJECT_COUNT (e.val / 64)).key] ∧
        u.word (F.STN_ENT_REJECT_COUNT (e.val / 64)).key = satInc (s.word (F.STN_ENT_REJECT_COUNT (e.val / 64)).key)
      else u.word key = w ∧ u.efld F.STN_STATE_STATE e = 1 ∧ u.ebit F.STN_PORTS_ACTIVE_B e = false ∧
        u.entry e = { s.entry e with clean := [], frames := [], fullReq := false, heard := false, late := none
                                     linkBad := 0, other := false } ∧ u.tenants = s.tenants ∧
        ∀ x, x ≠ e.val → u.entry x = s.entry x) ∧
    Rule.Writes (.entryDisable src e mask d) src (entCtrl e) mask (setBits d 0 1 0)
      (fun s => mask = 0xF ∧ s.ebit F.STN_ENT_CTRL_EN e = true) (fun s u =>
      let gone (m : RspMsg) : Bool := m.ent != e.val
      u.ebit F.STN_ENT_CTRL_EN e = false ∧ u.efld F.STN_STATE_STATE e = 0 ∧ u.push = s.push.filter (fun i => i.ent != e.val) ∧
      (∀ p, p < 16 → (u.port p).audio = (s.port p).audio.filter gone ∧ (u.port p).queue = (s.port p).queue.filter gone) ∧
      (u.entry e).frames = [] ∧ ∀ r ∈ (u.tenant (s.efld F.STN_ENT_CTRL_TENANT e)).reports, r.ent ≠ e.val) ∧
    Rule.Writes (.forceResync src e mask d) src (entCtrl e) mask (setBits d 8 1 1)
      (fun s => mask = 0xF ∧ s.ebit F.STN_ENT_CTRL_EN e = true ∧ d.getLsbD 0 = true) (fun s u =>
      u.ebit F.STN_STATE_FULL_PENDING e = true ∧
        u.word F.PSH_RESYNC_REQS_COUNT.key = satInc (s.word F.PSH_RESYNC_REQS_COUNT.key) ∧
        (s.ebit F.STN_STATE_FULL_PENDING e = false → (u.entry e).fullReq = true ∧ (u.entry e).clean = [])) ∧
    Rule.Writes (.overlayCommit src k mask d) src (0x1000200 + 0x10000 * k.val) mask (setBits d 24 1 1)
      (fun _ => mask = 0xF) (fun s u => Rule.Words { s with tenants := u.tenants } u [] ∧ Rule.Others s u k ∧
        let waits := (s.tenant k).fld F.TEN_CONT_STATE = 5 ∨ (s.tenant k).resetWait = true
        (waits → u.tenant k = { s.tenant k with
          afterReset := (s.tenant k).afterReset ++ [(F.TEN_OVL_CTRL_RESERVE.key, 0xFFFFFFFF, setBits d 24 1 1)] }) ∧
        (¬waits →
        (u.tenant k).core = (s.tenant k).core ∧ (u.tenant k).bit F.TEN_OVL_CTRL_PENDING = true ∧
        (u.tenant k).fld F.TEN_OVL_CTRL_BATCH = getBits d 16 8 ∧ (u.tenant k).compo.batch = BitVec.ofNat 8 (getBits d 16 8) ∧
        (u.tenant k).bit F.TEN_OVL_CTRL_RESERVE = d.getLsbD 0 ∧ (u.tenant k).fld F.TEN_OVL_CTRL_ORDER = getBits d 8 8)) ∧
    Rule.Writes (.erase src k mask d) src (0x100D0A0 + 0x10000 * k.val) mask (setBits d 0 1 1)
      (fun _ => mask.getLsbD 0 = true) (fun s u =>
      let t := s.tenant k
      (t.fld F.TEN_CONT_STATE ≤ 1 → Rule.Others s u k ∧
        (∀ a, memGet (u.tenant k).core.mem a = if 0x10000 ≤ a ∧ a < 0x12000 then 0 else memGet t.core.mem a) ∧
        (s.bit F.NVS_STATUS_PFW = false → s.nvs.waiting = [] → s.nvs.queue.length + 32 ≤ 64 →
          u.nvs.queue = s.nvs.queue ++ (List.range 32).map fun p => ⟨32 * k.val + p, [], .erase k⟩)) ∧
      (2 ≤ t.fld F.TEN_CONT_STATE → ∃ x, Rule.Words (s.setTenant k x) u [] ∧ Rule.Now t x t.core [0xDF00 / 4] ∧
        x.word (0xDF00 / 4) = satInc (t.word (0xDF00 / 4))))

/-- Module timers, line starts and pins (R57, R310, R311, R317 to R322, R329): a tick of the prescaler counts or returns
to 0, when pending values come into use; captures, of the count at the tick at which the edge is accepted, and overruns;
the cycle flag of a compare channel; edges of pins set their flags as their mode says. The model's choices: a CAPTURE
command moves the clock to the tick at which the edge is accepted, and EDGE 3 of channel 7 of MT0 selects rising edges
where SRC is 8 (log entry 110). -/
def Obligations.ModuleTimers : Prop :=
  ∀ (i j : Fin 8) (n : Fin 4) (level : Bool) (venue : Option Bool) (p : Fin 128) (at_ : Nat) (s : State),
    let m := s.mtm i
    let c := m.chan j
    let b := s.advance at_
    let div (s : State) (x : Nat) := max 256 (256 * s.fld (F.MTM_CLK_N x) + s.fld (F.MTM_CLK_F x))
    let src := s.fld (F.MTM_CLK_SRC i)
    let turn := prescale (div s i) m.acc (clockEvents src s.tick - clockEvents src m.upTo)
    let event (s : State) (x : Nat) (m : Mt) : Mt :=
      let t := prescale (div s x) m.acc 1
      if s.bit (F.MTM_EN x) then { m with acc := t.1, owed := m.owed + t.2 } else m
    (s.bit (F.MTM_EN i) = true → 0 < m.owed + turn.2 →
      (m.count.toNat < s.mtPeriod i → ∃ u, exec (.prescalerTick (.module i)) s = .next u ∧ Rule.Timer s u i [] ∧
        (u.mtm i).count = m.count + 1 ∧ (u.mtm i).acc = turn.1 ∧ (u.mtm i).owed = m.owed + turn.2 - 1 ∧
        (u.mtm i).upTo = s.tick ∧ (u.mtm i).period = m.period) ∧
      (s.mtPeriod i ≤ m.count.toNat → ∃ u, exec (.mtReturnToZero i) s = .next u ∧ (∀ x, x ≠ i.val → u.mtm x = s.mtm x) ∧
        (u.mtm i).count = 0 ∧ (u.mtm i).acc = turn.1 ∧ (u.mtm i).owed = m.owed + turn.2 - 1 ∧ (u.mtm i).period = none ∧
        u.mtPeriod i = (m.period.map BitVec.toNat).getD (s.mtPeriod i) ∧
        (∀ j, j < 8 → u.halves (F.MTM_DUTY_LO_DUTY i j) (F.MTM_DUTY_HI_DUTY i j)
            = ((m.chan j).duty.map BitVec.toNat).getD (s.halves (F.MTM_DUTY_LO_DUTY i j) (F.MTM_DUTY_HI_DUTY i j)) ∧
          ((u.mtm i).chan j).duty = none ∧ ((u.mtm i).chan j).phase = none))) ∧
    (s.bit (F.MTM_EN i) = true → m.count.toNat + (m.owed + turn.2) ≤ s.mtPeriod i →
      (s.mtCount i).toNat = m.count.toNat + (m.owed + turn.2)) ∧
    (s.tick ≤ at_ → b.tbLineNow n = true → ∃ u, exec (.tbLineStart n at_) s = .next u ∧ u.tick = at_ ∧
      u.regs = b.regs ∧ u.tenants = s.tenants ∧
      ∀ x, x < 8 → u.mtm x = if b.fld (F.MTM_CLK_SRC x) = 4 + n.val then event b x (s.mtm x) else s.mtm x) ∧
    (let b := s.advance (s.captureTick i j);
      b.fld (F.MTM_CH_CTRL_MODE i j) = 1 → c.level ≠ level → b.captureIn i j = level → b.filtered i j = true →
      let edge := b.fld (F.MTM_CH_CTRL_EDGE i j)
      let cap := b.bit (F.MTM_FLAGS_CAP i j)
      let full := b.fld (F.MTM_CH_CTRL_PRESC i j) < c.edges + 1
      let input := j = 7 ∧ b.fld (F.MTM_CLK_SRC i) = 8
      let paired := i = 0 ∧ edge = 3 ∧ ¬input
      ∃ u, exec (.capture i j level) s = .next u ∧ ((u.mtm i).chan j).level = level ∧ u.tenants = s.tenants ∧
        (¬paired → (edge = 1 ∧ level = true) ∨ (edge ≠ 1 ∧ edge ≠ 2 ∧ level = false) →
          Rule.Timer b u i []) ∧
        (¬paired → (edge = 1 ∧ level = false) ∨ edge = 2 ∨ (edge ≠ 1 ∧ level = true) →
          (¬full → ((u.mtm i).chan j).edges = c.edges + 1 ∧ Rule.Timer b u i []) ∧
          (full → input → Rule.Timer b u i [] ∧
            ((u.mtm i).chan j).edges = 0 ∧ (u.mtm i).acc = (event b i m).acc ∧ (u.mtm i).owed = (event b i m).owed) ∧
          (full → ¬input → ((u.mtm i).chan j).edges = 0 ∧
            u.halves (F.MTM_CAP_LO_CAP i j) (F.MTM_CAP_HI_CAP i j) = (b.mtCount i).toNat ∧
            u.bit (F.MTM_FLAGS_CAP i j) = true ∧ u.bit (F.MTM_FLAGS_OVR i j) = (cap || b.bit (F.MTM_FLAGS_OVR i j)) ∧
            u.word (F.MTM_CAPTURES_COUNT i).key = satInc (b.word (F.MTM_CAPTURES_COUNT i).key) ∧
            u.word (F.MTM_OVERRUNS_COUNT i).key = (if cap then satInc (b.word (F.MTM_OVERRUNS_COUNT i).key)
              else b.word (F.MTM_OVERRUNS_COUNT i).key))) ∧
        (paired → level = true → ¬full → ((u.mtm i).chan j).edges = c.edges + 1 ∧ Rule.Timer b u i []) ∧
        (paired → level = true → full →
          u.halves (F.MTM_CAP_LO_CAP i j) (F.MTM_CAP_HI_CAP i j) = (b.mtCount i).toNat ∧ ((u.mtm i).chan j).rise = true) ∧
        (paired → level = false → c.rise = false → Rule.Timer b u i []) ∧
        (paired → level = false → c.rise = true → (b.mtCount i).toNat ≤ b.mtPeriod i →
          b.halves (F.MTM_CAP_LO_CAP i j) (F.MTM_CAP_HI_CAP i j) ≤ b.mtPeriod i →
          let now := (b.mtCount i).toNat
          let rise := b.halves (F.MTM_CAP_LO_CAP i j) (F.MTM_CAP_HI_CAP i j)
          u.halves (F.MTM_FALL_LO_FALL i j) (F.MTM_FALL_HI_FALL i j) = now ∧
          u.halves (F.MTM_WIDTH_LO_WIDTH i j) (F.MTM_WIDTH_HI_WIDTH i j)
            = (if rise ≤ now then now - rise else now + b.mtPeriod i + 1 - rise) ∧
          u.bit (F.MTM_FLAGS_CAP i j) = true)) ∧
    (c.cyc = true → s.bit (F.MTM_EN i) = true → ∃ u, exec (.compareCycle i j) s = .next u ∧
      Rule.Timer s u i [(F.MTM_FLAGS_CYC i j).key] ∧ u.bit (F.MTM_FLAGS_CYC i j) = true ∧ ((u.mtm i).chan j).cyc = false) ∧
    let v : Bool := match s.pinDrive p, venue with
      | some d, _ => d
      | none, some x => x
      | none, none => (s.pinPull p).getD (Config.pinFloat p s.tick)
    ∃ u, exec (.pinEdge p venue) s = .next u ∧ u.pins.seen.getLsbD p = v ∧ u.pins.loose.getLsbD p = venue.isNone ∧
      u.pins.venue.getLsbD p = venue.getD false ∧
      (∀ x, x ≠ p.val → u.pins.venue.getLsbD x = s.pins.venue.getLsbD x ∧ u.pins.loose.getLsbD x = s.pins.loose.getLsbD x ∧
        u.pins.seen.getLsbD x = s.pins.seen.getLsbD x) ∧
      let irq := s.pinFld F.FIO_PINCFG_IRQ p
      let flag : Fld := ⟨(F.FIO_IRQ_FLAG_FLAG (p.val / 32)).key, p.val % 32, 1⟩
      let hit := s.pins.seen.getLsbD p ≠ v ∧ s.bit (F.FIO_EN (p.val / 32)) = true ∧
        ((irq = 3 ∧ v = true) ∨ (irq = 4 ∧ v = false) ∨ irq = 5)
      (hit → u.bit flag = true ∧
        u.word (F.FIO_EDGES_COUNT (p.val / 32)).key = satInc (s.word (F.FIO_EDGES_COUNT (p.val / 32)).key)) ∧
      (¬hit → u.regs = s.regs)

/-- The instructions of the PIO micro-engines (R332, R334, R335): each on a tick of its channel's prescaler. -/
def Obligations.PioInstructions : Prop :=
  ∀ (n : Fin 4) (j : Fin 32),
    let next (s u : State) (c : PioCh) : Prop := Rule.goes s u n j (s.fld (F.PIO_PC_OFFSET n j) + 1) c
    let k0 (s : State) := s.fld (F.PIO_K0_COUNT n j)
    let k1 (s : State) := s.fld (F.PIO_K1_COUNT n j)
    let txc (s : State) := s.fld (F.PIO_SHIFT_TX_COUNT n j)
    let rxc (s : State) := s.fld (F.PIO_SHIFT_RX_COUNT n j)
    let same (s u : State) : Prop := k0 u = k0 s ∧ k1 u = k1 s ∧ txc u = txc s ∧ rxc u = rxc s
    let bits (w : Nat) : Nat := if w % 32 = 0 then 32 else w % 32
    let sample (s : State) : Nat := (s.laneSample n j 0).toNat + 2 * (s.laneSample n j 1).toNat
      + 4 * (s.laneSample n j 2).toNat + 8 * (s.laneSample n j 3).toNat
    Rule.Pio n j 0 (.pioDelay n j) (fun s w u => same s u ∧
      let left := match (s.pioCh n j).wait with
        | .delay x => x
        | _ => w % 1024 + 1
      (left ≤ 1 → next s u (s.pioCh n j)) ∧ (1 < left → Rule.stays s u n j (.delay (left - 1)))) ∧
    Rule.Pio n j 1 (.pioSet n j) (fun s w u => txc u = txc s ∧ rxc u = rxc s ∧
      match w / 1024 % 4 with
      | 0 => next s u (Rule.lanes s (s.pioCh n j) false (w / 16 % 16) (w % 16)) ∧ same s u
      | 1 => next s u (Rule.lanes s (s.pioCh n j) true (w / 16 % 16) (w % 16)) ∧ same s u
      | 2 => next s u (s.pioCh n j) ∧ k0 u = w % 1024 ∧ k1 u = k1 s
      | _ => next s u (s.pioCh n j) ∧ k1 u = w % 1024 ∧ k0 u = k0 s) ∧
    Rule.Pio n j 2 (.pioOut n j) (fun s w u => k1 u = k1 s ∧ rxc u = rxc s ∧ txc u = txc s - bits w ∧
      let c := { s.pioCh n j with txs := (s.pioCh n j).txs >>> bits w }
      let v := (s.pioCh n j).txs.toNat % 2 ^ bits w
      let m := 2 ^ min (bits w) 4 - 1
      match w / 1024 % 4 with
      | 0 => next s u (Rule.lanes s c false m v) ∧ k0 u = k0 s
      | 1 => next s u (Rule.lanes s c true m v) ∧ k0 u = k0 s
      | 2 => next s u c ∧ k0 u = v % 65536
      | _ => next s u c ∧ k0 u = k0 s) ∧
    Rule.Pio n j 3 (.pioIn n j) (fun s w u => k0 u = k0 s ∧ k1 u = k1 s ∧ txc u = txc s ∧ rxc u = min 32 (rxc s + bits w) ∧
      let v := match w / 1024 % 4 with
        | 0 => sample s
        | 1 => k0 s
        | 2 => k1 s
        | _ => 0
      next s u { s.pioCh n j with
        rxs := ((s.pioCh n j).rxs >>> bits w) ||| BitVec.ofNat 32 (v % 2 ^ bits w * 2 ^ (32 - bits w)) }) ∧
    Rule.Pio n j 4 (.pioWait n j) (fun s w u => same s u ∧
      match w / 1024 % 4 with
      | 0 => if s.laneSample n j (w % 4) = false then next s u (s.pioCh n j) else Rule.stays s u n j .stall
      | 1 => if s.laneSample n j (w % 4) = true then next s u (s.pioCh n j) else Rule.stays s u n j .stall
      | x => if (s.pioCh n j).wait = .edge true ∨ s.laneEdge n j (w % 4) (x == 2) = true then next s u (s.pioCh n j)
        else Rule.stays s u n j (.edge false)) ∧
    Rule.Pio n j 5 (.pioJmp n j) (fun s w u => txc u = txc s ∧ rxc u = rxc s ∧
      k0 u = (if w / 512 % 8 = 1 then (k0 s + 65535) % 65536 else k0 s) ∧
      k1 u = (if w / 512 % 8 = 2 then (k1 s + 65535) % 65536 else k1 s) ∧
      let taken := match w / 512 % 8 with
        | 0 => true
        | 1 => k0 u != 0
        | 2 => k1 u != 0
        | 3 => s.laneSample n j (w / 32 % 4)
        | 4 => !s.laneSample n j (w / 32 % 4)
        | 5 => txc s == 0
        | 6 => !(s.pioCh n j).tx.isEmpty
        | _ => k0 s == k1 s
      if taken then Rule.goes s u n j (w % 32) (s.pioCh n j) else next s u (s.pioCh n j)) ∧
    Rule.Pio n j 6 (.pioPull n j) (fun s w u => k0 u = k0 s ∧ k1 u = k1 s ∧ rxc u = rxc s ∧
      let c := s.pioCh n j
      let old := c.tx.filter fun x => x.2 < s.rotation
      (∀ x r, old = x :: r → next s u { c with txs := x.1, last := x.1, tx := c.tx.drop 1 } ∧ txc u = 32) ∧
      (old = [] → w / 2048 % 2 = 0 → Rule.stays s u n j .stall ∧ txc u = txc s) ∧
      (old = [] → w / 2048 % 2 = 1 → next s u { c with txs := c.last } ∧ txc u = 32 ∧
        u.bit (F.PIO_FLAGS_STALE n j) = true ∧
        u.word (F.PIO_STALE_PULLS_COUNT n).key = satInc (s.word (F.PIO_STALE_PULLS_COUNT n).key))) ∧
    Rule.Pio n j 7 (.pioPush n j) (fun s w u => k0 u = k0 s ∧ k1 u = k1 s ∧ txc u = txc s ∧
      let c := s.pioCh n j
      (c.rx.length < 4 → next s u { c with rx := c.rx ++ [c.rxs], rxs := 0 } ∧ rxc u = 0) ∧
      (4 ≤ c.rx.length → w / 2048 % 2 = 0 → Rule.stays s u n j .stall ∧ rxc u = rxc s) ∧
      (4 ≤ c.rx.length → w / 2048 % 2 = 1 → next s u { c with rxs := 0 } ∧ rxc u = 0 ∧
        u.bit (F.PIO_FLAGS_DROP n j) = true ∧
        u.word (F.PIO_DROPPED_PUSHES_COUNT n).key = satInc (s.word (F.PIO_DROPPED_PUSHES_COUNT n).key))) ∧
    ∀ s s1, s.pioTick n j = some s1 → pioBad (s1.pioInstr n j) (s1.pioLen n j) = true →
      ∃ u, exec (.pioBadInstr n j) s = .next u ∧ Rule.Channel s1 u n j ∧ Rule.runs u n j = false ∧
        u.bit (F.PIO_FLAGS_BAD_INSTR n j) = true ∧ u.pioCh n j = { s1.pioCh n j with wait := .none } ∧
        u.bit (F.PIO_PC_WAITING n j) = false ∧ u.fld (F.PIO_PC_OFFSET n j) = s1.fld (F.PIO_PC_OFFSET n j)

namespace Sys2Proof.Rule

open Sys2Proof.Machine

/-- The hundredths of a second from 2000-01-01 00:00:00.00 to a date and time. -/
def hundredths (c : Calendar) : Nat := (((c.days * 24 + c.hour) * 60 + c.min) * 60 + c.sec) * 100 + c.hund

/-- Whether the numbers of a calendar are those of a date and time (R362). -/
def dated (c : Calendar) : Prop :=
  2000 ≤ c.year ∧ c.year ≤ 2999 ∧ 1 ≤ c.month ∧ c.month ≤ 12 ∧ 1 ≤ c.day ∧ c.day ≤ monthDays c.year c.month ∧
    c.hour ≤ 23 ∧ c.min ≤ 59 ∧ c.sec ≤ 59 ∧ c.hund ≤ 99

/-- A character as the panel draws it (R369). -/
def drawn (c : Byte) : Byte := if 0x20 ≤ c.toNat ∧ c.toNat ≤ 0x7E then c else 0x20

/-- The SEQ of a received message is newer than the last one accepted of entry `e` (R192, R196). -/
def Fresh (s : State) (r : Rx) (e : Nat) : Prop :=
  (s.entry e).heard = false ∨ (0 < (r.seq - s.word (F.STN_RX_SEQ_SEQ (e / 64) (e % 64)).key).toNat ∧
    (r.seq - s.word (F.STN_RX_SEQ_SEQ (e / 64) (e % 64)).key).toNat < 2 ^ 31)

/-- What comes over the port of `r`, which is in service, finds room in the input distributor (R17). -/
def Open (s : State) (r : Rx) : Prop :=
  s.portUp r.port = true ∧ s.stalled (.ingress r.port) = false ∧ (s.port r.port).inbox = []

/-- The received RSP message `r` reaches entry `e` over a port in service, and is acceptable (R188, R196): its version and
length are right, its station is the entry's, and its SEQ is newer than the last one accepted. -/
def Heard (s : State) (r : Rx) (e : Nat) : Prop :=
  Open s r ∧ r.ver = 1 ∧ s.matchEntry r = some e ∧ (r.station.toNat = e ∨ r.station = 0xFFFF) ∧ Fresh s r e

/-- What the acceptance of `r` leaves: the frame counted, and its SEQ the last one accepted of entry `e`. -/
def Taken (s u : State) (r : Rx) (e : Nat) : Prop :=
  u.word (F.PRT_RX_FRAMES_COUNT r.port).key = satInc (s.word (F.PRT_RX_FRAMES_COUNT r.port).key) ∧
    u.word (F.STN_RX_SEQ_SEQ (e / 64) (e % 64)).key = r.seq ∧ (u.entry e).heard = true

/-- The counters of a message that is not accepted. -/
def Refused (s u : State) (r : Rx) (c : Fld) : Prop :=
  Block s u [(F.PRT_RX_FRAMES_COUNT r.port).key, c.key] ∧ u.word c.key = satInc (s.word c.key) ∧
    u.word (F.PRT_RX_FRAMES_COUNT r.port).key = satInc (s.word (F.PRT_RX_FRAMES_COUNT r.port).key)

end Sys2Proof.Rule

/-- The calendar and the panel (R362, R365 to R367, R369 to R371): a hundredth passes, with its carry into date and
weekday, and takes its LANTERN ticks, 32,768 in a second, to which TRIM adds every 2²⁰ ticks; a panel update starts from
its record, ends, is stopped by PFW, or is recovered. The bytes of the panel's record, with the text from byte 1 on, are
the model's choice (log entry 70). -/
def Obligations.CalendarAndPanel : Prop :=
  (∀ c : Calendar, Rule.dated c → c.year < 2999 ∨ c.month < 12 ∨ c.day < 31 ∨ c.hour < 23 ∨ c.min < 59 ∨ c.sec < 59 ∨
      c.hund < 99 → Rule.dated c.next ∧ Rule.hundredths c.next = Rule.hundredths c + 1) ∧
  (∀ h, hundTicks h + ceilDiv (h * 32768) 100 = ceilDiv ((h + 1) * 32768) 100) ∧
  ∀ s : State,
    (s.power.charged = true → s.rtc.set = none →
      let old := calendarOf (s.word F.RTC_TIME_HUND.key) (s.word F.RTC_DATE_DAY.key)
      let c := old.next
      let trim : Int := (BitVec.ofNat 8 (s.fld F.RTC_TRIM_TRIM)).toInt
      let ticks := s.rtc.ticks + ((hundTicks old.hund : Int) - s.rtc.extra).toNat
      ∃ u, exec .rtcHundredth s = .next u ∧
        Rule.Block { s with rtc := u.rtc } u [F.RTC_TIME_HUND.key, F.RTC_DATE_DAY.key, F.RTC_STATUS_ALARM.key] ∧
        u.rtc = (if 2 ^ 20 ≤ ticks then ⟨ticks - 2 ^ 20, trim, none⟩ else ⟨ticks, 0, none⟩) ∧
        u.bit F.RTC_STATUS_CENTURY_WRAP = (s.bit F.RTC_STATUS_CENTURY_WRAP || decide (c.year < old.year)) ∧
        u.word F.RTC_TIME_HUND.key = c.time ∧ u.word F.RTC_DATE_DAY.key = c.date ∧
        (s.bit F.RTC_STATUS_ALARM = true → u.bit F.RTC_STATUS_ALARM = true) ∧
        (s.fld F.RTC_ALARM_CTRL_MATCH = 15 → c.time = s.word F.RTC_ALARM_TIME.key → u.bit F.RTC_STATUS_ALARM = true) ∧
        (s.fld F.RTC_ALARM_CTRL_MATCH = 0 → u.bit F.RTC_STATUS_ALARM = s.bit F.RTC_STATUS_ALARM)) ∧
    (s.panel.ready = true → s.bit F.NVS_STATUS_PFW = false → ∃ u, exec .panelUpdateStart s = .next u ∧
      Rule.Words { s with panel := u.panel } u (F.PNL_STATUS_BUSY.key :: (List.range 20).map fun i => 0x81F0 / 4 + i) ∧
      u.bit F.PNL_STATUS_BUSY = true ∧ u.bit F.PNL_STATUS_PENDING = false ∧ u.panel.starting = false ∧
      u.panel.ready = false ∧ u.panel.shown = s.panel.shown ∧ u.panel.snapshot.length = 296 ∧
      ∀ k i, i < 37 → (k < 6 → u.panel.snapshot.getD (37 * k + i) 0 = Rule.drawn ((s.panelText k).getD i 0)) ∧
        (k = 6 ∨ k = 7 → u.panel.snapshot.getD (37 * k + i) 0 = Rule.drawn (Config.panelChar k i s.tick))) ∧
    (s.bit F.PNL_STATUS_BUSY = true → s.bit F.PNL_STATUS_RECOVERING = false → s.bit F.NVS_STATUS_PFW = false →
      s.nvs.waiting = [] → s.nvs.queue.length + 2 ≤ 64 → s.panel.starting = false →
      ∃ u, exec .panelUpdateDone s = .next u ∧ u.panel.shown = s.panel.snapshot ∧ u.panel.mixed = false ∧
        u.bit F.PNL_STATUS_BUSY = false ∧ u.word F.PNL_UPDATES_COUNT.key = satInc (s.word F.PNL_UPDATES_COUNT.key) ∧
        u.panel.starting = s.bit F.PNL_STATUS_PENDING ∧ u.nvs.queue.map (·.page) = s.nvs.queue.map (·.page)
          ++ (if s.bit F.PNL_STATUS_PENDING then [36880, 36880] else [36880])) ∧
    (s.bit F.NVS_STATUS_PFW = true → ∃ u, exec .panelStop s = .next u ∧
      Rule.Words { s with panel := { s.panel with mixed := s.panel.mixed || s.bit F.PNL_STATUS_BUSY } } u
        [F.PNL_STATUS_BUSY.key] ∧ u.bit F.PNL_STATUS_BUSY = false) ∧
    (s.bit F.PNL_STATUS_RECOVERING = true → s.bit F.PNL_STATUS_BUSY = true → s.bit F.NVS_STATUS_PFW = false → ∃ u, exec .panelRecovered s = .next u ∧
      u.bit F.PNL_STATUS_RECOVERING = false ∧ u.bit F.PNL_STATUS_BUSY = false ∧ u.panel.mixed = false ∧
      (∀ i, i < 222 → u.panel.shown.getD i 0 = Rule.drawn ((Rule.nvsBytes s 36880).getD (i + 1) 0)) ∧
      (u.word F.PNL_UPDATES_COUNT.key).toNat = min 0xFFFFFFFF ((s.word F.PNL_UPDATES_COUNT.key).toNat + 2) ∧
      u.tenants = s.tenants)

/-- The push engine, the ports and the sinks (R181, R184 to R187, R189, R192, R200, R202, R222, R225 to R227): a REGION
message is made of at most five regions of one band of one frame, within 1,500 bytes; a BEAM_MARK follows the last
region of its frame; a port sends audio first, in its entry's numbers; a sink takes its sample. The model's choices: SEQ
begins at 1 (log entry 101), the records that BEAM_MARK counts (102), what ABSENT_DISCARDS counts (114), an item taken
without a link counts one in PORT_DOWN_DISCARDS (126), and AUDIO and PALETTE wait in the port's queue while PSH or the STN
page of the entry is disabled (127). -/
def Obligations.PushAndSinks : Prop :=
  ∀ (e : Ent) (p : PortNo) (i : Fin 8) (at_ : Nat) (s : State),
    (∀ c x r, ((List.range 8).map fun j => (s.pushNext + j) % 8).find? (fun c => s.openItems c != []) = some c →
      s.openItems c = x :: r →
      let present := s.ebit F.STN_ENT_CTRL_EN x.ent && s.efld F.STN_STATE_STATE x.ent == 2
        && s.efld F.STN_ENT_CTRL_TENANT x.ent == x.tenant
      let stale := x.epoch != (s.tenant x.tenant).epoch
      let held := s.egressStalled (s.entryPort x.ent)
      (stale = false → present = true → s.portUp (s.entryPort x.ent) = true → held = true → exec .region s = .next s) ∧
      ((stale = true ∨ present = false ∨ s.portUp (s.entryPort x.ent) = false ∨ held = false) →
      ∃ u, exec .region s = .next u ∧ u.pushNext = (c + 1) % 8 ∧ u.tenants = s.tenants ∧ u.hbm = s.hbm ∧
        (stale = true → u.push = s.push.erase x ∧ u.ports = s.ports ∧
          u.word F.PSH_STALE_DISCARDS_COUNT.key = satInc (s.word F.PSH_STALE_DISCARDS_COUNT.key)) ∧
        (stale = false → present = false → u.push = s.push.erase x ∧ u.ports = s.ports ∧ x.region ∉ (u.entry x.ent).clean ∧
          u.word F.PSH_ABSENT_DISCARDS_COUNT.key = satInc (s.word F.PSH_ABSENT_DISCARDS_COUNT.key)) ∧
        (stale = false → present = true → s.portUp (s.entryPort x.ent) = false → u.push = s.push.erase x ∧
          u.ports = s.ports ∧ x.region ∉ (u.entry x.ent).clean ∧
          u.word F.PSH_PORT_DOWN_DISCARDS_COUNT.key = satInc (s.word F.PSH_PORT_DOWN_DISCARDS_COUNT.key)) ∧
        (stale = false → present = true → s.portUp (s.entryPort x.ent) = true → held = false → ∃ m : RspMsg,
          (u.port (s.entryPort x.ent)).queue = (s.port (s.entryPort x.ent)).queue ++ [m] ∧ m.typ = 1 ∧ m.ent = x.ent ∧
          m.tenant = x.tenant ∧ m.epoch = x.epoch ∧ m.frame = x.frame ∧ m.regions.head? = some x.region ∧
          m.regions.length ≤ 5 ∧ m.payload.length + 16 ≤ 1500 ∧ u.push.length + m.regions.length = s.push.length ∧
          ∀ y ∈ m.regions, Store.get 0 (u.entry x.ent).sigs y = crc32 (s.regionBytes x.tenant x.frame y) ∧
            y ∈ (u.entry x.ent).clean))) ∧
    (∀ f r, (s.entry e).frames = f :: r → s.bit F.PSH_EN = true → s.bit (F.STN_EN e) = true → f.done = true →
      f.endTick ≤ max s.tick at_ → (∀ x ∈ s.push, ¬(x.ent = e.val ∧ x.frame = f.frame)) →
      let b := s.advance at_
      (s.portUp (s.entryPort e) = true → s.egressStalled (s.entryPort e) = true → exec (.beamMark e at_) s = .next s) ∧
      (s.egressStalled (s.entryPort e) = false → b.portUp (b.entryPort e) = true →
        ∃ u m, exec (.beamMark e at_) s = .next u ∧ (u.entry e).frames = r ∧ u.tick = max s.tick at_ ∧
          (u.port (b.entryPort e)).queue = (s.port (b.entryPort e)).queue ++ [m] ∧ m.typ = 4 ∧ m.ent = e.val ∧
          m.frame = f.frame ∧ m.full = f.full ∧ m.tenant = b.efld F.STN_ENT_CTRL_TENANT e ∧
          m.present = f.endTick + b.presentDelay e * (s.geo m.tenant).framePeriod ∧
          m.payload = beBytes 4 (BitVec.ofNat 32 f.frame) ++ beBytes 8 (BitVec.ofNat 64 m.present)
            ++ beBytes 2 (BitVec.ofNat 16 f.records) ++ [if f.full then 1 else 0, BitVec.ofNat 8 ((s.geo m.tenant).w / 16),
              BitVec.ofNat 8 ((s.geo m.tenant).h / 16), 0])) ∧
    (s.portUp p = false ∨ s.txOn p = false → exec (.frameTransmit p at_) s = .next s) ∧
    (s.portUp p = true → s.txOn p = true →
      let b := s.advance at_
      let q := s.port p
      let audio := q.audio.filter fun m => decide (max s.tick at_ ≤ m.present)
      let open_ (m : RspMsg) : Bool := b.bit F.PSH_EN && b.bit (F.STN_EN m.ent)
      ∃ u, exec (.frameTransmit p at_) s = .next u ∧ u.tick = max s.tick at_ ∧ u.tenants = s.tenants ∧
        (u.word F.PSH_LATE_AUDIO_COUNT.key).toNat
          = min 0xFFFFFFFF ((b.word F.PSH_LATE_AUDIO_COUNT.key).toNat + (q.audio.length - audio.length)) ∧
        (audio.find? open_ = none → q.queue.find? open_ = none → u.port p = { q with audio := audio }) ∧
        ∀ m, (audio.find? open_ = some m ∨ (audio.find? open_ = none ∧ q.queue.find? open_ = some m)) → m.ent < 2048 →
          let seq := BitVec.ofNat 32 (b.efld F.STN_TX_SEQ_SEQ m.ent + 1)
          let vid := b.efld F.STN_PORTS_VID m.ent
          let tag : Option VlanTag := if vid = 0 then none
            else some ⟨BitVec.ofNat 3 (b.fld (F.PRT_CFG_PCP p)), BitVec.ofNat 12 vid⟩
          u.port p = { q with
            audio := if (audio.find? open_).isSome then audio.erase m else audio
            queue := if (audio.find? open_).isSome then q.queue else q.queue.erase m
            sent := q.sent ++ [.rsp (b.entryMac m.ent) tag
              (BitVec.ofNat 16 (b.fld F.PSH_CFG_ETHERTYPE)) (rspBytes m seq)] } ∧
          u.word (F.STN_TX_SEQ_SEQ (m.ent / 64) (m.ent % 64)).key = seq ∧
          u.word (F.PRT_TX_FRAMES_COUNT p).key = satInc (b.word (F.PRT_TX_FRAMES_COUNT p).key) ∧
          (u.ebit F.STN_STATE_FULL_PENDING m.ent = (b.ebit F.STN_STATE_FULL_PENDING m.ent && !(m.typ == 4 && m.full
            && !(s.entry m.ent).fullReq && !((s.entry m.ent).frames.any fun f => f.full))))) ∧
    (let x := s.sink i
      let tick := ceilDiv (x.next * 6250) 3
      tick ≤ max s.tick at_ →
      let b := s.advance tick
      let setB := if b.bit (F.PSH_SINK_CTRL_SWAP_PENDING i) then !b.bit (F.PSH_SINK_CTRL_ACTIVE_B i)
        else b.bit (F.PSH_SINK_CTRL_ACTIVE_B i)
      let en (j : Nat) : Bool := b.bit (if setB then F.PSH_SRC_B_SRC_EN i j else F.PSH_SRC_A_SRC_EN i j)
      ∃ u, exec (.sinkSample i at_) s = .next u ∧ u.tick = max s.tick tick ∧ (u.sink i).next = x.next + 1 ∧
        u.bit (F.PSH_SINK_CTRL_ACTIVE_B i) = setB ∧ u.bit (F.PSH_SINK_CTRL_SWAP_PENDING i) = false ∧
        (∀ j, j ≠ i.val → u.sink j = s.sink j) ∧ u.tenants = s.tenants ∧
        (b.bit (F.PSH_SINK_CTRL_EN i) = false → (u.sink i).out = ⟨0, 0⟩) ∧
        ((∀ j, j < 16 → en j = false) → (u.sink i).pre.getLast? = some ⟨0, 0⟩ ∧ (u.sink i).played = x.played ∧
          u.word (F.PSH_SINK_SLIPS_COUNT i).key = b.word (F.PSH_SINK_SLIPS_COUNT i).key))

/-- What stations send and how entries go on (R188, R192 to R198, R200, R206, R424): INPUT, STATUS and RESYNC_REQ that
are accepted, the counters of those that are not, a station that goes absent and a dual-homed entry that switches; a
port whose ingress path has no credit holds what it receives and pauses its partner (R17). That RESYNC_REQ is accepted
with every REASON is the model's choice (log entry 103), and so is BAD_RX for a message that no entry matches (log entry
81). -/
def Obligations.Stations : Prop :=
  ∀ (r : Rx) (len : Byte) (data : List Byte) (fl : Byte) (last : Word) (late : Half) (reason : Byte) (e : Nat) (s : State),
    let k := s.efld F.STN_ENT_CTRL_TENANT e
    let t := s.tenant k
    (Rule.Heard s r e → len.toNat ≤ 240 → data.length = len.toNat → ∃ u, exec (.input r len data) s = .next u ∧
      Rule.Taken s u r e ∧
      (r.epoch ≠ t.epoch → u.tenants = s.tenants ∧ u.word (F.STN_STALE_RX_COUNT (e / 64) (e % 64)).key
        = satInc (s.word (F.STN_STALE_RX_COUNT (e / 64) (e % 64)).key)) ∧
      (r.epoch = t.epoch → Rule.Others s u k ∧ (u.tenant k).core = t.core ∧
        let mine := t.reports.filter fun x => x.ent == e
        let new : Report := ⟨s.efld F.STN_ENT_CTRL_SLOT e, e, r.seq, data⟩
        (mine.length < 8 → (u.tenant k).reports = t.reports ++ [new]) ∧
        (∀ x l, mine = x :: l → 8 ≤ mine.length → (u.tenant k).reports = t.reports.erase x ++ [new] ∧
          (u.tenant k).word F.INP_OVERRUNS_COUNT.key = satInc (t.word F.INP_OVERRUNS_COUNT.key)))) ∧
    (Rule.Heard s r e → ∃ u, exec (.status r fl last late) s = .next u ∧ Rule.Taken s u r e ∧
      u.efld F.STN_STATE_LINK_RX e = fl.toNat % 4 ∧ u.efld F.STN_LAST_PRESENTED_FRAME e = last.toNat ∧
      u.efld F.STN_STATE_STATE e = 2 ∧ (u.entry e).late = some late ∧
      (s.efld F.STN_STATE_STATE e = 2 → u.tenants = s.tenants ∧ u.gate = s.gate) ∧
      (s.efld F.STN_STATE_STATE e ≠ 2 → (u.entry e).fullReq = true ∧ (u.entry e).clean = [] ∧
        u.bit (F.STN_STATUS_CHG (e / 64)) = true)) ∧
    (Rule.Heard s r e → ∃ u, exec (.resyncReq r last reason) s = .next u ∧ Rule.Taken s u r e ∧
      u.word F.PSH_RESYNC_REQS_COUNT.key = satInc (s.word F.PSH_RESYNC_REQS_COUNT.key) ∧
      u.ebit F.STN_STATE_FULL_PENDING e = true ∧ u.tenants = s.tenants ∧
      (s.ebit F.STN_STATE_FULL_PENDING e = false → (u.entry e).fullReq = true ∧ (u.entry e).clean = [] ∧
        u.word (F.STN_RESYNCS_COUNT (e / 64) (e % 64)).key = satInc (s.word (F.STN_RESYNCS_COUNT (e / 64) (e % 64)).key) ∧
        u.word (F.STN_GAPS_COUNT (e / 64) (e % 64)).key = (if reason = 1 then
          satInc (s.word (F.STN_GAPS_COUNT (e / 64) (e % 64)).key) else s.word (F.STN_GAPS_COUNT (e / 64) (e % 64)).key))) ∧
    (s.portUp r.port = true → s.stalled (.ingress r.port) = true ∨ (s.port r.port).inbox ≠ [] →
      ∀ i ∈ [Instr.input r len data, .status r fl last late, .resyncReq r last reason], ∃ u, exec i s = .next u ∧
        Rule.Block (s.setPort r.port { s.port r.port with
          inbox := (s.port r.port).inbox ++ [i], sent := (s.port r.port).sent ++ [.pause] }) u
          [(F.PRT_TX_PAUSE_COUNT r.port).key] ∧
        u.word (F.PRT_TX_PAUSE_COUNT r.port).key = satInc (s.word (F.PRT_TX_PAUSE_COUNT r.port).key)) ∧
    (Rule.Open s r → r.ver ≠ 1 ∨ s.matchEntry r = none →
      (∃ u, exec (.input r len data) s = .next u ∧ Rule.Refused s u r F.PSH_BAD_RX_COUNT) ∧
      ∃ u, exec (.resyncReq r last reason) s = .next u ∧ Rule.Refused s u r F.PSH_BAD_RX_COUNT) ∧
    (Rule.Open s r → 240 < len.toNat ∨ data.length ≠ len.toNat →
      ∃ u, exec (.input r len data) s = .next u ∧ Rule.Refused s u r F.PSH_BAD_RX_COUNT) ∧
    (Rule.Open s r → r.ver = 1 → s.matchEntry r = some e → len.toNat ≤ 240 → data.length = len.toNat →
      (r.station.toNat = e ∨ r.station = 0xFFFF → ¬Rule.Fresh s r e →
        (∃ u, exec (.input r len data) s = .next u ∧ Rule.Refused s u r F.PSH_DUP_RX_COUNT) ∧
        (reason ≠ 3 → ∃ u, exec (.resyncReq r last reason) s = .next u ∧ Rule.Refused s u r F.PSH_DUP_RX_COUNT)) ∧
      (r.station.toNat ≠ e → r.station ≠ 0xFFFF → ∀ c,
        ((Rule.Fresh s r e ∧ c = F.PSH_BAD_RX_COUNT) ∨ (¬Rule.Fresh s r e ∧ c = F.PSH_DUP_RX_COUNT)) →
        (∃ u, exec (.input r len data) s = .next u ∧ Rule.Refused s u r c) ∧
        ∃ u, exec (.resyncReq r last reason) s = .next u ∧ Rule.Refused s u r c)) ∧
    ∀ x : Ent, s.ebit F.STN_ENT_CTRL_EN x = true →
      (s.efld F.STN_STATE_STATE x = 2 → ∃ u, exec (.stationAbsent x) s = .next u ∧ u.efld F.STN_STATE_STATE x = 3 ∧
        u.bit (F.STN_STATUS_CHG (x.val / 64)) = true ∧ u.push = s.push.filter (fun i => i.ent != x.val) ∧
        (u.entry x).frames = [] ∧ u.gate = (s.tell 0x0301 x).gate ∧
        let t := s.tenant (s.efld F.STN_ENT_CTRL_TENANT x)
        let w := u.tenant (s.efld F.STN_ENT_CTRL_TENANT x)
        (s.ebit F.STN_ENT_CTRL_HOLD_POLICY x = false → u.tenants = s.tenants) ∧
        (s.ebit F.STN_ENT_CTRL_HOLD_POLICY x = true → t.fld F.TEN_CONT_STATE = 2 → t.stop = .none →
          w = { t with stop := .hold, heldByModule := true })) ∧
      (s.ebit F.STN_ENT_CTRL_DUAL x = true → s.bit (F.PRT_STATUS_LINK_UP (s.entryPort x)) = false ∨
        2 ≤ (s.entry x).linkBad ∨ (s.entry x).other = true → ∃ u, exec (.portSwitch x) s = .next u ∧
        u.ebit F.STN_PORTS_ACTIVE_B x = !s.ebit F.STN_PORTS_ACTIVE_B x ∧ (u.entry x).fullReq = true ∧
        (u.entry x).clean = [] ∧ (u.entry x).linkBad = 0 ∧ (u.entry x).other = false ∧
        (u.port (s.entryPort x)).queue = (s.port (s.entryPort x)).queue.filter (fun m => m.ent != x.val) ∧
        u.gate = (s.tell 0x0303 x).gate ∧ u.tenants = s.tenants)

/-- The field ports (R200, R201, R203, R205, R418): links, of which a port whose transmitter is off or that is in reset
gets none, SFP signals, frames that carry no RSP, PTP, and the self-refresh of the HBM stacks. The model's choices: an
over-long frame counts in RX_FCS_ERR (log entry 122), and PAUSE frames and frames that fail their FCS count in no FRAMES
counter (log entry 123). -/
def Obligations.Ports : Prop :=
  ∀ (p : PortNo) (fec pr los fault : Bool) (mac : BitVec 48) (q : Half) (at_ : Nat) (st : Fin 2) (s : State),
    let ptp := s.portUp p = true ∧ s.bit (F.PRT_CFG_TX_ON p) = true ∧ s.bit (F.PRT_CFG_PTP_EN p) = true ∧ s.bit F.PTP_EN = true
    let plus (s u : State) (f : Fld) (n : Nat) : Prop :=
      (u.word f.key).toNat = min 0xFFFFFFFF ((s.word f.key).toNat + n)
    let t := max s.tick at_
    let b := s.advance at_
    let frame (s : State) (type : BitVec 4) (seq : Half) (body : PtpBody) : WireFrame :=
      let vid := s.fld (F.PRT_CFG_PTP_VID p)
      .ptp 0x011B19000000 (if vid = 0 then none else some ⟨BitVec.ofNat 3 (s.fld (F.PRT_CFG_PCP p)), BitVec.ofNat 12 vid⟩)
        0x88F7 type (BitVec.ofNat 8 (s.fld F.PTP_CFG_DOMAIN)) seq body
    (s.bit (F.PRT_STATUS_LINK_UP p) = true → ∃ u, exec (.linkDown p) s = .next u ∧
      u.bit (F.PRT_STATUS_LINK_UP p) = false ∧ u.bit (F.PRT_STATUS_FEC_LOCK p) = false ∧
      u.bit (F.PRT_STATUS_CHG p) = true ∧ (u.port p).audio = [] ∧ (u.port p).queue = [] ∧
      u.word (F.PRT_LINK_DOWNS_COUNT p).key = satInc (s.word (F.PRT_LINK_DOWNS_COUNT p).key) ∧ u.tenants = s.tenants ∧
      ∀ m ∈ (s.port p).audio ++ (s.port p).queue, ∀ x ∈ m.regions, x ∉ (u.entry m.ent).clean) ∧
    (s.bit ⟨F.CLK_RST_PORT_PORT.key, p, 1⟩ = true ∨ s.bit (F.PRT_CFG_TX_ON p) = false → exec (.linkUp p fec) s = .next s) ∧
    (s.bit (F.PRT_STATUS_LINK_UP p) = false → s.bit ⟨F.CLK_RST_PORT_PORT.key, p, 1⟩ = false →
      s.bit (F.PRT_CFG_TX_ON p) = true → ∃ u, exec (.linkUp p fec) s = .next u ∧ u.bit (F.PRT_STATUS_LINK_UP p) = true ∧ u.bit (F.PRT_STATUS_CHG p) = true ∧
        u.bit (F.PRT_STATUS_FEC_LOCK p) = (fec && s.bit (F.PRT_CFG_RSFEC p) && s.bit (F.PRT_CFG_SPEED25 p)) ∧
        (∀ e, e < 2048 → s.bit (F.PRT_EN p) = true → s.ebit F.STN_ENT_CTRL_EN e = true → s.entryPort e = p.val →
          (u.entry e).fullReq = true) ∧ u.tenants = s.tenants) ∧
    (∃ u, exec (.sfpChange p pr los fault) s = .next u ∧ Rule.Block s u [(F.PRT_STATUS_CHG p).key] ∧
      u.bit (F.PRT_STATUS_SFP_PRESENT p) = pr ∧ u.bit (F.PRT_STATUS_SFP_LOS p) = los ∧
      u.bit (F.PRT_STATUS_TX_FAULT p) = fault ∧ u.bit (F.PRT_STATUS_LINK_UP p) = s.bit (F.PRT_STATUS_LINK_UP p)) ∧
    (s.portUp p = true →
      (∃ u, exec (.pauseReceive p) s = .next u ∧ Rule.Block s u [(F.PRT_RX_PAUSE_COUNT p).key] ∧
        plus s u (F.PRT_RX_PAUSE_COUNT p) 1) ∧
      (∀ why, why = .fcs ∨ why = .long → ∃ u, exec (.rxUnknown p why) s = .next u ∧
        Rule.Block s u [(F.PRT_RX_FCS_ERR_COUNT p).key] ∧ plus s u (F.PRT_RX_FCS_ERR_COUNT p) 1) ∧
      (∀ why c, (why = .foreign ∧ c = F.PRT_RX_UNKNOWN_COUNT p) ∨ (why = .badRsp ∧ c = F.PSH_BAD_RX_COUNT) →
        ∃ u, exec (.rxUnknown p why) s = .next u ∧ Rule.Block s u [(F.PRT_RX_FRAMES_COUNT p).key, c.key] ∧
          plus s u (F.PRT_RX_FRAMES_COUNT p) 1 ∧ plus s u c 1)) ∧
    (ptp → (∃ u, exec (.syncSend p at_) s = .next u ∧ u.tick = t ∧
        u.port p = { s.port p with syncSeq := (s.port p).syncSeq + 1, sent := (s.port p).sent
          ++ [frame b 0 (s.port p).syncSeq (.egress t), frame b 8 (s.port p).syncSeq (.egress t)] } ∧
        plus b u (F.PRT_TX_FRAMES_COUNT p) 2 ∧ plus b u F.PTP_SYNC_SENT_COUNT 1) ∧
      (∃ u, exec (.announceSend p) s = .next u ∧
        u.port p = { s.port p with announceSeq := (s.port p).announceSeq + 1, sent := (s.port p).sent
          ++ [frame s 0xB (s.port p).announceSeq (.announce (BitVec.ofNat 8 (s.fld F.PTP_CFG_PRIORITY1))
            (BitVec.ofNat 8 (s.fld F.PTP_CFG_PRIORITY2)) 248 0xFE true)] } ∧ plus s u (F.PRT_TX_FRAMES_COUNT p) 1) ∧
      (∃ u, exec (.delayReq p mac q at_) s = .next u ∧ u.tick = t ∧
        u.port p = { s.port p with sent := (s.port p).sent ++ [frame b 9 q (.delay t mac)] } ∧
        plus b u F.PTP_DELAY_RESP_SENT_COUNT 1 ∧ plus b u (F.PRT_RX_FRAMES_COUNT p) 1) ∧
      (∃ u, exec (.foreignAnnounce p) s = .next u ∧
        Rule.Block s u [(F.PRT_RX_FRAMES_COUNT p).key, F.PTP_FOREIGN_ANNOUNCE_COUNT.key] ∧
        plus s u F.PTP_FOREIGN_ANNOUNCE_COUNT 1)) ∧
    (∀ bound, s.bit F.PSH_SR_CTRL_SR_EN = true → st.val ∉ s.cont.fencedStacks →
      (∀ v, s.tolerance bound = some v → 100 * (4 + s.fld F.PSH_SR_CTRL_SR_MARGIN) < v) →
      ∃ u, exec (.selfRefreshEntry st bound) s = .next u ∧ Rule.Block s u [(F.STACK_SR st).key] ∧
        u.bit (F.STACK_SR st) = true) ∧
    (∃ u, exec (.selfRefreshExit st) s = .next u ∧ Rule.Block s u [(F.STACK_SR st).key] ∧ u.bit (F.STACK_SR st) = false)

namespace Sys2Proof.Rule

open Sys2Proof.Machine

/-- The source that a sender serves after `last` (R19): the next higher one that is ready, or the lowest. -/
def serves (last : Nat) (ready : List Nat) (n : Nat) : Prop :=
  n ∈ ready ∧ ((last < n ∧ ∀ m ∈ ready, last < m → n ≤ m) ∨ ((∀ m ∈ ready, m ≤ last) ∧ ∀ m ∈ ready, n ≤ m))

/-- The word at `a` is as before, but for those that show the queue of NVS: a message to HOST-B may record the sequence
series (R349, R355, R356). -/
def SameWord (s u : State) (a : Nat) : Prop := ¬QueueWord a → u.word a = s.word a

/-- What a return above the count of path `p` leaves (R21): it is counted, noticed and told, and nothing else. -/
def Over (s v : State) (p : Path) : Prop :=
  v.credits = s.credits ∧ v.cont = s.cont ∧ v.tenants = s.tenants ∧
    match pathSector p with
    | some c => v.word (F.SEC_CREDIT_OVER_COUNT c).key = satInc (s.word (F.SEC_CREDIT_OVER_COUNT c).key) ∧
        v.gate = (s.tell 0x020A c).gate ∧ (c < 8 → v.bit ⟨0x4C / 4, c, 1⟩ = true)
    | none => Block (s.tell 0x020A 0xFFFF) v [F.MOD_CREDIT_OVER_COUNT.key] ∧
        v.word F.MOD_CREDIT_OVER_COUNT.key = satInc (s.word F.MOD_CREDIT_OVER_COUNT.key)

/-- A tenant whose running copy has failed (R284, R286, R288): with a warm mirror it is back at its last committed ring
and awaits its promotion, with the journal that has reached the mirror to be replayed; without one it is LOST, and HELD
but for a RESET accepted during the failover, which takes effect now (R292); a tenant without an execution awaits a
slot. -/
def Failed (t u : Tenant) : Prop :=
  if t.fld F.TEN_CONT_STATE = 1 ∨ t.fld F.TEN_CONT_STATE = 5 then u.fld F.TEN_CONT_STATE = t.fld F.TEN_CONT_STATE ∧
    u.slot = 0x7FF ∧ u.mirror = none
  else match t.mirror, t.fld F.TEN_MIRROR_MSTATE == 2 with
    | some m, true => u.waitPromotion = true ∧ u.core.mem = m.image ∧ u.core.cpu = t.record.cpu ∧
        u.core.regs = t.record.regs ∧ u.core.now = t.record.now ∧ u.core.begun = t.record.begun ∧ u.ring = none ∧
        u.replay = t.journal.take (t.journal.length - (journalOf m.stream).length) ++ t.replay ∧ u.journal = [] ∧
        u.slot = t.slot ∧ u.fld F.TEN_CONT_STATE = t.fld F.TEN_CONT_STATE
    | _, _ => u.fld F.TEN_CONT_STATE = (if t.resetWait then 5 else 3) ∧ u.resetWait = false ∧ u.bit F.TEN_CONT_LOST = true ∧ u.waitPromotion = false ∧ u.slot = 0x7FF ∧
        u.mirror = none

/-- What a credit that comes back lets in (R17): one of a gate link what the gate holds before it, one of a port's ingress
the oldest message that the port holds. -/
def freed (p : Path) (u : State) : State :=
  match p with
  | .gateLink _ true => u.unblock
  | .ingress q => u.openInbox q
  | _ => u

/-- The EVENT of module source `n` is sent in state `s` (R301, R347): nothing else changes but its count and, on HOST-B,
the record of the sequence series. Of what waits for HOST-A, EVENTs of sources beyond 256 are sent when room returns. -/
def EventSent (n : Fin 512) (s u : State) : Prop :=
  let m : HostMsg := .event 1 (BitVec.ofNat 16 n) (BitVec.ofNat 8 (s.miqFld (F.MIQ_SRC_VECTOR n))) []
  u.miq = s.miq ++ [n.val] ∧ u.tenants = s.tenants ∧
    (∀ a, a ≠ F.MIQ_EVENTS_SENT_COUNT.key → SameWord s u a) ∧
    u.word F.MIQ_EVENTS_SENT_COUNT.key = satInc (s.word F.MIQ_EVENTS_SENT_COUNT.key) ∧
    (s.gate.held.length < 256 → u.gate = (s.sendEvent m).gate) ∧
    (s.bit F.GTE_CTRL_EVT_B = false → (∀ h ∈ s.gate.held, ∃ a b c, h = .event 1 a b c) → 256 ≤ s.gate.held.length →
      s.bit F.GTE_CTRL_EVT_A = true → u.gate = { s.gate with missed := s.gate.missed ++ [n.val] })

end Sys2Proof.Rule

/-- Credits, and what has waited (R13, R16 to R21, R24, R284, R422): a flit takes a credit and round-robin order chooses
its source, a sender without credits waits, a return above the count is discarded and fails the engines on its path; a
message that waits for a credit is let in by the one that comes back, one that waits for a tenant between placements is
tried again at its new one; ENGINES_UP puts the engines into service. Which FLITS counter takes the flits of the stops
from 9 on, and which messages wait, are the model's choices (notes/assumptions/105.md and 63.md). -/
def Sys2Proof.Rule.Credits : Prop :=
  ∀ (p : Path) (ready : List Nat) (k : Tn) (s : State),
    let q := s.route p
    (s.pathOpen q = true → ready ≠ [] →
      (0 < (s.credit q).held → ∃ u n, exec (.flitSend p ready) s = .next u ∧
        Rule.serves (s.credit q).last ready n ∧ u.credit q = ⟨q, (s.credit q).held - 1, n⟩ ∧
        (∀ x, x ≠ q → u.credit x = s.credit x) ∧
        let placed : Option Fld := match q with
          | .ringStop c b stop _ => if 9 ≤ stop ∧ n ≠ 0 then some (if b then F.SEC_FLITS_B_COUNT c else F.SEC_FLITS_A_COUNT c)
              else none
          | _ => none
        match placed with
        | some f => Rule.Block { s with credits := u.credits } u [f.key] ∧ u.word f.key = satInc (s.word f.key)
        | none => u = { s with credits := u.credits }) ∧
      ((s.credit q).held = 0 → ∃ u, exec (.flitSend p ready) s = .next u ∧ u.credits = s.credits ∧ match q with
        | .ingress x => u.port x = { s.port x with sent := (s.port x).sent ++ [.pause] } ∧
            Rule.Block { s with ports := u.ports } u [(F.PRT_TX_PAUSE_COUNT x).key] ∧
            u.word (F.PRT_TX_PAUSE_COUNT x).key = satInc (s.word (F.PRT_TX_PAUSE_COUNT x).key)
        | .blitWrite e => Rule.Block s u [(F.SBLT_WRITE_STALLS_COUNT (e / 9)).key] ∧
            u.word (F.SBLT_WRITE_STALLS_COUNT (e / 9)).key = satInc (s.word (F.SBLT_WRITE_STALLS_COUNT (e / 9)).key)
        | .gateLink _ true => u = { s with gate := { s.gate with pauses := s.gate.pauses + 1 } }
        | _ => u = s)) ∧
    (s.pathOpen p = true →
      ((s.credit p).held < creditMax p → ∃ u : State, exec (.creditReturn p) s = .next (Rule.freed p u) ∧
        u.credit p = { s.credit p with path := p, held := (s.credit p).held + 1 } ∧ (∀ x, x ≠ p → u.credit x = s.credit x) ∧
        match p with
        | .engRing e b => Rule.Block { s with credits := u.credits } u
            [(if b then F.SEC_FLITS_B_COUNT (e / 9) else F.SEC_FLITS_A_COUNT (e / 9)).key]
        | _ => u = { s with credits := u.credits }) ∧
      (creditMax p ≤ (s.credit p).held → ∃ v w : State, exec (.creditReturn p) s = .next (Rule.freed p w) ∧ Rule.Over s v p ∧
        (pathEngines p = [] → w = v) ∧
        (s.bit F.MOD_CONT_STATUS_SUP_TAKEOVER = true → w = { v with cont := { v.cont with
          heldFailures := v.cont.heldFailures ++ (pathEngines p).map fun e => .engineFailed e true } }) ∧
        (s.bit F.MOD_CONT_STATUS_SUP_TAKEOVER = false → s.bit F.MOD_CONT_CTRL_AUTO_READMIT = false →
          ∀ e ∈ pathEngines p, w.estate e = 1 ∧ w.fld (F.RNG_FAULT_CAUSE e) = 3))) ∧
    (∀ i m ty pay, s.power.mode = .on → s.gate.waiting = [i] → concerns i = some k.val → s.between k = false →
      inbound i = some (m, ty, pay) →
      let s0 := { s with gate := { s.gate with waiting := [] } }
      (s0.mustWait i = false → s0.stale i m ty = false →
        ∃ b q, exec (.heldAccessApply k) s = .next { s0.effect i with bus := b, miq := q }) ∧
      (s0.mustWait i = true → ∃ b q, exec (.heldAccessApply k) s = .next { s with bus := b, miq := q })) ∧
    (s.cont.starting = true → s.bit F.MOD_STATUS_READY = true → (∀ e ∈ s.cont.startSet, s.estate e ≠ 2 ∧ s.estate e ≠ 3) →
      ∃ v : State, exec .enginesUp s = .next v.release ∧ v.bit F.MOD_STATUS_ENGINES_UP = true ∧ v.tenants = s.tenants ∧
        v.cont = { s.cont with starting := false, startSet := [] } ∧ v.fld F.CLK_RST_SEC_SEC = 0 ∧
        (∀ e : Eng, if e.val ∈ s.cont.startSet ∧ (s.estate e = 7 ∨ s.estate e = 4) then v.estate e = 0 ∧
            v.bit ⟨(0x2030 + 4 * (e.val / 32)) / 4, e.val % 32, 1⟩ = false ∧
            ∀ p ∈ engPaths e, (v.credit p).held = creditMax p else v.estate e = s.estate e) ∧
        ∀ (c : Sec) (b : Bool), v.ringState c b = if s.ringState c b = 3 then 0 else s.ringState c b)

/-- Interrupts to the hosts and LANTERN (R300, R301, R303, R305 to R307, R347, R351): the EVENT of a source that begins
to qualify, sent once while it qualifies, by the MIQ entries as they stood when the gate cycle began, and else by those
of the next; LANTERN's count of the samples at which a selected level has been high, which stays once a level has been
recognised, and the record of what is recognised at each sample. -/
def Sys2Proof.Rule.InterruptsAndLantern : Prop :=
  ∀ (n : Fin 512) (s : State),
    let on (s : State) (n : Nat) : Bool := s.miqFld (F.MIQ_SRC_TARGET n) == 3 && decide (1 ≤ s.miqFld (F.MIQ_SRC_PRIO n)) &&
      decide (s.miqFld F.MIQ_TH_TH_EVENT < s.miqFld (F.MIQ_SRC_PRIO n)) && s.srcLevel n
    let new : State := { s with bus := { s.bus with wrote := [], owners := [], counts := [], before := s.regs } }
    let next : State := { new with miq := s.miq.filter (on new) }
    let r := s.rtcTick
    let old (i : Nat) : Nat := Store.get 0 s.lan i
    let high (i : Nat) : Bool := r.selActs i && r.srcLevel (r.fld (F.LAN_SEL_SOURCE i))
    let third (i : Nat) : Prop := i < 32 ∧ old i = 2 ∧ high i = true
    (∀ f : Fld, new.miqFld f = s.fld f) ∧
    (on s n = true → n.val ∉ s.miq → ∃ u, exec (.event n) s = .next u ∧ Rule.EventSent n s u) ∧
    (on s n = false ∨ n.val ∈ s.miq →
      (on new n = true → n.val ∉ next.miq → ∃ u, exec (.event n) s = .next u ∧ Rule.EventSent n next u) ∧
      (on new n = false ∨ n.val ∈ next.miq → exec (.event n) s = .next next)) ∧
    (s.power.mode = .dormant → ∃ u, exec .lanternSample s = .next u ∧
      Rule.Block { r with lan := u.lan, power := { r.power with wakeDrive := r.power.wakeDrive - 1 } } u
        [F.LAN_HIT_HIT.key, F.LAN_CAUSE_SEL.key] ∧
      (∀ i, i < 32 → Store.get 0 u.lan i = (if 3 ≤ old i then old i else if high i then old i + 1 else 0) ∧
        (third i → u.bit ⟨F.LAN_HIT_HIT.key, i, 1⟩ = true) ∧
        (¬third i → u.bit ⟨F.LAN_HIT_HIT.key, i, 1⟩ = r.bit ⟨F.LAN_HIT_HIT.key, i, 1⟩)) ∧
      (r.bit F.LAN_CAUSE_VALID = true ∨ (∀ i, ¬third i) → u.word F.LAN_CAUSE_SEL.key = r.word F.LAN_CAUSE_SEL.key) ∧
      ∀ i, r.bit F.LAN_CAUSE_VALID = false → third i → (∀ j, third j → i ≤ j) → u.bit F.LAN_CAUSE_VALID = true ∧
        u.fld F.LAN_CAUSE_SEL = i ∧ u.fld F.LAN_CAUSE_SOURCE = r.fld (F.LAN_SEL_SOURCE i))

/-- Credits, interrupts to the hosts, and LANTERN. Both parts are stated above. -/
def Obligations.CreditsAndInterrupts : Prop := Rule.Credits ∧ Rule.InterruptsAndLantern

/-- The engine banks, the stacks, and units that fail and return (R11, R22, R23, R253, R258 to R262, R266, R293, R399,
R422): scrubbing, bank clear, retention, a stack's failure, a ring's fault, self-tests and the return to service. The
order and the end of a scrubbing pass, and LOCKED at a re-admission, are the model's choices (notes/assumptions/73.md
and 57.md). -/
def Obligations.Banks : Prop :=
  ∀ (e : Eng) (addr : BitVec 22) (st : Fin 2) (c : Sec) (b : Bool) (cause : BitVec 8) (d : Fin 108) (pass w : Bool) (s : State),
    let a := addr.toNat / 8 * 8
    let more (u : State) (f : Fld) : Prop := u.word f.key = satInc (s.word f.key)
    let bnk := (F.BNK_STATUS_CLEARING e).key
    (s.estate e = 0 → a < 0x2B0000 →
      let scrubber := s.bit (F.BNK_SCRUB_CTRL_SCRUB_EN e) && Store.get 0 s.scrub e == a
      let passes := (F.BNK_SCRUB_PASSES_COUNT e).key
      let read (u : State) : Prop :=
        Store.get 0 u.scrub e = (if !scrubber then Store.get 0 s.scrub e else if a = 0x2AFFF8 then 0 else a + 8) ∧
        (∀ x, x ≠ e.val → Store.get 0 u.scrub x = Store.get 0 s.scrub x) ∧
        u.word passes = if scrubber = true ∧ a = 0x2AFFF8 then satInc (s.word passes) else s.word passes
      (∃ u, exec (.scrubRead e addr .clean) s = .next u ∧ Rule.Block { s with scrub := u.scrub } u [passes] ∧ read u) ∧
      (∃ u, exec (.scrubRead e addr .corrected) s = .next u ∧
        Rule.Block { s with scrub := u.scrub, ecc := s.ecc ++ [⟨e, a⟩] } u [passes,
          (F.BNK_CE_COUNT_COUNT e).key, (F.BNK_CE_ADDR_ADDR e).key] ∧ read u ∧ more u (F.BNK_CE_COUNT_COUNT e) ∧
        u.fld (F.BNK_CE_ADDR_ADDR e) = a) ∧
      (∃ v, exec (.scrubRead e addr .uncorrectable) s = .next (v.badWord e a) ∧ Rule.Block { s with scrub := v.scrub } v
          [passes, (F.BNK_UE_COUNT_COUNT e).key, (F.BNK_UE_ADDR_ADDR e).key] ∧ read v ∧
        more v (F.BNK_UE_COUNT_COUNT e) ∧ v.fld (F.BNK_UE_ADDR_ADDR e) = a ∧ v.bit (F.BNK_UE_ADDR_VALID e) = true ∧
        (0x270000 ≤ a → a < 0x2A8000 → v.badWord e a = v))) ∧
    (∀ x, s.estate e = 0 → (s.ecc.find? fun w => w.engine == e.val) = some x →
      exec (.eccWriteBack e w) s = .next { s with ecc := s.ecc.erase x }) ∧
    (s.bit (F.BNK_STATUS_CLEARING e) = true → ∃ u, exec (.clearDone e) s = .next u ∧
      u.bit (F.BNK_STATUS_CLEARING e) = false ∧ u.bit (F.BNK_STATUS_CLEAR_DONE e) = true ∧
      u.estate e = (if s.estate e = 2 then 4 else s.estate e) ∧ (s.estate e ≠ 2 → Rule.Block s u [bnk])) ∧
    (s.estate e = 0 → s.mayRetain e = true → ∃ u, exec (.retentionEntry e) s = .next u ∧ u.estate e = 6 ∧
      u.bit (F.BNK_STATUS_RETAINED e) = true ∧ Store.get 0 u.scrub e = 0 ∧ u.tenants = s.tenants) ∧
    (∃ u, exec (.engineWake e) s = .next u ∧ (s.estate e ≠ 6 → u = s) ∧
      (s.estate e = 6 → u.estate e = 0 ∧ u.bit (F.BNK_STATUS_RETAINED e) = false ∧ u.tenants = s.tenants)) ∧
    (st.val ∉ s.cont.fencedStacks → ∃ u, exec (.hbmStackFault st) s = .next u ∧ u.tenants = s.tenants ∧
      (∀ a, a ≠ F.MOD_HBM_CORRECTED_COUNT.key → Rule.SameWord s u a) ∧
      s.word F.MOD_HBM_CORRECTED_COUNT.key ≤ u.word F.MOD_HBM_CORRECTED_COUNT.key ∧
      u.cont = { s.cont with fencedStacks := s.cont.fencedStacks ++ [st.val] } ∧
      (∀ x ∈ u.push, x ∈ s.push) ∧ ∀ k t, (k, t) ∈ s.tenants → k % 2 = st.val → t.fld F.TEN_CONT_STATE ≠ 0 →
        (∀ x ∈ u.push, x.tenant ≠ k) ∧ ∀ x ∈ s.entriesOf k, (u.entry x).fullReq = true ∧ (u.entry x).clean = []) ∧
    (s.ringState c b = 0 →
      let n := min 255 (s.fld (ringFaults c b) + 1)
      ∃ u, exec (.fabricRingFault c b cause) s = .next u ∧ u.fld (ringCause c b) = cause.toNat ∧
        u.fld (ringFaults c b) = n ∧ more u (F.SEC_RING_FAULTS_COUNT c) ∧ u.bit ⟨0x4C / 4, c, 1⟩ = true ∧
        u.ringState c b = (if s.bit F.MOD_CONT_CTRL_AUTO_READMIT = true ∧ n ≤ s.fld F.MOD_CONT_CTRL_READMIT_LIMIT
          then 2 else 1) ∧ u.ringState c (!b) = s.ringState c (!b) ∧ u.tenants = s.tenants) ∧
    (s.estate e = 3 → ∃ u, exec (.selftestDone (.engine e) pass) s = .next u ∧ u.tenants = s.tenants ∧
      (pass = true → u.estate e = 2 ∧ u.bit (F.BNK_STATUS_CLEARING e) = true ∧ u.bit (F.BNK_STATUS_CLEAR_DONE e) = false) ∧
      (pass = false → u.estate e = 5 ∧ u.fld (F.RNG_FAULT_CAUSE e) = 5)) ∧
    (s.estate e = 7 → s.cont.starting = true → s.cont.startedOnce = false → e.val ∈ s.cont.startSet →
      exec (.selftestDone (.engine e) true) s = .next s ∧
      ∃ u, exec (.selftestDone (.engine e) false) s = .next u ∧ u.estate e = 5 ∧ u.fld (F.RNG_FAULT_CAUSE e) = 5 ∧
        u.tenants = s.tenants) ∧
    (s.ringState c b = 2 → .ring c b ∉ s.cont.readmitting → ∃ u, exec (.selftestDone (.ring c b) pass) s = .next u ∧
      (pass = true → u = { s with cont := { s.cont with
        readmitting := s.cont.readmitting ++ [.ring c b], failedTests := s.cont.failedTests.erase (.ring c b) } }) ∧
      (pass = false → u.ringState c b = 1 ∧ .ring c b ∈ u.cont.failedTests ∧ u.tenants = s.tenants)) ∧
    (s.estate e = 4 → s.cont.starting = false ∨ e.val ∉ s.cont.startSet → ∃ u, exec (.engineReadmitted (.engine e)) s = .next u ∧ u.estate e = 0 ∧
      u.bit (F.ENG_STATUS_INTERNAL_ERR e) = false ∧ u.bit (F.ENG_STATUS_LOCKED e) = true ∧
      u.bit ⟨(0x2030 + 4 * (e.val / 32)) / 4, e.val % 32, 1⟩ = false ∧
      (∀ p ∈ s.allEngPaths e, (u.credit p).held = creditMax p) ∧ u.tenants = s.tenants) ∧
    (.ring c b ∈ s.cont.readmitting → ∃ u, exec (.engineReadmitted (.ring c b)) s = .next u ∧ u.ringState c b = 0 ∧
      (∀ p ∈ ringPaths c b, (u.credit p).held = creditMax p) ∧ u.cont.readmitting = s.cont.readmitting.erase (.ring c b) ∧
      u.tenants = s.tenants) ∧
    (s.power.mode = .start ∨ s.power.mode = .on → ∃ u, exec (.clockFault d) s = .next u ∧
      (d.val = 80 ∨ 98 ≤ d.val → u.power.mode = .start ∧ u.fld F.PWR_LAST_START_CAUSE = 2 ∧
        u.fld F.PWR_LAST_START_DOMAIN = d.val ∧ u.hbm = []) ∧
      (d.val ≠ 80 → d.val < 98 → more u F.CLK_LOCK_LOSSES_COUNT ∧ u.bit F.CLK_STATUS_ALL_LOCKED = false ∧
        u.bit ⟨(0x2020 + 4 * (d.val / 32)) / 4, d.val % 32, 1⟩ = false ∧ u.power = s.power ∧
        (d.val < 72 → u.bit (F.ENG_STATUS_LOCKED d) = false) ∧ (d.val = 81 → 1 ∈ u.cont.fencedStacks) ∧
        (82 ≤ d.val → u.bit (F.PRT_STATUS_LINK_UP (d.val - 82)) = false)))

/-- Failure and recovery of engines and tenants (R13, R22, R23, R284, R286 to R288, R292, R294, R428): an engine that
fails is fenced, its credits are gone, and its tenants roll back to their mirrors; a failure during a supervisor
takeover waits; a tenant is promoted to a takeover context, or given a new slot. That an engine in retention sends idle
heartbeats and can be declared failed, and the MOVES count of a planned move that re-homes a tenant, are the model's
choices (notes/assumptions/65.md and 85.md). -/
def Sys2Proof.Rule.Failover : Prop :=
  ∀ (e : Eng) (credit : Bool) (k : Tn) (pick : Nat) (s : State),
    let t := s.tenant k
    let busy := s.bit F.MOD_CONT_STATUS_SUP_TAKEOVER
    let up := s.estate e = 0 ∨ s.estate e = 6
    let due := t.fld F.TEN_CONT_STATE = 2 ∧ t.waitPromotion = false ∧ ∃ r, t.engine = some r ∧ s.estate r = 0
    let held (i : Instr) : State := { s with cont := { s.cont with heldFailures := s.cont.heldFailures ++ [i] } }
    let fenced (u : State) (cause : Nat) : Prop := u.estate e = 1 ∧ u.fld (F.RNG_FAULT_CAUSE e) = cause ∧
      u.fld (F.RNG_FAULT_COUNT e) = min 255 (s.fld (F.RNG_FAULT_COUNT e) + 1) ∧
      (∀ p ∈ s.allEngPaths e, (u.credit p).held = 0) ∧
      ∀ k, (s.tenant k).engine = some e.val → (s.tenant k).waitPromotion = false → (s.tenant k).mengine ≠ some e.val →
        Rule.Failed (s.tenant k) (u.tenant k)
    (up → ∃ u, exec (.idleHeartbeat e) s = .next u ∧
      Rule.Block s u [(F.ENG_HEARTBEATS_COUNT e).key, (F.ENG_STATUS_HB_IDLE e).key] ∧
      u.bit (F.ENG_STATUS_HB_IDLE e) = true ∧
      u.word (F.ENG_HEARTBEATS_COUNT e).key = satInc (s.word (F.ENG_HEARTBEATS_COUNT e).key)) ∧
    (up → busy = false → s.Inv → s.bit F.MOD_CONT_CTRL_AUTO_READMIT = false →
      (∃ u, exec (.internalError e) s = .next u ∧ u.bit (F.ENG_STATUS_INTERNAL_ERR e) = true ∧
        u.bit ⟨(0x40 + 4 * (e.val / 32)) / 4, e.val % 32, 1⟩ = true ∧ fenced u 2) ∧
      ∃ u, exec (.engineFailed e credit) s = .next u ∧ fenced u (if credit then 3 else 1)) ∧
    (busy = true → exec (.engineFailed e credit) s = .next (held (.engineFailed e credit)) ∧
      (due → exec (.tenantFailed k) s = .next (held (.tenantFailed k))) ∧
      (up → ∃ u, exec (.internalError e) s = .next u ∧ u.cont = (held (.internalError e)).cont ∧ u.tenants = s.tenants ∧
        u.bit (F.ENG_STATUS_INTERNAL_ERR e) = true)) ∧
    (¬due → exec (.tenantFailed k) s = .next s) ∧
    (busy = false → due → ∃ u, exec (.tenantFailed k) s = .next u ∧ Rule.Failed t (u.tenant k) ∧ Rule.Others s u k) ∧
    (busy = false → t.waitPromotion = true → ∀ m, t.mengine = some m →
      (s.freeTakeover m = [] → ∃ u, exec (.promotion k pick) s = .next u ∧ u.tenants = s.tenants ∧
        ∀ a, Rule.SameWord s u a) ∧
      (s.freeTakeover m ≠ [] → t.resetWait = false → ∃ u x, exec (.promotion k pick) s = .next u ∧ x ∈ s.freeTakeover m ∧
        Rule.Others s u k ∧
        let w := u.tenant k
        w.waitPromotion = false ∧ w.slot = t.mslot ∧ w.bit F.TEN_PLACE_TAKEOVER = true ∧ w.fld F.TEN_PLACE_TCTX = x ∧
          w.mslot = 0x7FF ∧ w.fld F.TEN_MIRROR_MSTATE = 0 ∧ w.core = t.core.retag (Rule.tagNow w) ∧
          w.fld F.TEN_PLACE_PLACEMENT = (t.fld F.TEN_PLACE_PLACEMENT + 1) % 65536 ∧
          w.word F.TEN_PROMOTIONS_COUNT.key = satInc (t.word F.TEN_PROMOTIONS_COUNT.key) ∧
          u.bit (F.RNG_TAKEOVER_BUSY m x) = true ∧ u.fld (F.RNG_TAKEOVER_TENANT m x) = k.val)) ∧
    (busy = false → t.waitPromotion = false → t.fld F.TEN_CONT_STATE = 1 ∨ t.fld F.TEN_CONT_STATE = 5 → 1152 ≤ t.slot →
      (s.homeSlots k = [] → ∃ u, exec (.stoppedTenantReplace k pick) s = .next u ∧ u.tenants = s.tenants ∧
        ∀ a, Rule.SameWord s u a) ∧
      (s.homeSlots k ≠ [] → ∃ u n, exec (.stoppedTenantReplace k pick) s = .next u ∧ n ∈ s.homeSlots k ∧
        (u.tenant k).slot = n ∧ u.homeOcc n = true ∧ Rule.Others s u k ∧
        (u.tenant k).fld F.TEN_CONT_STATE = t.fld F.TEN_CONT_STATE ∧
        ∀ a, memGet (u.tenant k).core.mem a = if 0x10000 ≤ a ∧ a < 0x12000
          then (Rule.nvsBytes s (32 * k.val + (a - 0x10000) / 256)).getD (a % 256) 0 else 0))

/-- Planned moves (R281 to R283, R287, R289): PITCH reserves a slot and warms it, STRIKE moves what a slot holds, of a
mirror by a replacement that warms beside it, and a warm destination is promoted at the ring after, where the mirror may
stay; the tenant's work goes on under its new placement. -/
def Sys2Proof.Rule.PlannedMoves : Prop :=
  ∀ (k : Tn) (n : Fin 1152) (pick : Nat) (s : State),
    let t := s.tenant k
    let rehome := t.bit F.TEN_PLACE_TAKEOVER = false ∨
      (s.bit F.MOD_CONT_CTRL_AUTO_REHOME = true ∧ t.fld F.TEN_MIRROR_MSTATE = 2)
    let reserved (s u : State) (k n : Nat) : Prop := (u.tenant k).move = some ⟨n, 0⟩ ∧
      (u.tenant k).bit F.TEN_CONT_MOVING = true ∧ (u.tenant k).core = (s.tenant k).core ∧
      (u.tenant k).slot = (s.tenant k).slot ∧ u.homeOcc n = true ∧ Rule.Others s u k
    (t.movable = true → rehome → s.homeLegal k n = true → ∃ u, exec (.pitch k n) s = .next u ∧ reserved s u k n) ∧
    (t.movable = true → t.slot = n.val → t.bit F.TEN_PLACE_TAKEOVER = false →
      s.fld (F.RNG_HOME_TENANT (n.val / 16) (n.val % 16)) = k.val → s.homeSlots k ≠ [] →
      ∃ u x, exec (.strike n false pick) s = .next u ∧ x ∈ s.homeSlots k ∧ reserved s u k x) ∧
    (t.movable = true → t.slot = n.val → t.bit F.TEN_PLACE_TAKEOVER = true →
      s.fld (F.RNG_MIRROR_MSTATE (n.val / 16) (n.val % 16)) = 3 →
      s.fld (F.RNG_MIRROR_TENANT (n.val / 16) (n.val % 16)) = k.val → s.homeSlots k ≠ [] →
      ∃ u x, exec (.strike n true pick) s = .next u ∧ x ∈ s.homeSlots k ∧ reserved s u k x) ∧
    (t.mslot = n.val → t.waitPromotion = false → t.mirrorMove = none → s.mirrorOcc n = true →
      s.fld (F.RNG_MIRROR_MSTATE (n.val / 16) (n.val % 16)) ≠ 3 →
      s.fld (F.RNG_MIRROR_TENANT (n.val / 16) (n.val % 16)) = k.val →
      s.mirrorSlots t.runsOn ≠ [] → ∃ u x, exec (.strike n true pick) s = .next u ∧
        x ∈ s.mirrorSlots t.runsOn ∧ (u.tenant k).mirrorMove = some ⟨x, 0⟩ ∧ (u.tenant k).mslot = n.val ∧
        (u.tenant k).mirror = t.mirror ∧ u.mirrorOcc x = true ∧ u.mirrorOcc n = true ∧ Rule.Others s u k) ∧
    (∀ m, t.move = some m → t.waitPromotion = false → t.mirrorMove = none → m.dest < 1152 → t.slot < 1152 →
      t.ring = none → (∀ x, t.mengine = some x → x / 9 ≠ m.dest / 16 / 9 ∧ s.pairCount x (m.dest / 16) ≤ 4) →
      (t.executes = false ∨ (2 ≤ m.rings ∧ t.atRing = true)) → ∃ u, exec (.tenantMoved k) s = .next u ∧
        let w := u.tenant k
        w.slot = m.dest ∧ w.bit F.TEN_PLACE_TAKEOVER = false ∧ w.move = none ∧ w.bit F.TEN_CONT_MOVING = false ∧
          w.core = (if t.resetWait then t.core else t.core.retag (Rule.tagNow w)) ∧
          w.fld F.TEN_PLACE_PLACEMENT = (t.fld F.TEN_PLACE_PLACEMENT + 1) % 65536 ∧
          w.word F.TEN_MOVES_COUNT.key = satInc (t.word F.TEN_MOVES_COUNT.key) ∧ u.homeOcc m.dest = true ∧
          (t.bit F.TEN_PLACE_TAKEOVER = false → t.slot ≠ m.dest → u.homeOcc t.slot = false) ∧
          Rule.Others s u k)

/-- Failover, promotion and planned moves. Both parts are stated above. -/
def Obligations.FailoverAndMoves : Prop := Rule.Failover ∧ Rule.PlannedMoves

/-! ## The block as a whole -/

/-- A step takes the command at the front of the queue and performs it on the state with the rest of the queue. How the
steps of the spec reach the block is the model's choice (notes/assumptions/1.md). -/
def Obligations.StepRunsFront : Prop :=
  ∀ (c : Instr) (rest : List Instr) (s : State),
    step { s with pending := c :: rest } = exec c { s with pending := rest }

/-- With an empty queue wall time passes (the model's choice, notes/assumptions/5.md): a tick and a gate cycle while the
clocks run, the lag of each tenant as R72 defines it, and nothing at all while the module is OFF or DORMANT. That a tenant
which is not RUNNING has a lag of 0 is the model's choice too (notes/assumptions/84.md). -/
def Obligations.StepIdles : Prop :=
  ∀ (s : State), s.pending = [] → ∃ u, step s = .next u ∧ u.pending = [] ∧
    (s.power.mode = .off ∨ s.power.mode = .dormant → u = s) ∧
    (s.power.mode = .start ∨ s.power.mode = .on → u.tick = s.tick + 1 ∧ u.bus.cycle = s.bus.cycle + 1 ∧ u.bus.wrote = [] ∧
      u.hbm = s.hbm ∧ u.power = s.power ∧ (∀ k, (u.tenant k).core = (s.tenant k).core) ∧
      (s.bit F.GTE_KEY_CTRL_KEY_SET = false → s.pins.acts = [] → s.rtc.set = none → u.regs = s.regs)) ∧
    (s.power.mode = .on → ∀ k ∈ s.tenants.map (fun e => e.1),
      (u.tenant k).fld F.TEN_LAG_LAG_LINES =
        if (s.tenant k).fld F.TEN_CONT_STATE = 2 ∧ (s.tenant k).bindTick ≤ s.tick + 1
        then min 65535 ((s.tenant k).lagAt (s.geo k) (s.tick + 1)) else 0)

/-- What the state after reset holds (R30, R75, R279, R422): the tables in canonical form and an empty queue; registers
at their reset values, among them engines and fabric rings OFF, a module that is not READY, and tenants EMPTY in no slot
and without a mirror; senders with their full credits (R17). That HBM reads 0, and that the module starts switched off,
are the model's choices (notes/assumptions/9.md and 11.md). -/
def Obligations.ResetHolds : Prop :=
  State.reset.Inv ∧ State.reset.pending = [] ∧ State.reset.power.mode = .off ∧
    (∀ e : Eng, State.reset.estate e = 7) ∧
    (∀ (c : Sec) (b : Bool), State.reset.ringState c b = 3) ∧
    State.reset.bit F.MOD_STATUS_READY = false ∧ State.reset.fld F.MOD_CONT_CTRL_READMIT_LIMIT = 2 ∧
    (∀ a, State.reset.word a = moduleRst a) ∧
    (∀ k, (State.reset.tenant k).fld F.TEN_CONT_STATE = 0 ∧ (State.reset.tenant k).slot = 0x7FF ∧
      (State.reset.tenant k).mslot = 0x7FF ∧ (State.reset.tenant k).mirror = none) ∧
    (∀ p, State.reset.credit p = ⟨p, creditMax p, 0⟩) ∧
    ∀ a, memGet State.reset.hbm a = 0

/-- Every step keeps the tables in canonical form, so that equal memories and equal registers are equal data: from every
state with the invariant, whatever command stands in front, a step answers a next state that has it, and the queue is the
queue's rest. -/
def Obligations.StepKeepsInv : Prop :=
  ∀ (s : State), s.Inv → ∃ u, step s = .next u ∧ u.Inv ∧ u.pending = s.pending.tail

/-- PAGE_VER (R426): every page that has a layout reads 0x0000_0100, a reserved page 0. A word of the gate cycle in
progress reads as before the write (R49), which for PAGE_VER is the same. -/
def Obligations.PageVersion : Prop :=
  ∀ (m : Msg) (a : Nat) (s s1 : State),
    let i : Instr := .configRead (.gate m) (BitVec.ofNat 32 a)
    Rule.Arrives s s1 i → a < 2 ^ 32 → a % 0x1000 = 4 →
      (pageOf a ≠ none → (∀ w ∈ (Rule.turn s1 (.gate m)).bus.wrote, w.key = a / 4 → w.shown = 0x100) →
        ∃ v : State, exec i s = .next (v.reply m true 0 0x100)) ∧
      (pageOf a = none → ∃ v : State, exec i s = .next (v.reply m true 0 0))
end

