-- ==== Sys2Proof/Laws/Store.lean ====
section
/-! SUPPORT. The laws of tables and of byte memory: what a write keeps, and what is read back after it. -/

namespace Sys2Proof.Machine

theorem Store.wf_iff {α : Type} [DecidableEq α] (d : Nat → α) (s : Store α) :
    Store.wf d s = true ↔ (∀ e ∈ s, e.2 ≠ d e.1) ∧ (s.map fun e => e.1).Pairwise (· < ·) := by
  induction s with
  | nil => simp [Store.wf]
  | cons e r ih =>
    cases r with
    | nil => simp [Store.wf]
    | cons e' r =>
      rw [Store.wf, Bool.and_eq_true, Bool.and_eq_true, ih]
      simp only [decide_eq_true_eq, List.map_cons, List.pairwise_cons, List.mem_cons, List.mem_map]
      constructor
      · rintro ⟨⟨h1, h2⟩, h3, h4, h5⟩
        refine ⟨?_, ?_, h4, h5⟩
        · rintro x (rfl | hx)
          · exact h1
          · exact h3 x hx
        · rintro a (rfl | ⟨x, hx, rfl⟩)
          · exact h2
          · exact Nat.lt_trans h2 (h4 _ ⟨x, hx, rfl⟩)
      · rintro ⟨h1, h2, h3, h4⟩
        exact ⟨⟨h1 _ (.inl rfl), h2 _ (.inl rfl)⟩, fun x hx => h1 x (.inr hx), h3, h4⟩

theorem Store.mem_erase {α : Type} {s : Store α} {k : Nat} {e : Nat × α} :
    e ∈ s.erase k ↔ e ∈ s ∧ e.1 ≠ k := by simp [Store.erase]

theorem Store.erase_sorted {α : Type} {s : Store α} (k : Nat) (h : (s.map fun e => e.1).Pairwise (· < ·)) :
    ((s.erase k).map fun e => e.1).Pairwise (· < ·) := by
  rw [List.pairwise_map] at h ⊢
  exact h.filter _

theorem Store.mem_insert {α : Type} {s : Store α} {k : Nat} {v : α} {e : Nat × α} :
    e ∈ s.insert k v ↔ e = (k, v) ∨ e ∈ s := by
  induction s with
  | nil => simp [Store.insert]
  | cons x r ih =>
    unfold Store.insert
    split
    · simp
    · simp only [List.mem_cons, ih]
      tauto

theorem Store.insert_sorted {α : Type} {s : Store α} {k : Nat} {v : α}
    (h : (s.map fun e => e.1).Pairwise (· < ·)) (hk : ∀ e ∈ s, e.1 ≠ k) :
    ((s.insert k v).map fun e => e.1).Pairwise (· < ·) := by
  induction s with
  | nil => simp [Store.insert]
  | cons x r ih =>
    unfold Store.insert
    simp only [List.map_cons, List.pairwise_cons, List.mem_map] at h
    split
    · next hlt =>
      simp only [List.map_cons, List.pairwise_cons, List.mem_map, List.mem_cons]
      refine ⟨?_, h⟩
      rintro a (rfl | ⟨y, hy, rfl⟩)
      · exact hlt
      · exact Nat.lt_trans hlt (h.1 _ ⟨y, hy, rfl⟩)
    · next hge =>
      simp only [List.map_cons, List.pairwise_cons, List.mem_map]
      refine ⟨?_, ih h.2 fun e he => hk e (.tail _ he)⟩
      rintro a ⟨y, hy, rfl⟩
      rcases Store.mem_insert.1 hy with rfl | hy
      · have := hk x (.head _)
        show x.1 < k
        omega
      · exact h.1 _ ⟨y, hy, rfl⟩

theorem Store.put_sorted {α : Type} {s : Store α} (k : Nat) (v : α) (h : (s.map fun e => e.1).Pairwise (· < ·)) :
    ((s.put k v).map fun e => e.1).Pairwise (· < ·) :=
  Store.insert_sorted (Store.erase_sorted k h) fun _ he => (Store.mem_erase.1 he).2

/-- Setting a value keeps the canonical form. -/
theorem Store.set_wf {α : Type} [DecidableEq α] {d : Nat → α} {s : Store α} (k : Nat) (v : α)
    (h : Store.wf d s) : Store.wf d (Store.set (d k) s k v) := by
  rw [Store.wf_iff] at h ⊢
  unfold Store.set
  split
  · exact ⟨fun e he => h.1 e (Store.mem_erase.1 he).1, Store.erase_sorted k h.2⟩
  · next hv =>
    refine ⟨fun e he => ?_, Store.put_sorted k v h.2⟩
    rcases Store.mem_insert.1 he with rfl | he
    · exact hv
    · exact h.1 e (Store.mem_erase.1 he).1

/-- Removing entries keeps the canonical form. -/
theorem Store.filter_wf {α : Type} [DecidableEq α] {d : Nat → α} {s : Store α} (p : Nat × α → Bool)
    (h : Store.wf d s) : Store.wf d (List.filter p s) := by
  rw [Store.wf_iff] at h ⊢
  refine ⟨fun e he => h.1 e (List.mem_filter.1 he).1, ?_⟩
  have h2 := h.2
  rw [List.pairwise_map] at h2 ⊢
  exact h2.filter _

theorem memSet_wf {m : Memory} (a : Nat) (v : Byte) (h : Memory.wf m) : Memory.wf (memSet m a v) :=
  Store.set_wf (d := fun _ => 0) a v h

theorem memPut_wf {m : Memory} (a : Nat) (bs : List Byte) (h : Memory.wf m) : Memory.wf (memPut m a bs) := by
  induction bs generalizing m a with
  | nil => exact h
  | cons b r ih => exact ih _ (memSet_wf a b h)

theorem memClear_wf {m : Memory} (lo n : Nat) (h : Memory.wf m) : Memory.wf (memClear m lo n) :=
  Store.filter_wf _ h

/-! Reading back. -/

theorem Store.get_insert {α : Type} (d : α) {s : Store α} {k j : Nat} {v : α} (hk : ∀ e ∈ s, e.1 ≠ k) :
    Store.get d (s.insert k v) j = if j = k then v else Store.get d s j := by
  induction s with
  | nil => simp [Store.insert, Store.get, eq_comm]
  | cons x r ih =>
    unfold Store.insert
    split
    · simp [Store.get, eq_comm]
    · have hx := hk x (.head _)
      have := ih fun e he => hk e (.tail _ he)
      simp only [Store.get, this]
      split
      · next h => subst h; simp [hx]
      · rfl

theorem Store.get_erase {α : Type} (d : α) {s : Store α} {k j : Nat} :
    Store.get d (s.erase k) j = if j = k then d else Store.get d s j := by
  induction s with
  | nil => simp [Store.erase, Store.get]
  | cons x r ih =>
    unfold Store.erase at ih ⊢
    rw [List.filter_cons]
    split
    · next h =>
      simp only [Store.get, ih]
      have hx : x.1 ≠ k := by simpa using h
      split
      · next h' => subst h'; simp [hx]
      · rfl
    · next h =>
      have hx : x.1 = k := by simpa using h
      rw [ih]
      simp only [Store.get, hx]
      split
      · rfl
      · next h' => simp [Ne.symm h']

/-- Reading a table after an entry is put. -/
theorem Store.get_put {α : Type} (d : α) (s : Store α) (k j : Nat) (v : α) :
    Store.get d (s.put k v) j = if j = k then v else Store.get d s j := by
  unfold Store.put
  rw [Store.get_insert d fun e he => (Store.mem_erase.1 he).2, Store.get_erase]
  split <;> rfl

/-- Reading a table after a value is set. -/
theorem Store.get_set {α : Type} [DecidableEq α] (d : α) (s : Store α) (k j : Nat) (v : α) :
    Store.get d (Store.set d s k v) j = if j = k then v else Store.get d s j := by
  unfold Store.set
  split
  · next h => rw [Store.get_erase, h]
  · exact Store.get_put d s k j v

/-- The same where each key has its own unlisted value. -/
theorem Store.get_setAt {α : Type} [DecidableEq α] (d : Nat → α) (s : Store α) (k j : Nat) (v : α) :
    Store.get (d j) (Store.set (d k) s k v) j = if j = k then v else Store.get (d j) s j := by
  by_cases h : j = k
  · subst h; exact Store.get_set _ _ _ _ _
  · rw [if_neg h]
    unfold Store.set
    split
    · rw [Store.get_erase, if_neg h]
    · rw [Store.get_put, if_neg h]

@[simp] theorem Store.get_put_self {α : Type} (d : α) (s : Store α) (k : Nat) (v : α) :
    Store.get d (s.put k v) k = v := by simp [Store.get_put]

@[simp] theorem Store.get_set_self {α : Type} [DecidableEq α] (d : α) (s : Store α) (k : Nat) (v : α) :
    Store.get d (Store.set d s k v) k = v := by simp [Store.get_set]

/-- Reading a byte after one is written. -/
theorem memGet_memSet (m : Memory) (a b : Nat) (v : Byte) :
    memGet (memSet m a v) b = if b = a then v else memGet m b := Store.get_set 0 m a b v

end Sys2Proof.Machine
end

