-- ==== Sys2Proof/Laws/Kept.lean ====
section
/-! SUPPORT. What the shared operations over the state keep: the queue of commands, and the canonical form of the tables. -/

namespace Sys2Proof.Machine

/-- The queue of `s` is `q`, and, where `w` holds, its tables are in their canonical form. -/
structure State.Kept (q : List Instr) (w : Prop) (s : State) : Prop where
  pending : s.pending = q
  regs : w → Store.wf moduleRst s.regs
  hbm : w → Memory.wf s.hbm
  tenants : w → (s.tenants.map fun e => e.1).Pairwise (· < ·)

/-- An outcome that is a next state which keeps. -/
def KeptOut (q : List Instr) (w : Prop) (o : Out) : Prop := ∃ t, o = .next t ∧ State.Kept q w t

variable {q : List Instr} {w : Prop}

theorem Kept.next {s : State} (h : s.Kept q w) : KeptOut q w (.next s) := ⟨s, rfl, h⟩

theorem Kept.ite {c : Prop} [Decidable c] {a b : State} (h : a.Kept q w) (h' : b.Kept q w) :
    (if c then a else b).Kept q w := by split <;> assumption

theorem Kept.iteOut {c : Prop} [Decidable c] {a b : Out} (h : KeptOut q w a) (h' : KeptOut q w b) :
    KeptOut q w (if c then a else b) := by split <;> assumption

theorem Kept.foldl {β : Type} {l : List β} {g : State → β → State} {s : State} (h : s.Kept q w)
    (hg : ∀ s x, s.Kept q w → (g s x).Kept q w) : (l.foldl g s).Kept q w := by
  induction l generalizing s with
  | nil => exact h
  | cons x r ih => exact ih (hg s x h)

theorem Kept.foldl1 {β γ : Type} {l : List β} {g : State × γ → β → State × γ} {p : State × γ} (h : p.1.Kept q w)
    (hg : ∀ p x, p.1.Kept q w → (g p x).1.Kept q w) : (l.foldl g p).1.Kept q w := by
  induction l generalizing p with
  | nil => exact h
  | cons x r ih => exact ih (hg p x h)

/-- What `Kept` says, field by field. -/
def KeptF (q : List Instr) (w : Prop) (p : List Instr) (r : Store Word) (n : Store Tenant) (m : Memory) : Prop :=
  p = q ∧ (w → Store.wf moduleRst r) ∧ (w → Memory.wf m) ∧ (w → (n.map fun e => e.1).Pairwise (· < ·))

theorem Kept.mk_iff {p t r n tb m ga bu pr sd cm pu pn en po si nv pa rt fw mt pi pins pw co ec cr mi la sb ac rd ld} :
    (State.mk p t r n tb m ga bu pr sd cm pu pn en po si nv pa rt fw mt pi pins pw co ec cr mi la sb ac rd ld).Kept q w
      ↔ KeptF q w p r n m :=
  ⟨fun h => ⟨h.pending, h.regs, h.hbm, h.tenants⟩, fun h => ⟨h.1, h.2.1, h.2.2.1, h.2.2.2⟩⟩

theorem Kept.toF {s : State} (h : s.Kept q w) : KeptF q w s.pending s.regs s.tenants s.hbm :=
  ⟨h.pending, h.regs, h.hbm, h.tenants⟩

theorem Kept.memFold {β : Type} {l : List β} {g : Memory → β → Memory} {m : Memory} (h : Memory.wf m)
    (hg : ∀ m x, Memory.wf m → Memory.wf (g m x)) : Memory.wf (l.foldl g m) := by
  induction l generalizing m with
  | nil => exact h
  | cons x r ih => exact ih (hg m x h)

theorem Kept.putF {s : State} {a : Nat} {bs : List Byte} (h : s.Kept q w) :
    KeptF q w s.pending s.regs s.tenants (memPut s.hbm a bs) :=
  ⟨h.pending, h.regs, fun c => memPut_wf a bs (h.hbm c), h.tenants⟩

theorem Kept.idState {s : State} (h : s.Kept q w) : State.Kept q w (id s) := h

theorem Kept.pair {α : Type} {s t : State} {a b : α} (h : s.Kept q w) (e : (s, a) = (t, b)) : t.Kept q w := by
  cases e; exact h
theorem Kept.some {s t : State} (h : s.Kept q w) (e : Option.some s = Option.some t) : t.Kept q w := by
  cases e; exact h

variable {s : State}

/-! Ops -/

theorem State.setWord_kept {k : Nat} {v : Word} (h : s.Kept q w) :
    (s.setWord k v).Kept q w :=
  ⟨h.pending, fun c => Store.set_wf k v (h.regs c), h.hbm, h.tenants⟩

theorem State.setFld_kept {a1} {a2} (h : s.Kept q w) :
    (State.setFld s a1 a2).Kept q w := by
  unfold State.setFld
  repeat' first
    | with_reducible assumption
    | with_reducible apply State.setWord_kept

theorem State.setBit_kept {a1} {a2} (h : s.Kept q w) :
    (State.setBit s a1 a2).Kept q w := by
  unfold State.setBit
  repeat' first
    | with_reducible assumption
    | with_reducible apply State.setFld_kept

theorem State.setPort_kept {a1} {a2} (h : s.Kept q w) :
    (State.setPort s a1 a2).Kept q w := by
  unfold State.setPort
  repeat' first
    | with_reducible assumption
    | (simp only [Kept.mk_iff]; with_reducible apply Kept.toF)

theorem State.count_kept {a1} (h : s.Kept q w) :
    (State.count s a1).Kept q w := by
  unfold State.count
  repeat' first
    | with_reducible assumption
    | with_reducible apply State.setWord_kept

theorem State.setEntry_kept {a1} {a2} (h : s.Kept q w) :
    (State.setEntry s a1 a2).Kept q w := by
  unfold State.setEntry
  repeat' first
    | with_reducible assumption
    | (simp only [Kept.mk_iff]; with_reducible apply Kept.toF)

theorem State.countN_kept {a1} {a2} (h : s.Kept q w) :
    (State.countN s a1 a2).Kept q w := by
  unfold State.countN
  repeat' first
    | with_reducible assumption
    | with_reducible apply State.setWord_kept

theorem State.setSdma_kept {a1} {a2} (h : s.Kept q w) :
    (State.setSdma s a1 a2).Kept q w := by
  unfold State.setSdma
  repeat' first
    | with_reducible assumption
    | (simp only [Kept.mk_iff]; with_reducible apply Kept.toF)

theorem State.setTenant_kept {k : Nat} {t : Tenant} (h : s.Kept q w) :
    (s.setTenant k t).Kept q w :=
  ⟨h.pending, h.regs, h.hbm, fun c => Store.put_sorted k t (h.tenants c)⟩

theorem State.countNow_kept {a1} (h : s.Kept q w) :
    (State.countNow s a1).Kept q w := by
  unfold State.countNow
  repeat' first
    | with_reducible assumption
    | (extract_lets +onlyGivenNames x; clear_value x; rename' x => x1)
    | with_reducible apply State.count_kept
    | with_reducible apply Kept.ite
    | (simp only [Kept.mk_iff]; with_reducible apply Kept.toF)

theorem State.onTenant_kept {a1} {a2} (h : s.Kept q w) :
    (State.onTenant s a1 a2).Kept q w := by
  unfold State.onTenant
  repeat' first
    | with_reducible assumption
    | with_reducible apply State.setTenant_kept

theorem State.raiseNow_kept {a1} (h : s.Kept q w) :
    (State.raiseNow s a1).Kept q w := by
  unfold State.raiseNow
  repeat' first
    | with_reducible assumption
    | (extract_lets +onlyGivenNames x; have hx : State.Kept q w x := ?_; (on_goal 2 => unfold x; clear x); clear_value x; rename' x => x1)
    | (extract_lets +onlyGivenNames x; clear_value x; rename' x => x1)
    | with_reducible apply State.setBit_kept
    | (simp only [Kept.mk_iff]; with_reducible apply Kept.toF)

/-! NvsPages -/

theorem State.nvsLevel_kept (h : s.Kept q w) :
    (State.nvsLevel s).Kept q w := by
  unfold State.nvsLevel
  repeat' first
    | with_reducible assumption
    | with_reducible apply State.setFld_kept

theorem State.nvsAdmit_kept (h : s.Kept q w) :
    (State.nvsAdmit s).Kept q w := by
  unfold State.nvsAdmit
  repeat' first
    | with_reducible assumption
    | (extract_lets +onlyGivenNames x; clear_value x; rename' x => x1)
    | with_reducible apply State.nvsLevel_kept
    | with_reducible apply Kept.ite
    | (simp only [Kept.mk_iff]; with_reducible apply Kept.toF)

theorem State.nvsAsk_kept {a1} {a2} (h : s.Kept q w) :
    (State.nvsAsk s a1 a2).Kept q w := by
  unfold State.nvsAsk
  repeat' first
    | with_reducible assumption
    | (extract_lets +onlyGivenNames x; have hx : State.Kept q w x := ?_; (on_goal 2 => unfold x; clear x); clear_value x; rename' x => x1)
    | (extract_lets +onlyGivenNames x; clear_value x; rename' x => x1)
    | with_reducible apply State.count_kept
    | with_reducible apply State.nvsAdmit_kept
    | with_reducible apply Kept.ite
    | (simp only [Kept.mk_iff]; with_reducible apply Kept.toF)

theorem State.nvsRecord_kept {a1} {a2} (h : s.Kept q w) :
    (State.nvsRecord s a1 a2).Kept q w := by
  unfold State.nvsRecord
  repeat' first
    | with_reducible assumption
    | with_reducible apply State.nvsAsk_kept

theorem State.writePage_kept {a1} {a2} {a3} (h : s.Kept q w) :
    (State.writePage s a1 a2 a3).Kept q w := by
  unfold State.writePage
  repeat' first
    | with_reducible assumption
    | (extract_lets +onlyGivenNames x; clear_value x; rename' x => x1)
    | (simp only [Kept.mk_iff]; with_reducible apply Kept.toF)

/-! HostOut -/

theorem State.recordSeq_kept (h : s.Kept q w) :
    (State.recordSeq s).Kept q w := by
  unfold State.recordSeq
  repeat' first
    | with_reducible assumption
    | (extract_lets +onlyGivenNames x; clear_value x; rename' x => x1)
    | with_reducible apply State.nvsRecord_kept
    | with_reducible apply Kept.ite

theorem State.sendB_kept {a1} {a2} (h : s.Kept q w) :
    (State.sendB s a1 a2).Kept q w := by
  unfold State.sendB
  repeat' first
    | with_reducible assumption
    | with_reducible apply State.recordSeq_kept
    | with_reducible apply Kept.ite
    | (simp only [Kept.mk_iff]; with_reducible apply Kept.toF)

theorem State.toHost_kept {a1} {a2} (h : s.Kept q w) :
    (State.toHost s a1 a2).Kept q w := by
  unfold State.toHost
  repeat' first
    | with_reducible assumption
    | with_reducible apply State.sendB_kept
    | (simp only [Kept.mk_iff]; with_reducible apply Kept.toF)
    | split

theorem State.sendEvent_kept {a1} (h : s.Kept q w) :
    (State.sendEvent s a1).Kept q w := by
  unfold State.sendEvent
  repeat' first
    | with_reducible assumption
    | (extract_lets +onlyGivenNames x; have hx : State.Kept q w x := ?_; (on_goal 2 => unfold x; clear x); clear_value x; rename' x => x1)
    | with_reducible apply State.toHost_kept
    | with_reducible apply Kept.ite

theorem State.notify_kept {a1} {a2} (h : s.Kept q w) :
    (State.notify s a1 a2).Kept q w := by
  unfold State.notify
  repeat' first
    | with_reducible assumption
    | (intro)
    | (extract_lets +onlyGivenNames x; clear_value x; rename' x => x1)
    | with_reducible apply State.sendEvent_kept
    | with_reducible apply Kept.foldl

theorem State.answer_kept {a1} {a2} (h : s.Kept q w) :
    (State.answer s a1 a2).Kept q w := by
  unfold State.answer
  repeat' first
    | with_reducible assumption
    | with_reducible apply State.sendB_kept
    | (simp only [Kept.mk_iff]; with_reducible apply Kept.toF)
    | split

theorem State.tell_kept {a1} {a2} (h : s.Kept q w) :
    (State.tell s a1 a2).Kept q w := by
  unfold State.tell
  repeat' first
    | with_reducible assumption
    | with_reducible apply State.notify_kept

theorem State.toHosts_kept {a1} (h : s.Kept q w) :
    (State.toHosts s a1).Kept q w := by
  unfold State.toHosts
  repeat' first
    | with_reducible assumption
    | with_reducible apply State.toHost_kept

end Sys2Proof.Machine
end

