-- ==== Sys2Proof/Laws/KeptEngine.lean ====
section
/-! SUPPORT. The engine commands end in a next state and keep the queue and the canonical form of the tables: one lemma per
operation and one per command. -/

namespace Sys2Proof.Machine

variable {q : List Instr} {w : Prop} {s : State}

/-! Notice -/

theorem State.engNotice_kept {a1} (h : s.Kept q w) :
    (State.engNotice s a1).Kept q w := by
  unfold State.engNotice
  repeat' first
    | with_reducible assumption
    | with_reducible apply State.setBit_kept

theorem State.setEState_kept {a1} {a2} (h : s.Kept q w) :
    (State.setEState s a1 a2).Kept q w := by
  unfold State.setEState
  repeat' first
    | with_reducible assumption
    | (extract_lets +onlyGivenNames x; have hx : State.Kept q w x := ?_; (on_goal 2 => unfold x; clear x); clear_value x; rename' x => x1)
    | with_reducible apply State.setFld_kept
    | with_reducible apply State.setBit_kept
    | with_reducible apply State.engNotice_kept
    | with_reducible apply Kept.ite

theorem State.wakeEngine_kept {a1} (h : s.Kept q w) :
    (State.wakeEngine s a1).Kept q w := by
  unfold State.wakeEngine
  repeat' first
    | with_reducible assumption
    | with_reducible apply State.setBit_kept
    | with_reducible apply State.setEState_kept
    | with_reducible apply Kept.ite

theorem State.grow_kept {a1} (h : s.Kept q w) :
    (State.grow s a1).Kept q w := by
  unfold State.grow
  repeat' first
    | with_reducible assumption
    | (extract_lets +onlyGivenNames x; have hx : State.Kept q w x := ?_; (on_goal 2 => unfold x; clear x); clear_value x; rename' x => x1)
    | (extract_lets +onlyGivenNames x; clear_value x; rename' x => x1)
    | with_reducible apply State.setWord_kept
    | with_reducible apply Kept.ite
    | (simp only [Kept.mk_iff]; with_reducible apply Kept.toF)

theorem State.setLock_kept {a1} {a2} (h : s.Kept q w) :
    (State.setLock s a1 a2).Kept q w := by
  unfold State.setLock
  repeat' first
    | with_reducible assumption
    | (extract_lets +onlyGivenNames x; have hx : State.Kept q w x := ?_; (on_goal 2 => unfold x; clear x); clear_value x; rename' x => x1)
    | with_reducible apply State.setBit_kept

theorem State.secNotice_kept {a1} (h : s.Kept q w) :
    (State.secNotice s a1).Kept q w := by
  unfold State.secNotice
  repeat' first
    | with_reducible assumption
    | with_reducible apply State.setBit_kept

/-! Credits -/

theorem State.setRstEng_kept {a1} {a2} (h : s.Kept q w) :
    (State.setRstEng s a1 a2).Kept q w := by
  unfold State.setRstEng
  repeat' first
    | with_reducible assumption
    | with_reducible apply State.setBit_kept

theorem State.zeroCredits_kept {a1} (h : s.Kept q w) :
    (State.zeroCredits s a1).Kept q w := by
  unfold State.zeroCredits
  repeat' first
    | with_reducible assumption
    | (extract_lets +onlyGivenNames x; clear_value x; rename' x => x1)
    | (simp only [Kept.mk_iff]; with_reducible apply Kept.toF)

theorem State.grantCredits_kept {a1} (h : s.Kept q w) :
    (State.grantCredits s a1).Kept q w := by
  unfold State.grantCredits
  repeat' first
    | with_reducible assumption
    | (simp only [Kept.mk_iff]; with_reducible apply Kept.toF)

theorem State.atZero_kept {a1} (h : s.Kept q w) :
    (State.atZero s a1).Kept q w := by
  unfold State.atZero
  repeat' first
    | with_reducible assumption
    | (extract_lets +onlyGivenNames x; clear_value x; rename' x => x1)
    | with_reducible apply State.count_kept
    | with_reducible apply State.setPort_kept
    | (simp only [Kept.mk_iff]; with_reducible apply Kept.toF)
    | split

theorem State.countPlaced_kept {a1} {a2} (h : s.Kept q w) :
    (State.countPlaced s a1 a2).Kept q w := by
  unfold State.countPlaced
  repeat' first
    | with_reducible assumption
    | with_reducible apply State.count_kept
    | with_reducible apply Kept.ite
    | split

theorem State.setCredit_kept {a1} (h : s.Kept q w) :
    (State.setCredit s a1).Kept q w := by
  unfold State.setCredit
  repeat' first
    | with_reducible assumption
    | (extract_lets +onlyGivenNames x; clear_value x; rename' x => x1)
    | (simp only [Kept.mk_iff]; with_reducible apply Kept.toF)

theorem execFlitSend_kept {a0} {a1} (h : s.Kept q w) :
    KeptOut q w (execFlitSend a0 a1 s) := by
  unfold execFlitSend
  repeat' first
    | with_reducible assumption
    | (extract_lets +onlyGivenNames x; clear_value x; rename' x => x1)
    | with_reducible apply State.atZero_kept
    | with_reducible apply State.countPlaced_kept
    | with_reducible apply State.setCredit_kept
    | with_reducible apply Kept.next
    | with_reducible apply Kept.iteOut
    | split

theorem State.creditOver_kept {a1} (h : s.Kept q w) :
    (State.creditOver s a1).Kept q w := by
  unfold State.creditOver
  repeat' first
    | with_reducible assumption
    | with_reducible apply State.tell_kept
    | with_reducible apply State.secNotice_kept
    | with_reducible apply State.count_kept
    | split

theorem State.countFlit_kept {a1} (h : s.Kept q w) :
    (State.countFlit s a1).Kept q w := by
  unfold State.countFlit
  repeat' first
    | with_reducible assumption
    | with_reducible apply State.count_kept
    | split

/-! EngineLoad -/

theorem State.work_kept {a1} {a2} (h : s.Kept q w) :
    (State.work s a1 a2).Kept q w := by
  unfold State.work
  repeat' first
    | with_reducible assumption
    | (extract_lets +onlyGivenNames x; clear_value x; rename' x => x1)
    | (simp only [Kept.mk_iff]; with_reducible apply Kept.toF)

/-! Cpu -/

theorem State.issued_kept {a1} {a2} (h : s.Kept q w) :
    (State.issued s a1 a2).Kept q w := by
  unfold State.issued
  repeat' first
    | with_reducible assumption
    | with_reducible apply State.work_kept
    | with_reducible apply State.count_kept
    | split

theorem State.afterCpu_kept {a1} {a2} {a3} {a4} (h : s.Kept q w) :
    (State.afterCpu s a1 a2 a3 a4).Kept q w := by
  unfold State.afterCpu
  repeat' first
    | with_reducible assumption
    | (extract_lets +onlyGivenNames x; clear_value x; rename' x => x1)
    | with_reducible apply State.issued_kept
    | with_reducible apply State.setTenant_kept

theorem runCpu_kept {a0} {a1} {a2} {a3} (h : s.Kept q w) :
    KeptOut q w (runCpu a0 a1 a2 a3 s) := by
  unfold runCpu
  repeat' first
    | with_reducible assumption
    | with_reducible apply State.afterCpu_kept
    | with_reducible apply Kept.next
    | split

theorem State.doubleTrap_kept {a1} {a2} {a3} (h : s.Kept q w) :
    (State.doubleTrap s a1 a2 a3).Kept q w := by
  unfold State.doubleTrap
  repeat' first
    | with_reducible assumption
    | (extract_lets +onlyGivenNames x; have hx : State.Kept q w x := ?_; (on_goal 2 => unfold x; clear x); clear_value x; rename' x => x1)
    | (extract_lets +onlyGivenNames x; clear_value x; rename' x => x1)
    | with_reducible apply State.setTenant_kept
    | with_reducible apply State.notify_kept
    | with_reducible apply Kept.ite

theorem State.trap_kept {a1} {a2} {a3} (h : s.Kept q w) :
    (State.trap s a1 a2 a3).Kept q w := by
  unfold State.trap
  repeat' first
    | with_reducible assumption
    | (extract_lets +onlyGivenNames x; clear_value x; rename' x => x1)
    | with_reducible apply State.doubleTrap_kept
    | with_reducible apply State.setTenant_kept
    | with_reducible apply Kept.ite

/-! CpuMove -/

theorem execMov_kept {a0} {a1} {a2} {a3} (h : s.Kept q w) :
    KeptOut q w (execMov a0 a1 a2 a3 s) := by
  unfold execMov
  repeat' first
    | with_reducible assumption
    | with_reducible apply runCpu_kept

theorem execStaw_kept {a0} {a1} {a2} {a3} (h : s.Kept q w) :
    KeptOut q w (execStaw a0 a1 a2 a3 s) := by
  unfold execStaw
  repeat' first
    | with_reducible assumption
    | with_reducible apply runCpu_kept

theorem execLds_kept {a0} {a1} {a2} {a3} (h : s.Kept q w) :
    KeptOut q w (execLds a0 a1 a2 a3 s) := by
  unfold execLds
  repeat' first
    | with_reducible assumption
    | with_reducible apply runCpu_kept

theorem execLdi_kept {a0} {a1} {a2} {a3} (h : s.Kept q w) :
    KeptOut q w (execLdi a0 a1 a2 a3 s) := by
  unfold execLdi
  repeat' first
    | with_reducible assumption
    | with_reducible apply runCpu_kept

theorem execStw_kept {a0} {a1} {a2} {a3} (h : s.Kept q w) :
    KeptOut q w (execStw a0 a1 a2 a3 s) := by
  unfold execStw
  repeat' first
    | with_reducible assumption
    | with_reducible apply runCpu_kept

theorem execMovw_kept {a0} {a1} {a2} {a3} (h : s.Kept q w) :
    KeptOut q w (execMovw a0 a1 a2 a3 s) := by
  unfold execMovw
  repeat' first
    | with_reducible assumption
    | with_reducible apply runCpu_kept

theorem execLdiw_kept {a0} {a1} {a2} {a3} (h : s.Kept q w) :
    KeptOut q w (execLdiw a0 a1 a2 a3 s) := by
  unfold execLdiw
  repeat' first
    | with_reducible assumption
    | with_reducible apply runCpu_kept

theorem execSta_kept {a0} {a1} {a2} {a3} (h : s.Kept q w) :
    KeptOut q w (execSta a0 a1 a2 a3 s) := by
  unfold execSta
  repeat' first
    | with_reducible assumption
    | with_reducible apply runCpu_kept

theorem execLd_kept {a0} {a1} {a2} {a3} (h : s.Kept q w) :
    KeptOut q w (execLd a0 a1 a2 a3 s) := by
  unfold execLd
  repeat' first
    | with_reducible assumption
    | with_reducible apply runCpu_kept

theorem execExg_kept {a0} {a1} {a2} {a3} (h : s.Kept q w) :
    KeptOut q w (execExg a0 a1 a2 a3 s) := by
  unfold execExg
  repeat' first
    | with_reducible assumption
    | with_reducible apply runCpu_kept

theorem execSt_kept {a0} {a1} {a2} {a3} (h : s.Kept q w) :
    KeptOut q w (execSt a0 a1 a2 a3 s) := by
  unfold execSt
  repeat' first
    | with_reducible assumption
    | with_reducible apply runCpu_kept

theorem execLdw_kept {a0} {a1} {a2} {a3} (h : s.Kept q w) :
    KeptOut q w (execLdw a0 a1 a2 a3 s) := by
  unfold execLdw
  repeat' first
    | with_reducible assumption
    | with_reducible apply runCpu_kept

theorem execSts_kept {a0} {a1} {a2} {a3} (h : s.Kept q w) :
    KeptOut q w (execSts a0 a1 a2 a3 s) := by
  unfold execSts
  repeat' first
    | with_reducible assumption
    | with_reducible apply runCpu_kept

theorem execLda_kept {a0} {a1} {a2} {a3} (h : s.Kept q w) :
    KeptOut q w (execLda a0 a1 a2 a3 s) := by
  unfold execLda
  repeat' first
    | with_reducible assumption
    | with_reducible apply runCpu_kept

theorem execLdaw_kept {a0} {a1} {a2} {a3} (h : s.Kept q w) :
    KeptOut q w (execLdaw a0 a1 a2 a3 s) := by
  unfold execLdaw
  repeat' first
    | with_reducible assumption
    | with_reducible apply runCpu_kept

theorem execLdx_kept {a0} {a1} {a2} {a3} {a4} (h : s.Kept q w) :
    KeptOut q w (execLdx a0 a1 a2 a3 a4 s) := by
  unfold execLdx
  repeat' first
    | with_reducible assumption
    | with_reducible apply runCpu_kept

theorem execStx_kept {a0} {a1} {a2} {a3} {a4} (h : s.Kept q w) :
    KeptOut q w (execStx a0 a1 a2 a3 a4 s) := by
  unfold execStx
  repeat' first
    | with_reducible assumption
    | with_reducible apply runCpu_kept

/-! CpuArith8 -/

theorem execOr_kept {a0} {a1} {a2} {a3} (h : s.Kept q w) :
    KeptOut q w (execOr a0 a1 a2 a3 s) := by
  unfold execOr
  repeat' first
    | with_reducible assumption
    | with_reducible apply runCpu_kept

theorem execShl_kept {a0} {a1} {a2} (h : s.Kept q w) :
    KeptOut q w (execShl a0 a1 a2 s) := by
  unfold execShl
  repeat' first
    | with_reducible assumption
    | with_reducible apply runCpu_kept

theorem execCmpi_kept {a0} {a1} {a2} {a3} (h : s.Kept q w) :
    KeptOut q w (execCmpi a0 a1 a2 a3 s) := by
  unfold execCmpi
  repeat' first
    | with_reducible assumption
    | with_reducible apply runCpu_kept

theorem execInc_kept {a0} {a1} {a2} (h : s.Kept q w) :
    KeptOut q w (execInc a0 a1 a2 s) := by
  unfold execInc
  repeat' first
    | with_reducible assumption
    | with_reducible apply runCpu_kept

theorem execAsr_kept {a0} {a1} {a2} (h : s.Kept q w) :
    KeptOut q w (execAsr a0 a1 a2 s) := by
  unfold execAsr
  repeat' first
    | with_reducible assumption
    | with_reducible apply runCpu_kept

theorem execShr_kept {a0} {a1} {a2} (h : s.Kept q w) :
    KeptOut q w (execShr a0 a1 a2 s) := by
  unfold execShr
  repeat' first
    | with_reducible assumption
    | with_reducible apply runCpu_kept

theorem execCmp_kept {a0} {a1} {a2} {a3} (h : s.Kept q w) :
    KeptOut q w (execCmp a0 a1 a2 a3 s) := by
  unfold execCmp
  repeat' first
    | with_reducible assumption
    | with_reducible apply runCpu_kept

theorem execDajS_kept {a0} {a1} (h : s.Kept q w) :
    KeptOut q w (execDajS a0 a1 s) := by
  unfold execDajS
  repeat' first
    | with_reducible assumption
    | with_reducible apply runCpu_kept

theorem execClr_kept {a0} {a1} {a2} (h : s.Kept q w) :
    KeptOut q w (execClr a0 a1 a2 s) := by
  unfold execClr
  repeat' first
    | with_reducible assumption
    | with_reducible apply runCpu_kept

theorem execAddi_kept {a0} {a1} {a2} {a3} (h : s.Kept q w) :
    KeptOut q w (execAddi a0 a1 a2 a3 s) := by
  unfold execAddi
  repeat' first
    | with_reducible assumption
    | with_reducible apply runCpu_kept

theorem execRol_kept {a0} {a1} {a2} (h : s.Kept q w) :
    KeptOut q w (execRol a0 a1 a2 s) := by
  unfold execRol
  repeat' first
    | with_reducible assumption
    | with_reducible apply runCpu_kept

theorem execNeg_kept {a0} {a1} {a2} (h : s.Kept q w) :
    KeptOut q w (execNeg a0 a1 a2 s) := by
  unfold execNeg
  repeat' first
    | with_reducible assumption
    | with_reducible apply runCpu_kept

theorem execAdd_kept {a0} {a1} {a2} {a3} (h : s.Kept q w) :
    KeptOut q w (execAdd a0 a1 a2 a3 s) := by
  unfold execAdd
  repeat' first
    | with_reducible assumption
    | with_reducible apply runCpu_kept

theorem execAdc_kept {a0} {a1} {a2} {a3} (h : s.Kept q w) :
    KeptOut q w (execAdc a0 a1 a2 a3 s) := by
  unfold execAdc
  repeat' first
    | with_reducible assumption
    | with_reducible apply runCpu_kept

theorem execNot_kept {a0} {a1} {a2} (h : s.Kept q w) :
    KeptOut q w (execNot a0 a1 a2 s) := by
  unfold execNot
  repeat' first
    | with_reducible assumption
    | with_reducible apply runCpu_kept

theorem execSub_kept {a0} {a1} {a2} {a3} (h : s.Kept q w) :
    KeptOut q w (execSub a0 a1 a2 a3 s) := by
  unfold execSub
  repeat' first
    | with_reducible assumption
    | with_reducible apply runCpu_kept

theorem execDajA_kept {a0} {a1} (h : s.Kept q w) :
    KeptOut q w (execDajA a0 a1 s) := by
  unfold execDajA
  repeat' first
    | with_reducible assumption
    | with_reducible apply runCpu_kept

theorem execSwapn_kept {a0} {a1} {a2} (h : s.Kept q w) :
    KeptOut q w (execSwapn a0 a1 a2 s) := by
  unfold execSwapn
  repeat' first
    | with_reducible assumption
    | with_reducible apply runCpu_kept

theorem execAndi_kept {a0} {a1} {a2} {a3} (h : s.Kept q w) :
    KeptOut q w (execAndi a0 a1 a2 a3 s) := by
  unfold execAndi
  repeat' first
    | with_reducible assumption
    | with_reducible apply runCpu_kept

theorem execXori_kept {a0} {a1} {a2} {a3} (h : s.Kept q w) :
    KeptOut q w (execXori a0 a1 a2 a3 s) := by
  unfold execXori
  repeat' first
    | with_reducible assumption
    | with_reducible apply runCpu_kept

theorem execAdci_kept {a0} {a1} {a2} {a3} (h : s.Kept q w) :
    KeptOut q w (execAdci a0 a1 a2 a3 s) := by
  unfold execAdci
  repeat' first
    | with_reducible assumption
    | with_reducible apply runCpu_kept

theorem execSbc_kept {a0} {a1} {a2} {a3} (h : s.Kept q w) :
    KeptOut q w (execSbc a0 a1 a2 a3 s) := by
  unfold execSbc
  repeat' first
    | with_reducible assumption
    | with_reducible apply runCpu_kept

theorem execAnd_kept {a0} {a1} {a2} {a3} (h : s.Kept q w) :
    KeptOut q w (execAnd a0 a1 a2 a3 s) := by
  unfold execAnd
  repeat' first
    | with_reducible assumption
    | with_reducible apply runCpu_kept

theorem execXor_kept {a0} {a1} {a2} {a3} (h : s.Kept q w) :
    KeptOut q w (execXor a0 a1 a2 a3 s) := by
  unfold execXor
  repeat' first
    | with_reducible assumption
    | with_reducible apply runCpu_kept

theorem execDec_kept {a0} {a1} {a2} (h : s.Kept q w) :
    KeptOut q w (execDec a0 a1 a2 s) := by
  unfold execDec
  repeat' first
    | with_reducible assumption
    | with_reducible apply runCpu_kept

theorem execRor_kept {a0} {a1} {a2} (h : s.Kept q w) :
    KeptOut q w (execRor a0 a1 a2 s) := by
  unfold execRor
  repeat' first
    | with_reducible assumption
    | with_reducible apply runCpu_kept

theorem execTst_kept {a0} {a1} {a2} (h : s.Kept q w) :
    KeptOut q w (execTst a0 a1 a2 s) := by
  unfold execTst
  repeat' first
    | with_reducible assumption
    | with_reducible apply runCpu_kept

theorem execSubi_kept {a0} {a1} {a2} {a3} (h : s.Kept q w) :
    KeptOut q w (execSubi a0 a1 a2 a3 s) := by
  unfold execSubi
  repeat' first
    | with_reducible assumption
    | with_reducible apply runCpu_kept

theorem execSbci_kept {a0} {a1} {a2} {a3} (h : s.Kept q w) :
    KeptOut q w (execSbci a0 a1 a2 a3 s) := by
  unfold execSbci
  repeat' first
    | with_reducible assumption
    | with_reducible apply runCpu_kept

theorem execOri_kept {a0} {a1} {a2} {a3} (h : s.Kept q w) :
    KeptOut q w (execOri a0 a1 a2 a3 s) := by
  unfold execOri
  repeat' first
    | with_reducible assumption
    | with_reducible apply runCpu_kept

/-! CpuArith16 -/

theorem execCmpw_kept {a0} {a1} {a2} {a3} (h : s.Kept q w) :
    KeptOut q w (execCmpw a0 a1 a2 a3 s) := by
  unfold execCmpw
  repeat' first
    | with_reducible assumption
    | with_reducible apply runCpu_kept

theorem execSelw_kept {a0} {a1} {a2} {a3} {a4} {a5} (h : s.Kept q w) :
    KeptOut q w (execSelw a0 a1 a2 a3 a4 a5 s) := by
  unfold execSelw
  repeat' first
    | with_reducible assumption
    | with_reducible apply runCpu_kept

theorem execAddiw_kept {a0} {a1} {a2} {a3} (h : s.Kept q w) :
    KeptOut q w (execAddiw a0 a1 a2 a3 s) := by
  unfold execAddiw
  repeat' first
    | with_reducible assumption
    | with_reducible apply runCpu_kept

theorem execSel_kept {a0} {a1} {a2} {a3} {a4} {a5} (h : s.Kept q w) :
    KeptOut q w (execSel a0 a1 a2 a3 a4 a5 s) := by
  unfold execSel
  repeat' first
    | with_reducible assumption
    | with_reducible apply runCpu_kept

theorem execMul_kept {a0} {a1} {a2} {a3} {a4} (h : s.Kept q w) :
    KeptOut q w (execMul a0 a1 a2 a3 a4 s) := by
  unfold execMul
  repeat' first
    | with_reducible assumption
    | with_reducible apply runCpu_kept

theorem execCnvbB_kept {a0} {a1} {a2} (h : s.Kept q w) :
    KeptOut q w (execCnvbB a0 a1 a2 s) := by
  unfold execCnvbB
  repeat' first
    | with_reducible assumption
    | with_reducible apply runCpu_kept

theorem execSubp_kept {a0} {a1} {a2} {a3} {a4} {a5} (h : s.Kept q w) :
    KeptOut q w (execSubp a0 a1 a2 a3 a4 a5 s) := by
  unfold execSubp
  repeat' first
    | with_reducible assumption
    | with_reducible apply runCpu_kept

theorem execCmpp_kept {a0} {a1} {a2} {a3} {a4} {a5} (h : s.Kept q w) :
    KeptOut q w (execCmpp a0 a1 a2 a3 a4 a5 s) := by
  unfold execCmpp
  repeat' first
    | with_reducible assumption
    | with_reducible apply runCpu_kept

theorem execSbcw_kept {a0} {a1} {a2} {a3} (h : s.Kept q w) :
    KeptOut q w (execSbcw a0 a1 a2 a3 s) := by
  unfold execSbcw
  repeat' first
    | with_reducible assumption
    | with_reducible apply runCpu_kept

theorem execCnvbD_kept {a0} {a1} {a2} (h : s.Kept q w) :
    KeptOut q w (execCnvbD a0 a1 a2 s) := by
  unfold execCnvbD
  repeat' first
    | with_reducible assumption
    | with_reducible apply runCpu_kept

theorem execDecw_kept {a0} {a1} {a2} (h : s.Kept q w) :
    KeptOut q w (execDecw a0 a1 a2 s) := by
  unfold execDecw
  repeat' first
    | with_reducible assumption
    | with_reducible apply runCpu_kept

theorem execAddp_kept {a0} {a1} {a2} {a3} {a4} {a5} (h : s.Kept q w) :
    KeptOut q w (execAddp a0 a1 a2 a3 a4 a5 s) := by
  unfold execAddp
  repeat' first
    | with_reducible assumption
    | with_reducible apply runCpu_kept

theorem execIncw_kept {a0} {a1} {a2} (h : s.Kept q w) :
    KeptOut q w (execIncw a0 a1 a2 s) := by
  unfold execIncw
  repeat' first
    | with_reducible assumption
    | with_reducible apply runCpu_kept

theorem execExt_kept {a0} {a1} {a2} (h : s.Kept q w) :
    KeptOut q w (execExt a0 a1 a2 s) := by
  unfold execExt
  repeat' first
    | with_reducible assumption
    | with_reducible apply runCpu_kept

theorem execAddw_kept {a0} {a1} {a2} {a3} (h : s.Kept q w) :
    KeptOut q w (execAddw a0 a1 a2 a3 s) := by
  unfold execAddw
  repeat' first
    | with_reducible assumption
    | with_reducible apply runCpu_kept

theorem execAdcw_kept {a0} {a1} {a2} {a3} (h : s.Kept q w) :
    KeptOut q w (execAdcw a0 a1 a2 a3 s) := by
  unfold execAdcw
  repeat' first
    | with_reducible assumption
    | with_reducible apply runCpu_kept

theorem execSubw_kept {a0} {a1} {a2} {a3} (h : s.Kept q w) :
    KeptOut q w (execSubw a0 a1 a2 a3 s) := by
  unfold execSubw
  repeat' first
    | with_reducible assumption
    | with_reducible apply runCpu_kept

theorem execCmpiw_kept {a0} {a1} {a2} {a3} (h : s.Kept q w) :
    KeptOut q w (execCmpiw a0 a1 a2 a3 s) := by
  unfold execCmpiw
  repeat' first
    | with_reducible assumption
    | with_reducible apply runCpu_kept

/-! CpuPointer -/

theorem execLdpi_kept {a0} {a1} {a2} {a3} (h : s.Kept q w) :
    KeptOut q w (execLdpi a0 a1 a2 a3 s) := by
  unfold execLdpi
  repeat' first
    | with_reducible assumption
    | with_reducible apply runCpu_kept

theorem execPopf_kept {a0} {a1} (h : s.Kept q w) :
    KeptOut q w (execPopf a0 a1 s) := by
  unfold execPopf
  repeat' first
    | with_reducible assumption
    | with_reducible apply runCpu_kept

theorem execAdjsp_kept {a0} {a1} {a2} (h : s.Kept q w) :
    KeptOut q w (execAdjsp a0 a1 a2 s) := by
  unfold execAdjsp
  repeat' first
    | with_reducible assumption
    | with_reducible apply runCpu_kept

theorem execStp_kept {a0} {a1} {a2} {a3} {a4} (h : s.Kept q w) :
    KeptOut q w (execStp a0 a1 a2 a3 a4 s) := by
  unfold execStp
  repeat' first
    | with_reducible assumption
    | with_reducible apply runCpu_kept

theorem execAdj_kept {a0} {a1} {a2} {a3} (h : s.Kept q w) :
    KeptOut q w (execAdj a0 a1 a2 a3 s) := by
  unfold execAdj
  repeat' first
    | with_reducible assumption
    | with_reducible apply runCpu_kept

theorem execPop_kept {a0} {a1} {a2} (h : s.Kept q w) :
    KeptOut q w (execPop a0 a1 a2 s) := by
  unfold execPop
  repeat' first
    | with_reducible assumption
    | with_reducible apply runCpu_kept

theorem execPushf_kept {a0} {a1} (h : s.Kept q w) :
    KeptOut q w (execPushf a0 a1 s) := by
  unfold execPushf
  repeat' first
    | with_reducible assumption
    | with_reducible apply runCpu_kept

theorem execPopp_kept {a0} {a1} {a2} (h : s.Kept q w) :
    KeptOut q w (execPopp a0 a1 a2 s) := by
  unfold execPopp
  repeat' first
    | with_reducible assumption
    | with_reducible apply runCpu_kept

theorem execPushw_kept {a0} {a1} {a2} (h : s.Kept q w) :
    KeptOut q w (execPushw a0 a1 a2 s) := by
  unfold execPushw
  repeat' first
    | with_reducible assumption
    | with_reducible apply runCpu_kept

theorem execMovgp_kept {a0} {a1} {a2} {a3} {a4} (h : s.Kept q w) :
    KeptOut q w (execMovgp a0 a1 a2 a3 a4 s) := by
  unfold execMovgp
  repeat' first
    | with_reducible assumption
    | with_reducible apply runCpu_kept

theorem execPopw_kept {a0} {a1} {a2} (h : s.Kept q w) :
    KeptOut q w (execPopw a0 a1 a2 s) := by
  unfold execPopw
  repeat' first
    | with_reducible assumption
    | with_reducible apply runCpu_kept

theorem execPush_kept {a0} {a1} {a2} (h : s.Kept q w) :
    KeptOut q w (execPush a0 a1 a2 s) := by
  unfold execPush
  repeat' first
    | with_reducible assumption
    | with_reducible apply runCpu_kept

theorem execPushp_kept {a0} {a1} {a2} (h : s.Kept q w) :
    KeptOut q w (execPushp a0 a1 a2 s) := by
  unfold execPushp
  repeat' first
    | with_reducible assumption
    | with_reducible apply runCpu_kept

theorem execLdp_kept {a0} {a1} {a2} {a3} {a4} (h : s.Kept q w) :
    KeptOut q w (execLdp a0 a1 a2 a3 a4 s) := by
  unfold execLdp
  repeat' first
    | with_reducible assumption
    | with_reducible apply runCpu_kept

theorem execLdph_kept {a0} {a1} {a2} {a3} (h : s.Kept q w) :
    KeptOut q w (execLdph a0 a1 a2 a3 s) := by
  unfold execLdph
  repeat' first
    | with_reducible assumption
    | with_reducible apply runCpu_kept

theorem execLea_kept {a0} {a1} {a2} {a3} (h : s.Kept q w) :
    KeptOut q w (execLea a0 a1 a2 a3 s) := by
  unfold execLea
  repeat' first
    | with_reducible assumption
    | with_reducible apply runCpu_kept

theorem execPadd_kept {a0} {a1} {a2} {a3} {a4} (h : s.Kept q w) :
    KeptOut q w (execPadd a0 a1 a2 a3 a4 s) := by
  unfold execPadd
  repeat' first
    | with_reducible assumption
    | with_reducible apply runCpu_kept

theorem execMovp_kept {a0} {a1} {a2} {a3} (h : s.Kept q w) :
    KeptOut q w (execMovp a0 a1 a2 a3 s) := by
  unfold execMovp
  repeat' first
    | with_reducible assumption
    | with_reducible apply runCpu_kept

theorem execMovpg_kept {a0} {a1} {a2} {a3} {a4} (h : s.Kept q w) :
    KeptOut q w (execMovpg a0 a1 a2 a3 a4 s) := by
  unfold execMovpg
  repeat' first
    | with_reducible assumption
    | with_reducible apply runCpu_kept

/-! CpuControl -/

theorem execSec_kept {a0} {a1} (h : s.Kept q w) :
    KeptOut q w (execSec a0 a1 s) := by
  unfold execSec
  repeat' first
    | with_reducible assumption
    | with_reducible apply runCpu_kept

theorem execCmc_kept {a0} {a1} (h : s.Kept q w) :
    KeptOut q w (execCmc a0 a1 s) := by
  unfold execCmc
  repeat' first
    | with_reducible assumption
    | with_reducible apply runCpu_kept

theorem execReservedOpcodeTrap_kept {a0} (h : s.Kept q w) :
    KeptOut q w (execReservedOpcodeTrap a0 s) := by
  unfold execReservedOpcodeTrap
  repeat' first
    | with_reducible assumption
    | with_reducible apply State.trap_kept
    | with_reducible apply Kept.next
    | with_reducible apply Kept.iteOut
    | split

theorem execFence_kept {a0} {a1} (h : s.Kept q w) :
    KeptOut q w (execFence a0 a1 s) := by
  unfold execFence
  repeat' first
    | with_reducible assumption
    | with_reducible apply runCpu_kept

theorem execWait_kept {a0} {a1} (h : s.Kept q w) :
    KeptOut q w (execWait a0 a1 s) := by
  unfold execWait
  repeat' first
    | with_reducible assumption
    | with_reducible apply runCpu_kept

theorem execWaitWake_kept {a0} (h : s.Kept q w) :
    KeptOut q w (execWaitWake a0 s) := by
  unfold execWaitWake
  repeat' first
    | with_reducible assumption
    | (extract_lets +onlyGivenNames x; clear_value x; rename' x => x1)
    | with_reducible apply State.setTenant_kept
    | with_reducible apply Kept.next
    | with_reducible apply Kept.iteOut

theorem execInterruptEntry_kept {a0} (h : s.Kept q w) :
    KeptOut q w (execInterruptEntry a0 s) := by
  unfold execInterruptEntry
  repeat' first
    | with_reducible assumption
    | (extract_lets +onlyGivenNames x; clear_value x; rename' x => x1)
    | with_reducible apply State.setTenant_kept
    | with_reducible apply Kept.next
    | split

theorem execBra_kept {a0} {a1} {a2} (h : s.Kept q w) :
    KeptOut q w (execBra a0 a1 a2 s) := by
  unfold execBra
  repeat' first
    | with_reducible assumption
    | with_reducible apply runCpu_kept

theorem execEi_kept {a0} {a1} (h : s.Kept q w) :
    KeptOut q w (execEi a0 a1 s) := by
  unfold execEi
  repeat' first
    | with_reducible assumption
    | with_reducible apply runCpu_kept

theorem execNop_kept {a0} {a1} (h : s.Kept q w) :
    KeptOut q w (execNop a0 a1 s) := by
  unfold execNop
  repeat' first
    | with_reducible assumption
    | with_reducible apply runCpu_kept

theorem execFenceEnd_kept {a0} (h : s.Kept q w) :
    KeptOut q w (execFenceEnd a0 s) := by
  unfold execFenceEnd
  repeat' first
    | with_reducible assumption
    | (extract_lets +onlyGivenNames x; clear_value x; rename' x => x1)
    | with_reducible apply State.setTenant_kept
    | with_reducible apply Kept.next
    | with_reducible apply Kept.iteOut
    | split

theorem execRet_kept {a0} {a1} (h : s.Kept q w) :
    KeptOut q w (execRet a0 a1 s) := by
  unfold execRet
  repeat' first
    | with_reducible assumption
    | with_reducible apply runCpu_kept

theorem execRtt_kept {a0} {a1} (h : s.Kept q w) :
    KeptOut q w (execRtt a0 a1 s) := by
  unfold execRtt
  repeat' first
    | with_reducible assumption
    | with_reducible apply runCpu_kept

theorem execDi_kept {a0} {a1} (h : s.Kept q w) :
    KeptOut q w (execDi a0 a1 s) := by
  unfold execDi
  repeat' first
    | with_reducible assumption
    | with_reducible apply runCpu_kept

theorem execClc_kept {a0} {a1} (h : s.Kept q w) :
    KeptOut q w (execClc a0 a1 s) := by
  unfold execClc
  repeat' first
    | with_reducible assumption
    | with_reducible apply runCpu_kept

theorem execCall_kept {a0} {a1} {a2} (h : s.Kept q w) :
    KeptOut q w (execCall a0 a1 a2 s) := by
  unfold execCall
  repeat' first
    | with_reducible assumption
    | with_reducible apply runCpu_kept

theorem execBrl_kept {a0} {a1} {a2} (h : s.Kept q w) :
    KeptOut q w (execBrl a0 a1 a2 s) := by
  unfold execBrl
  repeat' first
    | with_reducible assumption
    | with_reducible apply runCpu_kept

theorem execJmp_kept {a0} {a1} {a2} (h : s.Kept q w) :
    KeptOut q w (execJmp a0 a1 a2 s) := by
  unfold execJmp
  repeat' first
    | with_reducible assumption
    | with_reducible apply runCpu_kept

theorem execDbnz_kept {a0} {a1} {a2} {a3} (h : s.Kept q w) :
    KeptOut q w (execDbnz a0 a1 a2 a3 s) := by
  unfold execDbnz
  repeat' first
    | with_reducible assumption
    | with_reducible apply runCpu_kept

theorem execFetchFault_kept {a0} (h : s.Kept q w) :
    KeptOut q w (execFetchFault a0 s) := by
  unfold execFetchFault
  repeat' first
    | with_reducible assumption
    | with_reducible apply State.trap_kept
    | with_reducible apply Kept.next
    | with_reducible apply Kept.iteOut
    | split

/-! Pins -/

theorem State.setPioCh_kept {a1} {a2} {a3} (h : s.Kept q w) :
    (State.setPioCh s a1 a2 a3).Kept q w := by
  unfold State.setPioCh
  repeat' first
    | with_reducible assumption
    | (simp only [Kept.mk_iff]; with_reducible apply Kept.toF)

theorem State.flagEdge_kept {a1} {a2} (h : s.Kept q w) :
    (State.flagEdge s a1 a2).Kept q w := by
  unfold State.flagEdge
  repeat' first
    | with_reducible assumption
    | (extract_lets +onlyGivenNames x; clear_value x; rename' x => x1)
    | with_reducible apply State.count_kept
    | with_reducible apply State.setBit_kept
    | with_reducible apply Kept.ite

theorem State.seePin_kept {a1} (h : s.Kept q w) :
    (State.seePin s a1).Kept q w := by
  unfold State.seePin
  repeat' first
    | with_reducible assumption
    | (extract_lets +onlyGivenNames x; clear_value x; rename' x => x1)
    | with_reducible apply State.flagEdge_kept
    | with_reducible apply Kept.ite
    | (simp only [Kept.mk_iff]; with_reducible apply Kept.toF)

theorem State.setMt_kept {a1} {a2} (h : s.Kept q w) :
    (State.setMt s a1 a2).Kept q w := by
  unfold State.setMt
  repeat' first
    | with_reducible assumption
    | (simp only [Kept.mk_iff]; with_reducible apply Kept.toF)

theorem State.inputsMoved_kept {old : State} {is : List Nat} (h : s.Kept q w) :
    (s.inputsMoved old is).Kept q w := by
  unfold State.inputsMoved
  refine Kept.foldl h fun s x h => ?_
  split
  · exact h
  · exact ⟨h.pending, h.regs, h.hbm, h.tenants⟩

theorem State.bankWritten_kept {old : State} {b : Nat} (h : s.Kept q w) :
    (s.bankWritten old b).Kept q w :=
  Kept.foldl (State.inputsMoved_kept h) fun _ _ h => State.seePin_kept h

/-! Miq -/

theorem State.newCycle_kept (h : s.Kept q w) :
    (State.newCycle s).Kept q w := by
  unfold State.newCycle
  repeat' first
    | with_reducible assumption
    | (extract_lets +onlyGivenNames x; clear_value x; rename' x => x1)
    | (simp only [Kept.mk_iff]; with_reducible apply Kept.toF)

theorem State.settle_kept (h : s.Kept q w) :
    (State.settle s).Kept q w := by
  unfold State.settle
  repeat' first
    | with_reducible assumption
    | (extract_lets +onlyGivenNames x; have hx : State.Kept q w x := ?_; (on_goal 2 => unfold x; clear x); clear_value x; rename' x => x1)
    | with_reducible apply State.newCycle_kept
    | (simp only [Kept.mk_iff]; with_reducible apply Kept.toF)

theorem State.sourceEvent_kept {a1} (h : s.Kept q w) :
    (State.sourceEvent s a1).Kept q w := by
  unfold State.sourceEvent
  repeat' first
    | with_reducible assumption
    | (extract_lets +onlyGivenNames x; have hx : State.Kept q w x := ?_; (on_goal 2 => unfold x; clear x); clear_value x; rename' x => x1)
    | (extract_lets +onlyGivenNames x; clear_value x; rename' x => x1)
    | with_reducible apply State.toHost_kept
    | with_reducible apply Kept.ite
    | (simp only [Kept.mk_iff]; with_reducible apply Kept.toF)

theorem State.raiseEvent_kept {a1} (h : s.Kept q w) :
    (State.raiseEvent s a1).Kept q w := by
  unfold State.raiseEvent
  repeat' first
    | with_reducible assumption
    | with_reducible apply State.count_kept
    | with_reducible apply State.sourceEvent_kept
    | (simp only [Kept.mk_iff]; with_reducible apply Kept.toF)

theorem execEvent_kept {a0} (h : s.Kept q w) :
    KeptOut q w (execEvent a0 s) := by
  unfold execEvent
  repeat' first
    | with_reducible assumption
    | with_reducible apply State.raiseEvent_kept
    | with_reducible apply State.settle_kept
    | with_reducible apply Kept.next
    | with_reducible apply Kept.iteOut

theorem State.lanternWake_kept (h : s.Kept q w) :
    (State.lanternWake s).Kept q w := by
  unfold State.lanternWake
  repeat' first
    | with_reducible assumption
    | with_reducible apply State.setFld_kept
    | (simp only [Kept.mk_iff]; with_reducible apply Kept.toF)

theorem State.lanternRecord_kept {a1} (h : s.Kept q w) :
    (State.lanternRecord s a1).Kept q w := by
  unfold State.lanternRecord
  repeat' first
    | with_reducible assumption
    | (intro)
    | (extract_lets +onlyGivenNames x; have hx : State.Kept q w x := ?_; (on_goal 2 => unfold x; clear x); clear_value x; rename' x => x1)
    | with_reducible apply State.setBit_kept
    | with_reducible apply State.setFld_kept
    | with_reducible apply Kept.ite
    | with_reducible apply Kept.foldl
    | split

theorem State.lanternSample_kept (h : s.Kept q w) :
    (State.lanternSample s).Kept q w := by
  unfold State.lanternSample
  repeat' first
    | with_reducible assumption
    | (extract_lets +onlyGivenNames x; clear_value x; rename' x => x1)
    | with_reducible apply State.lanternRecord_kept
    | (simp only [Kept.mk_iff]; with_reducible apply Kept.toF)

/-! PioClock -/

theorem State.pioSync_kept {a1} {a2} (h : s.Kept q w) :
    (State.pioSync s a1 a2).Kept q w := by
  unfold State.pioSync
  repeat' first
    | with_reducible assumption
    | (extract_lets +onlyGivenNames x; clear_value x; rename' x => x1)
    | with_reducible apply State.setPioCh_kept

theorem State.setRun_kept {a1} {a2} {a3} (h : s.Kept q w) :
    (State.setRun s a1 a2 a3).Kept q w := by
  unfold State.setRun
  repeat' first
    | with_reducible assumption
    | (extract_lets +onlyGivenNames x; have hx : State.Kept q w x := ?_; (on_goal 2 => unfold x; clear x); clear_value x; rename' x => x1)
    | with_reducible apply State.setBit_kept

theorem State.pioAct_kept {a1} (h : s.Kept q w) :
    (State.pioAct s a1).Kept q w := by
  unfold State.pioAct
  repeat' first
    | with_reducible assumption
    | (extract_lets +onlyGivenNames x; have hx : State.Kept q w x := ?_; (on_goal 2 => unfold x; clear x); clear_value x; rename' x => x1)
    | (extract_lets +onlyGivenNames x; clear_value x; rename' x => x1)
    | with_reducible apply State.pioSync_kept
    | with_reducible apply State.setPioCh_kept
    | with_reducible apply State.setWord_kept
    | with_reducible apply State.setRun_kept
    | with_reducible apply State.setFld_kept
    | split

theorem State.pioEdges_kept {a1} (h : s.Kept q w) :
    (State.pioEdges s a1).Kept q w := by
  unfold State.pioEdges
  repeat' first
    | with_reducible assumption
    | (simp only [Kept.mk_iff]; with_reducible apply Kept.toF)

theorem State.newRotation_kept {a1} (h : s.Kept q w) :
    (State.newRotation s a1).Kept q w := by
  unfold State.newRotation
  repeat' first
    | with_reducible assumption
    | (intro)
    | (extract_lets +onlyGivenNames x; have hx : State.Kept q w x := ?_; (on_goal 2 => unfold x; clear x); clear_value x; rename' x => x1)
    | (extract_lets +onlyGivenNames x; clear_value x; rename' x => x1)
    | with_reducible apply State.pioAct_kept
    | with_reducible apply State.pioEdges_kept
    | with_reducible apply Kept.foldl
    | (simp only [Kept.mk_iff]; with_reducible apply Kept.toF)

/-! Calendar -/

theorem State.rtcAlarm_kept (h : s.Kept q w) :
    (State.rtcAlarm s).Kept q w := by
  unfold State.rtcAlarm
  repeat' first
    | with_reducible assumption
    | (extract_lets +onlyGivenNames x; clear_value x; rename' x => x1)
    | with_reducible apply State.setBit_kept
    | with_reducible apply Kept.ite

theorem State.setCalendar_kept {a1} (h : s.Kept q w) :
    (State.setCalendar s a1).Kept q w := by
  unfold State.setCalendar
  repeat' first
    | with_reducible assumption
    | with_reducible apply State.rtcAlarm_kept
    | with_reducible apply State.setWord_kept

theorem State.rtcTick_kept (h : s.Kept q w) :
    (State.rtcTick s).Kept q w := by
  unfold State.rtcTick
  repeat' first
    | with_reducible assumption
    | (extract_lets +onlyGivenNames x; clear_value x; rename' x => x1)
    | with_reducible apply State.setCalendar_kept
    | (simp only [Kept.mk_iff]; with_reducible apply Kept.toF)
    | split

/-! TenantTime -/

theorem State.sampleReady_kept (h : s.Kept q w) :
    (State.sampleReady s).Kept q w := by
  unfold State.sampleReady
  repeat' first
    | with_reducible assumption
    | (simp only [Kept.mk_iff]; with_reducible apply Kept.toF)

theorem State.advance_kept {a1} (h : s.Kept q w) :
    (State.advance s a1).Kept q w := by
  unfold State.advance
  repeat' first
    | with_reducible assumption
    | (extract_lets +onlyGivenNames x; have hx : State.Kept q w x := ?_; (on_goal 2 => unfold x; clear x); clear_value x; rename' x => x1)
    | with_reducible apply State.rtcTick_kept
    | with_reducible apply State.newRotation_kept
    | with_reducible apply State.sampleReady_kept
    | with_reducible apply State.settle_kept
    | with_reducible apply Kept.ite
    | (simp only [Kept.mk_iff]; with_reducible apply Kept.toF)

theorem State.updateLag_kept {a1} (h : s.Kept q w) :
    (State.updateLag s a1).Kept q w := by
  unfold State.updateLag
  repeat' first
    | with_reducible assumption
    | (extract_lets +onlyGivenNames x; clear_value x; rename' x => x1)
    | with_reducible apply State.setTenant_kept
    | with_reducible apply State.notify_kept
    | with_reducible apply Kept.ite

theorem State.onEngine_kept {t : Tenant} {g : State → Nat → State}
    (h : s.Kept q w) (hg : ∀ s e, s.Kept q w → (g s e).Kept q w) : (s.onEngine t g).Kept q w := by
  unfold State.onEngine
  split
  · exact hg _ _ h
  · exact h

theorem State.closeLine_kept {a1} {a2} (h : s.Kept q w) :
    (State.closeLine s a1 a2).Kept q w := by
  unfold State.closeLine
  repeat' first
    | with_reducible assumption
    | (intro)
    | (extract_lets +onlyGivenNames x; clear_value x; rename' x => x1)
    | with_reducible apply State.onEngine_kept
    | with_reducible apply State.setTenant_kept
    | with_reducible apply State.count_kept
    | with_reducible apply Kept.ite

theorem State.heartbeat_kept {a1} (h : s.Kept q w) :
    (State.heartbeat s a1).Kept q w := by
  unfold State.heartbeat
  repeat' first
    | with_reducible assumption
    | with_reducible apply State.setBit_kept
    | with_reducible apply State.count_kept

theorem State.stopTenant_kept {a1} {a2} (h : s.Kept q w) :
    (State.stopTenant s a1 a2).Kept q w := by
  unfold State.stopTenant
  repeat' first
    | with_reducible assumption
    | (extract_lets +onlyGivenNames x; have hx : State.Kept q w x := ?_; (on_goal 2 => unfold x; clear x); clear_value x; rename' x => x1)
    | with_reducible apply State.updateLag_kept
    | with_reducible apply State.advance_kept
    | with_reducible apply State.setTenant_kept

theorem State.startLine_kept {a1} {a2} {a3} {a4} {a5} (h : s.Kept q w) :
    (State.startLine s a1 a2 a3 a4 a5).Kept q w := by
  unfold State.startLine
  repeat' first
    | with_reducible assumption
    | (extract_lets +onlyGivenNames x; have hx : State.Kept q w x := ?_; (on_goal 2 => unfold x; clear x); clear_value x; rename' x => x1)
    | (extract_lets +onlyGivenNames x; clear_value x; rename' x => x1)
    | with_reducible apply State.updateLag_kept
    | with_reducible apply State.setTenant_kept
    | with_reducible apply State.advance_kept

theorem execTenantFrameStart_kept {a0} {a1} (h : s.Kept q w) :
    KeptOut q w (execTenantFrameStart a0 a1 s) := by
  unfold execTenantFrameStart
  repeat' first
    | with_reducible assumption
    | (extract_lets +onlyGivenNames x; clear_value x; rename' x => x1)
    | with_reducible apply State.stopTenant_kept
    | with_reducible apply State.startLine_kept
    | with_reducible apply Kept.next
    | with_reducible apply Kept.iteOut
    | split

theorem execTenantLineStart_kept {a0} {a1} (h : s.Kept q w) :
    KeptOut q w (execTenantLineStart a0 a1 s) := by
  unfold execTenantLineStart
  repeat' first
    | with_reducible assumption
    | with_reducible apply State.startLine_kept
    | with_reducible apply Kept.next
    | split

theorem execPaceRelease_kept {a0} {a1} (h : s.Kept q w) :
    KeptOut q w (execPaceRelease a0 a1 s) := by
  unfold execPaceRelease
  repeat' first
    | with_reducible assumption
    | (extract_lets +onlyGivenNames x; clear_value x; rename' x => x1)
    | with_reducible apply State.updateLag_kept
    | with_reducible apply State.advance_kept
    | with_reducible apply Kept.next
    | with_reducible apply Kept.iteOut

theorem execRingTake_kept {a0} {a1} (h : s.Kept q w) :
    KeptOut q w (execRingTake a0 a1 s) := by
  unfold execRingTake
  repeat' first
    | with_reducible assumption
    | (intro)
    | (extract_lets +onlyGivenNames x; have hx : State.Kept q w x := ?_; (on_goal 2 => unfold x; clear x); clear_value x; rename' x => x1)
    | (extract_lets +onlyGivenNames x; clear_value x; rename' x => x1)
    | with_reducible apply State.setTenant_kept
    | with_reducible apply State.advance_kept
    | with_reducible apply State.onEngine_kept
    | with_reducible apply State.heartbeat_kept
    | with_reducible apply State.updateLag_kept
    | with_reducible apply State.closeLine_kept
    | with_reducible apply State.count_kept
    | with_reducible apply Kept.next
    | with_reducible apply Kept.iteOut
    | split

/-! StepRows -/

theorem runTrail_kept {a0} {a1} {a2} (h : s.Kept q w) :
    KeptOut q w (runTrail a0 a1 a2 s) := by
  unfold runTrail
  repeat' first
    | with_reducible assumption
    | with_reducible apply State.setTenant_kept
    | with_reducible apply Kept.next
    | with_reducible apply Kept.iteOut
    | split

theorem runEvent_kept {a0} {a1} {a2} (h : s.Kept q w) :
    KeptOut q w (runEvent a0 a1 a2 s) := by
  unfold runEvent
  repeat' first
    | with_reducible assumption
    | with_reducible apply State.setTenant_kept
    | with_reducible apply Kept.next
    | with_reducible apply Kept.iteOut
    | split

theorem execSignal_kept {a0} (h : s.Kept q w) :
    KeptOut q w (execSignal a0 s) := by
  unfold execSignal
  repeat' first
    | with_reducible assumption
    | with_reducible apply runTrail_kept

theorem execWaitLine_kept {a0} (h : s.Kept q w) :
    KeptOut q w (execWaitLine a0 s) := by
  unfold execWaitLine
  repeat' first
    | with_reducible assumption
    | with_reducible apply runTrail_kept

theorem State.setDmaStatus_kept {a1} {a2} {a3} (h : s.Kept q w) :
    (State.setDmaStatus s a1 a2 a3).Kept q w := by
  unfold State.setDmaStatus
  repeat' first
    | with_reducible assumption
    | (intro)
    | with_reducible apply State.setBit_kept
    | with_reducible apply Kept.foldl

theorem execDmaResumed_kept {a0} (h : s.Kept q w) :
    KeptOut q w (execDmaResumed a0 s) := by
  unfold execDmaResumed
  repeat' first
    | with_reducible assumption
    | (intro)
    | (extract_lets +onlyGivenNames x; have hx : State.Kept q w x := ?_; (on_goal 2 => unfold x; clear x); clear_value x; rename' x => x1)
    | (extract_lets +onlyGivenNames x; clear_value x; rename' x => x1)
    | with_reducible apply State.setDmaStatus_kept
    | with_reducible apply State.setBit_kept
    | with_reducible apply State.notify_kept
    | with_reducible apply State.tell_kept
    | with_reducible apply State.setSdma_kept
    | with_reducible apply Kept.next
    | with_reducible apply Kept.iteOut
    | with_reducible apply Kept.foldl

theorem State.suppress_kept {a1} {a2} (h : s.Kept q w) :
    (State.suppress s a1 a2).Kept q w := by
  unfold State.suppress
  repeat' first
    | with_reducible assumption
    | with_reducible apply State.countN_kept
    | split

theorem runBoundary_kept {a0} {a1} (h : s.Kept q w) :
    KeptOut q w (runBoundary a0 a1 s) := by
  unfold runBoundary
  repeat' first
    | with_reducible assumption
    | with_reducible apply State.setTenant_kept
    | with_reducible apply Kept.next
    | split

theorem execBeamCapture_kept {a0} (h : s.Kept q w) :
    KeptOut q w (execBeamCapture a0 s) := by
  unfold execBeamCapture
  repeat' first
    | with_reducible assumption
    | with_reducible apply runBoundary_kept

theorem execTimerClear_kept {a0} {a1} (h : s.Kept q w) :
    KeptOut q w (execTimerClear a0 a1 s) := by
  unfold execTimerClear
  repeat' first
    | with_reducible assumption
    | with_reducible apply runBoundary_kept

theorem runTimer_kept {a0} {a1} {a2} (h : s.Kept q w) :
    KeptOut q w (runTimer a0 a1 a2 s) := by
  unfold runTimer
  repeat' first
    | with_reducible assumption
    | with_reducible apply State.setTenant_kept
    | with_reducible apply Kept.next
    | with_reducible apply Kept.iteOut
    | split

theorem tenantPrescaler_kept {a0} {a1} (h : s.Kept q w) :
    KeptOut q w (tenantPrescaler a0 a1 s) := by
  unfold tenantPrescaler
  repeat' first
    | with_reducible assumption
    | with_reducible apply runTimer_kept

theorem execSwap_kept {a0} {a1} (h : s.Kept q w) :
    KeptOut q w (execSwap a0 a1 s) := by
  unfold execSwap
  repeat' first
    | with_reducible assumption
    | with_reducible apply runBoundary_kept

theorem execLink_kept {a0} (h : s.Kept q w) :
    KeptOut q w (execLink a0 s) := by
  unfold execLink
  repeat' first
    | with_reducible assumption
    | with_reducible apply runTrail_kept

theorem State.tenantWork_kept {a1} {a2} (h : s.Kept q w) :
    (State.tenantWork s a1 a2).Kept q w := by
  unfold State.tenantWork
  repeat' first
    | with_reducible assumption
    | with_reducible apply State.work_kept
    | split

theorem State.endTrailStep_kept {a1} {a2} (h : s.Kept q w) :
    (State.endTrailStep s a1 a2).Kept q w := by
  unfold State.endTrailStep
  repeat' first
    | with_reducible assumption
    | (extract_lets +onlyGivenNames x; clear_value x; rename' x => x1)
    | with_reducible apply State.suppress_kept
    | with_reducible apply State.setTenant_kept
    | with_reducible apply Kept.ite
    | split

theorem runRect_kept {a0} {a1} (h : s.Kept q w) :
    KeptOut q w (runRect a0 a1 s) := by
  unfold runRect
  repeat' first
    | with_reducible assumption
    | (extract_lets +onlyGivenNames x; have hx : State.Kept q w x := ?_; (on_goal 2 => unfold x; clear x); clear_value x; rename' x => x1)
    | (extract_lets +onlyGivenNames x; clear_value x; rename' x => x1)
    | with_reducible apply State.endTrailStep_kept
    | with_reducible apply State.setTenant_kept
    | with_reducible apply State.countN_kept
    | with_reducible apply State.count_kept
    | with_reducible apply Kept.next
    | with_reducible apply Kept.ite
    | with_reducible apply Kept.iteOut
    | split

theorem execQdmGo_kept {a0} {a1} (h : s.Kept q w) :
    KeptOut q w (execQdmGo a0 a1 s) := by
  unfold execQdmGo
  repeat' first
    | with_reducible assumption
    | with_reducible apply runBoundary_kept

theorem execCopy_kept {a0} (h : s.Kept q w) :
    KeptOut q w (execCopy a0 s) := by
  unfold execCopy
  repeat' first
    | with_reducible assumption
    | with_reducible apply runRect_kept

theorem State.freeCh_kept {a1} {a2} {a3} {a4} (h : s.Kept q w) :
    (State.freeCh s a1 a2 a3 a4).Kept q w := by
  unfold State.freeCh
  repeat' first
    | with_reducible assumption
    | with_reducible apply State.setBit_kept
    | with_reducible apply Kept.ite

theorem execBusError_kept {a0} {a1} {a2} (h : s.Kept q w) :
    KeptOut q w (execBusError a0 a1 a2 s) := by
  unfold execBusError
  repeat' first
    | with_reducible assumption
    | (extract_lets +onlyGivenNames x; have hx : State.Kept q w x := ?_; (on_goal 2 => unfold x; clear x); clear_value x; rename' x => x1)
    | (extract_lets +onlyGivenNames x; clear_value x; rename' x => x1)
    | with_reducible apply State.setTenant_kept
    | with_reducible apply State.setSdma_kept
    | with_reducible apply State.setDmaStatus_kept
    | with_reducible apply State.secNotice_kept
    | with_reducible apply State.setBit_kept
    | with_reducible apply State.count_kept
    | with_reducible apply State.tell_kept
    | with_reducible apply Kept.next
    | with_reducible apply Kept.ite
    | with_reducible apply Kept.iteOut
    | split

theorem execTrailStop_kept {a0} (h : s.Kept q w) :
    KeptOut q w (execTrailStop a0 s) := by
  unfold execTrailStop
  repeat' first
    | with_reducible assumption
    | with_reducible apply State.setTenant_kept
    | with_reducible apply Kept.next
    | split

theorem execTimerCountLoad_kept {a0} {a1} {a2} (h : s.Kept q w) :
    KeptOut q w (execTimerCountLoad a0 a1 a2 s) := by
  unfold execTimerCountLoad
  repeat' first
    | with_reducible assumption
    | with_reducible apply runBoundary_kept

theorem State.endBurst_kept {a1} {a2} (h : s.Kept q w) :
    (State.endBurst s a1 a2).Kept q w := by
  unfold State.endBurst
  repeat' first
    | with_reducible assumption
    | (extract_lets +onlyGivenNames x; clear_value x; rename' x => x1)
    | with_reducible apply State.suppress_kept
    | with_reducible apply State.setTenant_kept
    | split

theorem State.correct_kept {a1} {a2} (h : s.Kept q w) :
    (State.correct s a1 a2).Kept q w := by
  unfold State.correct
  repeat' first
    | with_reducible assumption
    | with_reducible apply State.countN_kept
    | with_reducible apply Kept.ite

theorem execDmaBurst_kept {a0} {a1} {a2} (h : s.Kept q w) :
    KeptOut q w (execDmaBurst a0 a1 a2 s) := by
  unfold execDmaBurst
  repeat' first
    | with_reducible assumption
    | (extract_lets +onlyGivenNames x; have hx : State.Kept q w x := ?_; (on_goal 2 => unfold x; clear x); clear_value x; rename' x => x1)
    | (extract_lets +onlyGivenNames x; clear_value x; rename' x => x1)
    | with_reducible apply State.endBurst_kept
    | with_reducible apply State.setBit_kept
    | with_reducible apply State.correct_kept
    | with_reducible apply State.setTenant_kept
    | with_reducible apply State.freeCh_kept
    | with_reducible apply Kept.next
    | with_reducible apply Kept.ite
    | with_reducible apply Kept.iteOut
    | split

theorem execDmaChannelRestart_kept {a0} {a1} {a2} (h : s.Kept q w) :
    KeptOut q w (execDmaChannelRestart a0 a1 a2 s) := by
  unfold execDmaChannelRestart
  repeat' first
    | with_reducible assumption
    | (extract_lets +onlyGivenNames x; have hx : State.Kept q w x := ?_; (on_goal 2 => unfold x; clear x); clear_value x; rename' x => x1)
    | (extract_lets +onlyGivenNames x; clear_value x; rename' x => x1)
    | with_reducible apply State.count_kept
    | with_reducible apply State.setBit_kept
    | with_reducible apply State.setTenant_kept
    | with_reducible apply State.setSdma_kept
    | with_reducible apply State.onTenant_kept
    | with_reducible apply Kept.next
    | with_reducible apply Kept.iteOut
    | split

theorem execDmaChannelAssign_kept {a0} {a1} {a2} (h : s.Kept q w) :
    KeptOut q w (execDmaChannelAssign a0 a1 a2 s) := by
  unfold execDmaChannelAssign
  repeat' first
    | with_reducible assumption
    | (extract_lets +onlyGivenNames x; clear_value x; rename' x => x1)
    | with_reducible apply State.setBit_kept
    | with_reducible apply State.setFld_kept
    | with_reducible apply Kept.next
    | with_reducible apply Kept.iteOut
    | split

theorem execSpriteEvaluation_kept {a0} (h : s.Kept q w) :
    KeptOut q w (execSpriteEvaluation a0 s) := by
  unfold execSpriteEvaluation
  repeat' first
    | with_reducible assumption
    | with_reducible apply runEvent_kept

theorem execRasterEntry_kept {a0} (h : s.Kept q w) :
    KeptOut q w (execRasterEntry a0 s) := by
  unfold execRasterEntry
  repeat' first
    | with_reducible assumption
    | with_reducible apply runEvent_kept

theorem execLineMatch_kept {a0} {a1} (h : s.Kept q w) :
    KeptOut q w (execLineMatch a0 a1 s) := by
  unfold execLineMatch
  repeat' first
    | with_reducible assumption
    | with_reducible apply runEvent_kept

theorem execAudioTick_kept {a0} (h : s.Kept q w) :
    KeptOut q w (execAudioTick a0 s) := by
  unfold execAudioTick
  repeat' first
    | with_reducible assumption
    | with_reducible apply runEvent_kept
    | with_reducible apply State.tenantWork_kept
    | with_reducible apply Kept.next
    | with_reducible apply Kept.iteOut

theorem execKeyon_kept {a0} {a1} (h : s.Kept q w) :
    KeptOut q w (execKeyon a0 a1 s) := by
  unfold execKeyon
  repeat' first
    | with_reducible assumption
    | with_reducible apply runBoundary_kept

theorem execKeyoff_kept {a0} {a1} (h : s.Kept q w) :
    KeptOut q w (execKeyoff a0 a1 s) := by
  unfold execKeyoff
  repeat' first
    | with_reducible assumption
    | with_reducible apply runBoundary_kept

theorem execBltGo_kept {a0} {a1} (h : s.Kept q w) :
    KeptOut q w (execBltGo a0 a1 s) := by
  unfold execBltGo
  repeat' first
    | with_reducible assumption
    | with_reducible apply runBoundary_kept

theorem execEnd_kept {a0} (h : s.Kept q w) :
    KeptOut q w (execEnd a0 s) := by
  unfold execEnd
  repeat' first
    | with_reducible assumption
    | with_reducible apply runTrail_kept

theorem execFill_kept {a0} (h : s.Kept q w) :
    KeptOut q w (execFill a0 s) := by
  unfold execFill
  repeat' first
    | with_reducible assumption
    | with_reducible apply runRect_kept

theorem execCopykey_kept {a0} (h : s.Kept q w) :
    KeptOut q w (execCopykey a0 s) := by
  unfold execCopykey
  repeat' first
    | with_reducible assumption
    | with_reducible apply runRect_kept

theorem execXform_kept {a0} (h : s.Kept q w) :
    KeptOut q w (execXform a0 s) := by
  unfold execXform
  repeat' first
    | with_reducible assumption
    | with_reducible apply runRect_kept

theorem execQuickDmaTransfer_kept {a0} (h : s.Kept q w) :
    KeptOut q w (execQuickDmaTransfer a0 s) := by
  unfold execQuickDmaTransfer
  repeat' first
    | with_reducible assumption
    | (extract_lets +onlyGivenNames x; clear_value x; rename' x => x1)
    | with_reducible apply State.suppress_kept
    | with_reducible apply State.setTenant_kept
    | with_reducible apply runEvent_kept
    | with_reducible apply Kept.next
    | with_reducible apply Kept.iteOut
    | split

theorem execDmaGo_kept {a0} {a1} {a2} (h : s.Kept q w) :
    KeptOut q w (execDmaGo a0 a1 a2 s) := by
  unfold execDmaGo
  repeat' first
    | with_reducible assumption
    | with_reducible apply runBoundary_kept

theorem execTimerWrap_kept {a0} {a1} (h : s.Kept q w) :
    KeptOut q w (execTimerWrap a0 a1 s) := by
  unfold execTimerWrap
  repeat' first
    | with_reducible assumption
    | with_reducible apply runTimer_kept

theorem execTimerCountRead_kept {a0} {a1} (h : s.Kept q w) :
    KeptOut q w (execTimerCountRead a0 a1 s) := by
  unfold execTimerCountRead
  repeat' first
    | with_reducible assumption
    | with_reducible apply runBoundary_kept

/-! Video -/

theorem execLineRender_kept {a0} (h : s.Kept q w) :
    KeptOut q w (execLineRender a0 s) := by
  unfold execLineRender
  repeat' first
    | with_reducible assumption
    | with_reducible apply State.work_kept
    | with_reducible apply State.setTenant_kept
    | with_reducible apply Kept.next
    | split

/-! Stop -/

theorem State.continueTenant_kept {a1} {a2} {a3} (h : s.Kept q w) :
    (State.continueTenant s a1 a2 a3).Kept q w := by
  unfold State.continueTenant
  repeat' first
    | with_reducible assumption
    | (extract_lets +onlyGivenNames x; clear_value x; rename' x => x1)
    | with_reducible apply State.updateLag_kept
    | with_reducible apply State.setTenant_kept

theorem State.resumeTenant_kept {a1} (h : s.Kept q w) :
    (State.resumeTenant s a1).Kept q w := by
  unfold State.resumeTenant
  repeat' first
    | with_reducible assumption
    | with_reducible apply State.continueTenant_kept

theorem State.releaseHold_kept {a1} (h : s.Kept q w) :
    (State.releaseHold s a1).Kept q w := by
  unfold State.releaseHold
  repeat' first
    | with_reducible assumption
    | (extract_lets +onlyGivenNames x; clear_value x; rename' x => x1)
    | with_reducible apply State.setTenant_kept
    | with_reducible apply State.resumeTenant_kept
    | with_reducible apply Kept.ite

theorem State.unparkTenant_kept {a1} (h : s.Kept q w) :
    (State.unparkTenant s a1).Kept q w := by
  unfold State.unparkTenant
  repeat' first
    | with_reducible assumption
    | (intro)
    | (extract_lets +onlyGivenNames x; have hx : State.Kept q w x := ?_; (on_goal 2 => unfold x; clear x); clear_value x; rename' x => x1)
    | (extract_lets +onlyGivenNames x; clear_value x; rename' x => x1)
    | with_reducible apply State.wakeEngine_kept
    | with_reducible apply State.continueTenant_kept
    | with_reducible apply Kept.foldl

end Sys2Proof.Machine
end

