-- ==== Sys2Proof/Laws/KeptModule.lean ====
section
/-! SUPPORT. The commands of the push link, the compositors, the stations, the non-volatile store and the field pins end in a
next state and keep the queue and the canonical form of the tables. -/

namespace Sys2Proof.Machine

variable {q : List Instr} {w : Prop} {s : State}

/-! Push -/

theorem State.dirty_kept {a1} {a2} (h : s.Kept q w) :
    (State.dirty s a1 a2).Kept q w := by
  unfold State.dirty
  repeat' first
    | with_reducible assumption
    | (extract_lets +onlyGivenNames x; clear_value x; rename' x => x1)
    | with_reducible apply State.setEntry_kept

theorem State.discardPort_kept {a1} {a2} (h : s.Kept q w) :
    (State.discardPort s a1 a2).Kept q w := by
  unfold State.discardPort
  repeat' first
    | with_reducible assumption
    | (intro)
    | (extract_lets +onlyGivenNames x; have hx : State.Kept q w x := ?_; (on_goal 2 => unfold x; clear x); clear_value x; rename' x => x1)
    | (extract_lets +onlyGivenNames x; clear_value x; rename' x => x1)
    | with_reducible apply State.setPort_kept
    | with_reducible apply State.dirty_kept
    | with_reducible apply State.countN_kept
    | with_reducible apply Kept.foldl

theorem State.discardEntry_kept {a1} (h : s.Kept q w) :
    (State.discardEntry s a1).Kept q w := by
  unfold State.discardEntry
  repeat' first
    | with_reducible assumption
    | (intro)
    | (extract_lets +onlyGivenNames x; clear_value x; rename' x => x1)
    | with_reducible apply State.setPort_kept
    | with_reducible apply State.countN_kept
    | with_reducible apply State.setEntry_kept
    | with_reducible apply Kept.foldl1
    | (simp only [Kept.mk_iff]; with_reducible apply Kept.toF)

theorem State.setEfld_kept {a1} {a2} {a3} (h : s.Kept q w) :
    (State.setEfld s a1 a2 a3).Kept q w := by
  unfold State.setEfld
  repeat' first
    | with_reducible assumption
    | with_reducible apply State.setFld_kept

theorem State.dirtyAll_kept {a1} (h : s.Kept q w) :
    (State.dirtyAll s a1).Kept q w := by
  unfold State.dirtyAll
  repeat' first
    | with_reducible assumption
    | (extract_lets +onlyGivenNames x; clear_value x; rename' x => x1)
    | with_reducible apply State.setEntry_kept

theorem State.wantFull_kept {a1} (h : s.Kept q w) :
    (State.wantFull s a1).Kept q w := by
  unfold State.wantFull
  repeat' first
    | with_reducible assumption
    | (extract_lets +onlyGivenNames x; clear_value x; rename' x => x1)
    | with_reducible apply State.setEntry_kept

theorem State.ecount_kept {a1} {a2} (h : s.Kept q w) :
    (State.ecount s a1 a2).Kept q w := by
  unfold State.ecount
  repeat' first
    | with_reducible assumption
    | with_reducible apply State.count_kept

theorem State.discardTenant_kept {a1} (h : s.Kept q w) :
    (State.discardTenant s a1).Kept q w := by
  unfold State.discardTenant
  repeat' first
    | with_reducible assumption
    | (intro)
    | (extract_lets +onlyGivenNames x; clear_value x; rename' x => x1)
    | with_reducible apply State.setPort_kept
    | with_reducible apply State.setEntry_kept
    | with_reducible apply State.countN_kept
    | with_reducible apply Kept.foldl
    | with_reducible apply Kept.foldl1
    | (simp only [Kept.mk_iff]; with_reducible apply Kept.toF)

theorem State.transmit_kept {a1} {a2} (h : s.Kept q w) :
    (State.transmit s a1 a2).Kept q w := by
  unfold State.transmit
  repeat' first
    | with_reducible assumption
    | (extract_lets +onlyGivenNames x; have hx : State.Kept q w x := ?_; (on_goal 2 => unfold x; clear x); clear_value x; rename' x => x1)
    | (extract_lets +onlyGivenNames x; clear_value x; rename' x => x1)
    | with_reducible apply State.setEfld_kept
    | with_reducible apply State.count_kept
    | with_reducible apply State.setPort_kept
    | with_reducible apply Kept.ite

theorem execFrameTransmit_kept {a0} {a1} (h : s.Kept q w) :
    KeptOut q w (execFrameTransmit a0 a1 s) := by
  unfold execFrameTransmit
  repeat' first
    | with_reducible assumption
    | (extract_lets +onlyGivenNames x; have hx : State.Kept q w x := ?_; (on_goal 2 => unfold x; clear x); clear_value x; rename' x => x1)
    | (extract_lets +onlyGivenNames x; clear_value x; rename' x => x1)
    | with_reducible apply State.advance_kept
    | with_reducible apply State.countN_kept
    | with_reducible apply State.transmit_kept
    | with_reducible apply State.setPort_kept
    | with_reducible apply Kept.next
    | with_reducible apply Kept.iteOut
    | split

theorem State.queueRsp_kept {a1} (h : s.Kept q w) :
    (State.queueRsp s a1).Kept q w := by
  unfold State.queueRsp
  repeat' first
    | with_reducible assumption
    | (extract_lets +onlyGivenNames x; clear_value x; rename' x => x1)
    | with_reducible apply State.setPort_kept
    | with_reducible apply State.count_kept
    | with_reducible apply State.dirty_kept
    | with_reducible apply Kept.ite

theorem State.handRecords_kept {a1} {a2} (h : s.Kept q w) :
    (State.handRecords s a1 a2).Kept q w := by
  unfold State.handRecords
  repeat' first
    | with_reducible assumption
    | (extract_lets +onlyGivenNames x; clear_value x; rename' x => x1)
    | with_reducible apply State.countN_kept
    | with_reducible apply State.setEntry_kept

theorem execRegion_kept (h : s.Kept q w) :
    KeptOut q w (execRegion s) := by
  unfold execRegion
  repeat' first
    | with_reducible assumption
    | (extract_lets +onlyGivenNames x; have hx : State.Kept q w x := ?_; (on_goal 2 => unfold x; clear x); clear_value x; rename' x => x1)
    | (extract_lets +onlyGivenNames x; clear_value x; rename' x => x1)
    | with_reducible apply State.count_kept
    | with_reducible apply State.dirty_kept
    | with_reducible apply State.handRecords_kept
    | with_reducible apply State.queueRsp_kept
    | with_reducible apply Kept.next
    | with_reducible apply Kept.iteOut
    | (simp only [Kept.mk_iff]; with_reducible apply Kept.toF)
    | split

theorem execBeamMark_kept {a0} {a1} (h : s.Kept q w) :
    KeptOut q w (execBeamMark a0 a1 s) := by
  unfold execBeamMark
  repeat' first
    | with_reducible assumption
    | (extract_lets +onlyGivenNames x; have hx : State.Kept q w x := ?_; (on_goal 2 => unfold x; clear x); clear_value x; rename' x => x1)
    | (extract_lets +onlyGivenNames x; clear_value x; rename' x => x1)
    | with_reducible apply State.advance_kept
    | with_reducible apply State.setEntry_kept
    | with_reducible apply State.queueRsp_kept
    | with_reducible apply Kept.next
    | with_reducible apply Kept.iteOut
    | split

/-! Compose -/

theorem State.applyOverlay_kept {k : Nat} (h : s.Kept q w) :
    (s.applyOverlay k).Kept q w := by
  unfold State.applyOverlay
  extract_lets t base hbm tags
  have hm : w → Memory.wf hbm := by
    intro c
    unfold hbm
    apply Kept.memFold (h.hbm c)
    intro m x e
    split
    · exact memPut_wf _ _ e
    · exact e
  clear_value hbm
  exact State.setTenant_kept ⟨h.pending, h.regs, hm, h.tenants⟩

theorem State.startEntry_kept {a1} {a2} {a3} {a4} (h : s.Kept q w) :
    (State.startEntry s a1 a2 a3 a4).Kept q w := by
  unfold State.startEntry
  repeat' first
    | with_reducible assumption
    | (extract_lets +onlyGivenNames x; have hx : State.Kept q w x := ?_; (on_goal 2 => unfold x; clear x); clear_value x; rename' x => x1)
    | (extract_lets +onlyGivenNames x; clear_value x; rename' x => x1)
    | with_reducible apply State.setEfld_kept
    | with_reducible apply State.setEntry_kept
    | with_reducible apply State.queueRsp_kept
    | with_reducible apply Kept.ite

theorem State.decideOverlay_kept {a1} (h : s.Kept q w) :
    (State.decideOverlay s a1).Kept q w := by
  unfold State.decideOverlay
  repeat' first
    | with_reducible assumption
    | (extract_lets +onlyGivenNames x; have hx : State.Kept q w x := ?_; (on_goal 2 => unfold x; clear x); clear_value x; rename' x => x1)
    | (extract_lets +onlyGivenNames x; clear_value x; rename' x => x1)
    | with_reducible apply State.setTenant_kept
    | with_reducible apply State.tell_kept
    | with_reducible apply Kept.ite

theorem State.countStalls_kept {a1} (h : s.Kept q w) :
    (State.countStalls s a1).Kept q w := by
  unfold State.countStalls
  repeat' first
    | with_reducible assumption
    | (intro)
    | (extract_lets +onlyGivenNames x; clear_value x; rename' x => x1)
    | with_reducible apply State.count_kept
    | with_reducible apply State.setTenant_kept
    | with_reducible apply Kept.ite
    | with_reducible apply Kept.foldl

theorem State.toPreviews_kept {a1} {a2} {a3} (h : s.Kept q w) :
    (State.toPreviews s a1 a2 a3).Kept q w := by
  unfold State.toPreviews
  repeat' first
    | with_reducible assumption
    | (intro)
    | with_reducible apply State.toHost_kept
    | with_reducible apply Kept.foldl

theorem State.previewFrame_kept {a1} {a2} (h : s.Kept q w) :
    (State.previewFrame s a1 a2).Kept q w := by
  unfold State.previewFrame
  repeat' first
    | with_reducible assumption
    | (intro)
    | (extract_lets +onlyGivenNames x; have hx : State.Kept q w x := ?_; (on_goal 2 => unfold x; clear x); clear_value x; rename' x => x1)
    | (extract_lets +onlyGivenNames x; clear_value x; rename' x => x1)
    | with_reducible apply State.toPreviews_kept
    | with_reducible apply Kept.foldl
    | (simp only [Kept.mk_iff]; with_reducible apply Kept.toF)

theorem State.openFrame_kept {a1} {a2} (h : s.Kept q w) :
    (State.openFrame s a1 a2).Kept q w := by
  unfold State.openFrame
  repeat' first
    | with_reducible assumption
    | (intro)
    | (extract_lets +onlyGivenNames x; have hx : State.Kept q w x := ?_; (on_goal 2 => unfold x; clear x); clear_value x; rename' x => x1)
    | with_reducible apply State.previewFrame_kept
    | with_reducible apply State.onTenant_kept
    | with_reducible apply State.decideOverlay_kept
    | with_reducible apply State.applyOverlay_kept
    | with_reducible apply State.setTenant_kept
    | with_reducible apply State.startEntry_kept
    | with_reducible apply Kept.ite
    | with_reducible apply Kept.foldl

theorem State.overlayError_kept {a1} {a2} (h : s.Kept q w) :
    (State.overlayError s a1 a2).Kept q w := by
  unfold State.overlayError
  repeat' first
    | with_reducible assumption
    | with_reducible apply State.notify_kept
    | with_reducible apply State.count_kept

theorem State.compose_kept {a1} {a2} {a3} {a4} {a5} {a6} (h : s.Kept q w) :
    (State.compose s a1 a2 a3 a4 a5 a6).Kept q w := by
  unfold State.compose
  repeat' first
    | with_reducible assumption
    | (intro)
    | (extract_lets +onlyGivenNames x; have hx : State.Kept q w x := ?_; (on_goal 2 => unfold x; clear x); clear_value x; rename' x => x1)
    | (extract_lets +onlyGivenNames x; clear_value x; rename' x => x1)
    | with_reducible apply State.overlayError_kept
    | with_reducible apply Kept.foldl
    | (simp only [Kept.mk_iff]; with_reducible apply Kept.putF)

theorem State.bandItems_kept {a1} {a2} {a3} {a4} {a5} (h : s.Kept q w) :
    (State.bandItems s a1 a2 a3 a4 a5).Kept q w := by
  unfold State.bandItems
  repeat' first
    | with_reducible assumption
    | (extract_lets +onlyGivenNames x; clear_value x; rename' x => x1)
    | with_reducible apply State.setEntry_kept
    | (simp only [Kept.mk_iff]; with_reducible apply Kept.toF)

theorem State.closeBand_kept {a1} {a2} {a3} (h : s.Kept q w) :
    (State.closeBand s a1 a2 a3).Kept q w := by
  unfold State.closeBand
  repeat' first
    | with_reducible assumption
    | (intro)
    | (extract_lets +onlyGivenNames x; clear_value x; rename' x => x1)
    | with_reducible apply State.bandItems_kept
    | with_reducible apply Kept.foldl

theorem execComposeLine_kept {a0} {a1} (h : s.Kept q w) :
    KeptOut q w (execComposeLine a0 a1 s) := by
  unfold execComposeLine
  repeat' first
    | with_reducible assumption
    | (extract_lets +onlyGivenNames x; have hx : State.Kept q w x := ?_; (on_goal 2 => unfold x; clear x); clear_value x; rename' x => x1)
    | (extract_lets +onlyGivenNames x; clear_value x; rename' x => x1)
    | with_reducible apply State.countStalls_kept
    | with_reducible apply State.onTenant_kept
    | with_reducible apply State.openFrame_kept
    | with_reducible apply State.count_kept
    | with_reducible apply State.compose_kept
    | with_reducible apply State.closeBand_kept
    | with_reducible apply Kept.next
    | with_reducible apply Kept.ite
    | with_reducible apply Kept.iteOut
    | (simp only [Kept.mk_iff]; with_reducible apply Kept.toF)
    | split

/-! Router -/

theorem State.sinkSwapEffect_kept {a1} (h : s.Kept q w) :
    (State.sinkSwapEffect s a1).Kept q w := by
  unfold State.sinkSwapEffect
  repeat' first
    | with_reducible assumption
    | with_reducible apply State.setBit_kept
    | with_reducible apply Kept.ite

theorem State.setSink_kept {a1} {a2} (h : s.Kept q w) :
    (State.setSink s a1 a2).Kept q w := by
  unfold State.setSink
  repeat' first
    | with_reducible assumption
    | (simp only [Kept.mk_iff]; with_reducible apply Kept.toF)

theorem State.sinkStep_kept {a1} {a2} (h : s.Kept q w) :
    (State.sinkStep s a1 a2).Kept q w := by
  unfold State.sinkStep
  repeat' first
    | with_reducible assumption
    | (extract_lets +onlyGivenNames x; have hx : State.Kept q w x := ?_; (on_goal 2 => unfold x; clear x); clear_value x; rename' x => x1)
    | (extract_lets +onlyGivenNames x; clear_value x; rename' x => x1)
    | with_reducible apply State.sinkSwapEffect_kept
    | with_reducible apply State.setSink_kept
    | with_reducible apply State.countN_kept

theorem State.sendAudio_kept {a1} {a2} (h : s.Kept q w) :
    (State.sendAudio s a1 a2).Kept q w := by
  unfold State.sendAudio
  repeat' first
    | with_reducible assumption
    | (intro)
    | (extract_lets +onlyGivenNames x; have hx : State.Kept q w x := ?_; (on_goal 2 => unfold x; clear x); clear_value x; rename' x => x1)
    | (extract_lets +onlyGivenNames x; clear_value x; rename' x => x1)
    | with_reducible apply State.queueRsp_kept
    | with_reducible apply State.toPreviews_kept
    | with_reducible apply Kept.foldl

theorem State.sendBlocks_kept {a1} (h : s.Kept q w) :
    (State.sendBlocks s a1).Kept q w := by
  unfold State.sendBlocks
  repeat' first
    | with_reducible assumption
    | (intro)
    | (extract_lets +onlyGivenNames x; have hx : State.Kept q w x := ?_; (on_goal 2 => unfold x; clear x); clear_value x; rename' x => x1)
    | (extract_lets +onlyGivenNames x; clear_value x; rename' x => x1)
    | with_reducible apply State.sendAudio_kept
    | with_reducible apply State.onTenant_kept
    | with_reducible apply Kept.foldl

theorem execSinkSample_kept {a0} {a1} (h : s.Kept q w) :
    KeptOut q w (execSinkSample a0 a1 s) := by
  unfold execSinkSample
  repeat' first
    | with_reducible assumption
    | (extract_lets +onlyGivenNames x; clear_value x; rename' x => x1)
    | with_reducible apply State.sinkStep_kept
    | with_reducible apply State.advance_kept
    | with_reducible apply Kept.next
    | with_reducible apply Kept.iteOut

theorem execRingCommit_kept {a0} (h : s.Kept q w) :
    KeptOut q w (execRingCommit a0 s) := by
  unfold execRingCommit
  repeat' first
    | with_reducible assumption
    | (intro)
    | (extract_lets +onlyGivenNames x; have hx : State.Kept q w x := ?_; (on_goal 2 => unfold x; clear x); clear_value x; rename' x => x1)
    | (extract_lets +onlyGivenNames x; clear_value x; rename' x => x1)
    | with_reducible apply State.setTenant_kept
    | with_reducible apply State.onEngine_kept
    | with_reducible apply State.count_kept
    | with_reducible apply State.sendBlocks_kept
    | with_reducible apply Kept.next
    | with_reducible apply Kept.ite
    | split

/-! Station -/

theorem State.sendFrame_kept {a1} {a2} (h : s.Kept q w) :
    (State.sendFrame s a1 a2).Kept q w := by
  unfold State.sendFrame
  repeat' first
    | with_reducible assumption
    | (extract_lets +onlyGivenNames x; clear_value x; rename' x => x1)
    | with_reducible apply State.count_kept
    | with_reducible apply State.setPort_kept

theorem execSyncSend_kept {a0} {a1} (h : s.Kept q w) :
    KeptOut q w (execSyncSend a0 a1 s) := by
  unfold execSyncSend
  repeat' first
    | with_reducible assumption
    | (extract_lets +onlyGivenNames x; have hx : State.Kept q w x := ?_; (on_goal 2 => unfold x; clear x); clear_value x; rename' x => x1)
    | (extract_lets +onlyGivenNames x; clear_value x; rename' x => x1)
    | with_reducible apply State.advance_kept
    | with_reducible apply State.setPort_kept
    | with_reducible apply State.sendFrame_kept
    | with_reducible apply State.count_kept
    | with_reducible apply Kept.next
    | with_reducible apply Kept.iteOut

theorem State.portLost_kept {a1} (h : s.Kept q w) :
    (State.portLost s a1).Kept q w := by
  unfold State.portLost
  repeat' first
    | with_reducible assumption
    | with_reducible apply State.discardPort_kept

theorem State.checkHold_kept {a1} (h : s.Kept q w) :
    (State.checkHold s a1).Kept q w := by
  unfold State.checkHold
  repeat' first
    | with_reducible assumption
    | with_reducible apply State.releaseHold_kept
    | with_reducible apply Kept.ite

theorem State.disableEntry_kept {a1} (h : s.Kept q w) :
    (State.disableEntry s a1).Kept q w := by
  unfold State.disableEntry
  repeat' first
    | with_reducible assumption
    | (extract_lets +onlyGivenNames x; have hx : State.Kept q w x := ?_; (on_goal 2 => unfold x; clear x); clear_value x; rename' x => x1)
    | (extract_lets +onlyGivenNames x; clear_value x; rename' x => x1)
    | with_reducible apply State.discardEntry_kept
    | with_reducible apply State.countN_kept
    | with_reducible apply State.onTenant_kept
    | with_reducible apply State.checkHold_kept
    | with_reducible apply State.setEfld_kept

theorem State.portBack_kept {a1} (h : s.Kept q w) :
    (State.portBack s a1).Kept q w := by
  unfold State.portBack
  repeat' first
    | with_reducible assumption
    | (intro)
    | with_reducible apply State.wantFull_kept
    | with_reducible apply Kept.ite
    | with_reducible apply Kept.foldl

theorem State.linkLost_kept {a1} (h : s.Kept q w) :
    (State.linkLost s a1).Kept q w := by
  unfold State.linkLost
  repeat' first
    | with_reducible assumption
    | (extract_lets +onlyGivenNames x; have hx : State.Kept q w x := ?_; (on_goal 2 => unfold x; clear x); clear_value x; rename' x => x1)
    | with_reducible apply State.setBit_kept
    | with_reducible apply State.portLost_kept
    | with_reducible apply State.count_kept
    | with_reducible apply Kept.ite

theorem State.entReject_kept {a1} (h : s.Kept q w) :
    (State.entReject s a1).Kept q w := by
  unfold State.entReject
  repeat' first
    | with_reducible assumption
    | with_reducible apply State.countNow_kept

theorem State.enableEntry_kept {a1} (h : s.Kept q w) :
    (State.enableEntry s a1).Kept q w := by
  unfold State.enableEntry
  repeat' first
    | with_reducible assumption
    | (extract_lets +onlyGivenNames x; have hx : State.Kept q w x := ?_; (on_goal 2 => unfold x; clear x); clear_value x; rename' x => x1)
    | (extract_lets +onlyGivenNames x; clear_value x; rename' x => x1)
    | with_reducible apply State.setEfld_kept
    | with_reducible apply State.setEntry_kept

theorem State.resync_kept {a1} {a2} (h : s.Kept q w) :
    (State.resync s a1 a2).Kept q w := by
  unfold State.resync
  repeat' first
    | with_reducible assumption
    | (extract_lets +onlyGivenNames x; have hx : State.Kept q w x := ?_; (on_goal 2 => unfold x; clear x); clear_value x; rename' x => x1)
    | (extract_lets +onlyGivenNames x; clear_value x; rename' x => x1)
    | with_reducible apply State.count_kept
    | with_reducible apply State.ecount_kept
    | with_reducible apply State.setEfld_kept
    | with_reducible apply State.setEntry_kept
    | with_reducible apply Kept.ite

theorem State.writeEntCtrl_kept {a1} {a2} {a3} (h : s.Kept q w) :
    (State.writeEntCtrl s a1 a2 a3).Kept q w := by
  unfold State.writeEntCtrl
  repeat' first
    | with_reducible assumption
    | (extract_lets +onlyGivenNames x; have hx : State.Kept q w x := ?_; (on_goal 2 => unfold x; clear x); clear_value x; rename' x => x1)
    | (extract_lets +onlyGivenNames x; clear_value x; rename' x => x1)
    | with_reducible apply State.entReject_kept
    | with_reducible apply State.enableEntry_kept
    | with_reducible apply State.setWord_kept
    | with_reducible apply State.resync_kept
    | with_reducible apply State.disableEntry_kept
    | with_reducible apply State.checkHold_kept
    | with_reducible apply State.onTenant_kept
    | with_reducible apply Kept.ite

theorem State.writeEntLocked_kept {a1} {a2} {a3} {a4} {a5} (h : s.Kept q w) :
    (State.writeEntLocked s a1 a2 a3 a4 a5).Kept q w := by
  unfold State.writeEntLocked
  repeat' first
    | with_reducible assumption
    | with_reducible apply State.entReject_kept
    | with_reducible apply State.setWord_kept
    | with_reducible apply Kept.ite

theorem State.receive_kept {p : PortNo} {i : Instr} {g : State → State}
    (h : s.Kept q w) (hg : ∀ s, s.Kept q w → (g s).Kept q w) : (s.receive p i g).Kept q w := by
  unfold State.receive
  dsimp only
  split
  · exact h
  · split
    · exact State.atZero_kept (State.setPort_kept h)
    · exact hg _ h

theorem State.accept_kept1 {a1} {a2} {a3} (h : s.Kept q w) :
    State.Kept q w (State.accept s a1 a2 a3).1 := by
  unfold State.accept
  repeat' first
    | with_reducible assumption
    | (extract_lets +onlyGivenNames x; have hx : State.Kept q w x := ?_; (on_goal 2 => unfold x; clear x); clear_value x; rename' x => x1)
    | (extract_lets +onlyGivenNames x; clear_value x; rename' x => x1)
    | with_reducible apply State.count_kept
    | with_reducible apply State.setEfld_kept
    | with_reducible apply State.setEntry_kept
    | split

theorem State.accept_kept {a1} {a2} {a3} {s1 : State} {y} (h : s.Kept q w)
    (e : State.accept s a1 a2 a3 = (s1, y)) : s1.Kept q w := by
  have := State.accept_kept1 (a1 := a1) (a2 := a2) (a3 := a3) h
  rwa [e] at this

theorem State.seeStatus_kept {a1} (h : s.Kept q w) :
    (State.seeStatus s a1).Kept q w := by
  unfold State.seeStatus
  repeat' first
    | with_reducible assumption
    | (extract_lets +onlyGivenNames x; clear_value x; rename' x => x1)
    | with_reducible apply State.setEntry_kept
    | with_reducible apply Kept.ite
    | split

theorem State.statusRegs_kept {a1} {a2} {a3} {a4} (h : s.Kept q w) :
    (State.statusRegs s a1 a2 a3 a4).Kept q w := by
  unfold State.statusRegs
  repeat' first
    | with_reducible assumption
    | (extract_lets +onlyGivenNames x; have hx : State.Kept q w x := ?_; (on_goal 2 => unfold x; clear x); clear_value x; rename' x => x1)
    | (extract_lets +onlyGivenNames x; clear_value x; rename' x => x1)
    | with_reducible apply State.setEfld_kept
    | with_reducible apply State.countN_kept
    | with_reducible apply State.setEntry_kept

theorem State.setPresence_kept {a1} {a2} (h : s.Kept q w) :
    (State.setPresence s a1 a2).Kept q w := by
  unfold State.setPresence
  repeat' first
    | with_reducible assumption
    | with_reducible apply State.setBit_kept
    | with_reducible apply State.setEfld_kept

theorem State.takeStatus_kept {a0} {a1} {a2} {a3} (h : s.Kept q w) :
    (State.takeStatus a0 a1 a2 a3 s).Kept q w := by
  unfold State.takeStatus
  repeat' first
    | with_reducible assumption
    | (extract_lets +onlyGivenNames x; have hx : State.Kept q w x := ?_; (on_goal 2 => unfold x; clear x); clear_value x; rename' x => x1)
    | (extract_lets +onlyGivenNames x; clear_value x; rename' x => x1)
    | (with_reducible refine State.accept_kept ?_ (by assumption))
    | with_reducible apply State.seeStatus_kept
    | with_reducible apply State.statusRegs_kept
    | with_reducible apply State.tell_kept
    | with_reducible apply State.wantFull_kept
    | with_reducible apply State.setPresence_kept
    | with_reducible apply State.checkHold_kept
    | with_reducible apply Kept.ite
    | split

theorem execStatus_kept {a0} {a1} {a2} {a3} (h : s.Kept q w) :
    KeptOut q w (execStatus a0 a1 a2 a3 s) := by
  unfold execStatus
  repeat' first
    | with_reducible assumption
    | (intro)
    | with_reducible apply State.receive_kept
    | with_reducible apply State.takeStatus_kept
    | with_reducible apply Kept.next

theorem State.switchPort_kept {a1} (h : s.Kept q w) :
    (State.switchPort s a1).Kept q w := by
  unfold State.switchPort
  repeat' first
    | with_reducible assumption
    | (extract_lets +onlyGivenNames x; have hx : State.Kept q w x := ?_; (on_goal 2 => unfold x; clear x); clear_value x; rename' x => x1)
    | (extract_lets +onlyGivenNames x; clear_value x; rename' x => x1)
    | with_reducible apply State.discardPort_kept
    | with_reducible apply State.setEfld_kept
    | with_reducible apply State.wantFull_kept
    | with_reducible apply State.setEntry_kept
    | with_reducible apply State.tell_kept

theorem execRxUnknown_kept {a0} {a1} (h : s.Kept q w) :
    KeptOut q w (execRxUnknown a0 a1 s) := by
  unfold execRxUnknown
  repeat' first
    | with_reducible assumption
    | with_reducible apply State.count_kept
    | with_reducible apply Kept.next
    | with_reducible apply Kept.iteOut
    | split

theorem execAnnounceSend_kept {a0} (h : s.Kept q w) :
    KeptOut q w (execAnnounceSend a0 s) := by
  unfold execAnnounceSend
  repeat' first
    | with_reducible assumption
    | (extract_lets +onlyGivenNames x; have hx : State.Kept q w x := ?_; (on_goal 2 => unfold x; clear x); clear_value x; rename' x => x1)
    | (extract_lets +onlyGivenNames x; clear_value x; rename' x => x1)
    | with_reducible apply State.setPort_kept
    | with_reducible apply State.sendFrame_kept
    | with_reducible apply Kept.next
    | with_reducible apply Kept.iteOut

theorem State.takeResync_kept {a0} {a1} (h : s.Kept q w) :
    (State.takeResync a0 a1 s).Kept q w := by
  unfold State.takeResync
  repeat' first
    | with_reducible assumption
    | (extract_lets +onlyGivenNames x; have hx : State.Kept q w x := ?_; (on_goal 2 => unfold x; clear x); clear_value x; rename' x => x1)
    | (extract_lets +onlyGivenNames x; clear_value x; rename' x => x1)
    | (with_reducible refine State.accept_kept ?_ (by assumption))
    | with_reducible apply State.setEntry_kept
    | with_reducible apply State.resync_kept
    | with_reducible apply Kept.ite
    | split

theorem execResyncReq_kept {a0} {a1} {a2} (h : s.Kept q w) :
    KeptOut q w (execResyncReq a0 a1 a2 s) := by
  unfold execResyncReq
  repeat' first
    | with_reducible assumption
    | (intro)
    | with_reducible apply State.receive_kept
    | with_reducible apply State.takeResync_kept
    | with_reducible apply Kept.next

theorem execLinkDown_kept {a0} (h : s.Kept q w) :
    KeptOut q w (execLinkDown a0 s) := by
  unfold execLinkDown
  repeat' first
    | with_reducible assumption
    | with_reducible apply State.linkLost_kept
    | with_reducible apply Kept.next

theorem execStationAbsent_kept {a0} (h : s.Kept q w) :
    KeptOut q w (execStationAbsent a0 s) := by
  unfold execStationAbsent
  repeat' first
    | with_reducible assumption
    | (extract_lets +onlyGivenNames x; have hx : State.Kept q w x := ?_; (on_goal 2 => unfold x; clear x); clear_value x; rename' x => x1)
    | (extract_lets +onlyGivenNames x; clear_value x; rename' x => x1)
    | with_reducible apply State.tell_kept
    | with_reducible apply State.discardEntry_kept
    | with_reducible apply State.setPresence_kept
    | with_reducible apply State.onTenant_kept
    | with_reducible apply Kept.next
    | with_reducible apply Kept.ite
    | with_reducible apply Kept.iteOut

theorem execPauseReceive_kept {a0} (h : s.Kept q w) :
    KeptOut q w (execPauseReceive a0 s) := by
  unfold execPauseReceive
  repeat' first
    | with_reducible assumption
    | with_reducible apply State.count_kept
    | with_reducible apply Kept.next
    | with_reducible apply Kept.iteOut

theorem execSelfRefreshEntry_kept {a0} {a1} (h : s.Kept q w) :
    KeptOut q w (execSelfRefreshEntry a0 a1 s) := by
  unfold execSelfRefreshEntry
  repeat' first
    | with_reducible assumption
    | with_reducible apply State.setBit_kept
    | with_reducible apply Kept.next
    | with_reducible apply Kept.iteOut

theorem execDelayReq_kept {a0} {a1} {a2} {a3} (h : s.Kept q w) :
    KeptOut q w (execDelayReq a0 a1 a2 a3 s) := by
  unfold execDelayReq
  repeat' first
    | with_reducible assumption
    | (extract_lets +onlyGivenNames x; have hx : State.Kept q w x := ?_; (on_goal 2 => unfold x; clear x); clear_value x; rename' x => x1)
    | with_reducible apply State.count_kept
    | with_reducible apply State.advance_kept
    | with_reducible apply State.sendFrame_kept
    | with_reducible apply Kept.next
    | with_reducible apply Kept.iteOut

theorem execSelfRefreshExit_kept {a0} (h : s.Kept q w) :
    KeptOut q w (execSelfRefreshExit a0 s) := by
  unfold execSelfRefreshExit
  repeat' first
    | with_reducible assumption
    | with_reducible apply State.setBit_kept
    | with_reducible apply Kept.next

theorem State.takeInput_kept {a0} {a1} {a2} (h : s.Kept q w) :
    (State.takeInput a0 a1 a2 s).Kept q w := by
  unfold State.takeInput
  repeat' first
    | with_reducible assumption
    | (extract_lets +onlyGivenNames x; clear_value x; rename' x => x1)
    | (with_reducible refine State.accept_kept ?_ (by assumption))
    | with_reducible apply State.ecount_kept
    | with_reducible apply State.onTenant_kept
    | with_reducible apply Kept.ite
    | split

theorem State.takeHeld_kept {a1} (h : s.Kept q w) :
    (State.takeHeld s a1).Kept q w := by
  unfold State.takeHeld
  repeat' first
    | with_reducible assumption
    | with_reducible apply State.takeInput_kept
    | with_reducible apply State.takeStatus_kept
    | with_reducible apply State.takeResync_kept
    | split

theorem State.openInbox_kept {a1} (h : s.Kept q w) :
    (State.openInbox s a1).Kept q w := by
  unfold State.openInbox
  repeat' first
    | with_reducible assumption
    | (extract_lets +onlyGivenNames x; clear_value x; rename' x => x1)
    | with_reducible apply State.takeHeld_kept
    | with_reducible apply State.setPort_kept
    | split

theorem execInput_kept {a0} {a1} {a2} (h : s.Kept q w) :
    KeptOut q w (execInput a0 a1 a2 s) := by
  unfold execInput
  repeat' first
    | with_reducible assumption
    | (intro)
    | with_reducible apply State.receive_kept
    | with_reducible apply State.takeInput_kept
    | with_reducible apply Kept.next

theorem execForeignAnnounce_kept {a0} (h : s.Kept q w) :
    KeptOut q w (execForeignAnnounce a0 s) := by
  unfold execForeignAnnounce
  repeat' first
    | with_reducible assumption
    | with_reducible apply State.count_kept
    | with_reducible apply Kept.next
    | with_reducible apply Kept.iteOut

theorem execPortSwitch_kept {a0} (h : s.Kept q w) :
    KeptOut q w (execPortSwitch a0 s) := by
  unfold execPortSwitch
  repeat' first
    | with_reducible assumption
    | (extract_lets +onlyGivenNames x; clear_value x; rename' x => x1)
    | with_reducible apply State.switchPort_kept
    | with_reducible apply Kept.next
    | with_reducible apply Kept.iteOut

theorem execLinkUp_kept {a0} {a1} (h : s.Kept q w) :
    KeptOut q w (execLinkUp a0 a1 s) := by
  unfold execLinkUp
  repeat' first
    | with_reducible assumption
    | (extract_lets +onlyGivenNames x; have hx : State.Kept q w x := ?_; (on_goal 2 => unfold x; clear x); clear_value x; rename' x => x1)
    | (extract_lets +onlyGivenNames x; clear_value x; rename' x => x1)
    | with_reducible apply State.setBit_kept
    | with_reducible apply State.setLock_kept
    | with_reducible apply State.portBack_kept
    | with_reducible apply Kept.next
    | with_reducible apply Kept.ite
    | with_reducible apply Kept.iteOut

theorem execSfpChange_kept {a0} {a1} {a2} {a3} (h : s.Kept q w) :
    KeptOut q w (execSfpChange a0 a1 a2 a3 s) := by
  unfold execSfpChange
  repeat' first
    | with_reducible assumption
    | (extract_lets +onlyGivenNames x; have hx : State.Kept q w x := ?_; (on_goal 2 => unfold x; clear x); clear_value x; rename' x => x1)
    | (extract_lets +onlyGivenNames x; clear_value x; rename' x => x1)
    | with_reducible apply State.setBit_kept
    | with_reducible apply Kept.next
    | with_reducible apply Kept.ite

/-! Nvs -/

theorem State.readPage_kept1 {a1} (h : s.Kept q w) :
    State.Kept q w (State.readPage s a1).1 := by
  unfold State.readPage
  repeat' first
    | with_reducible assumption
    | (extract_lets +onlyGivenNames x; clear_value x; rename' x => x1)
    | with_reducible apply State.notify_kept
    | with_reducible apply State.count_kept
    | split

theorem State.readPage_kept {a1} {s1 : State} {y} (h : s.Kept q w)
    (e : State.readPage s a1 = (s1, y)) : s1.Kept q w := by
  have := State.readPage_kept1 (a1 := a1) h
  rwa [e] at this

theorem State.saveErase_kept {a1} (h : s.Kept q w) :
    (State.saveErase s a1).Kept q w := by
  unfold State.saveErase
  repeat' first
    | with_reducible assumption
    | (intro)
    | (extract_lets +onlyGivenNames x; have hx : State.Kept q w x := ?_; (on_goal 2 => unfold x; clear x); clear_value x; rename' x => x1)
    | (extract_lets +onlyGivenNames x; clear_value x; rename' x => x1)
    | with_reducible apply State.setTenant_kept
    | with_reducible apply State.nvsAsk_kept
    | with_reducible apply Kept.ite
    | with_reducible apply Kept.foldl

theorem State.saveWritten_kept {a1} {a2} {a3} {a4} (h : s.Kept q w) :
    (State.saveWritten s a1 a2 a3 a4).Kept q w := by
  unfold State.saveWritten
  repeat' first
    | with_reducible assumption
    | (extract_lets +onlyGivenNames x; clear_value x; rename' x => x1)
    | with_reducible apply State.setTenant_kept
    | with_reducible apply Kept.ite
    | split

theorem State.nvsDone_kept {a1} {a2} (h : s.Kept q w) :
    (State.nvsDone s a1 a2).Kept q w := by
  unfold State.nvsDone
  repeat' first
    | with_reducible assumption
    | (extract_lets +onlyGivenNames x; clear_value x; rename' x => x1)
    | with_reducible apply State.saveWritten_kept
    | (simp only [Kept.mk_iff]; with_reducible apply Kept.toF)
    | split

theorem State.nvsStep_kept {a1} (h : s.Kept q w) :
    (State.nvsStep s a1).Kept q w := by
  unfold State.nvsStep
  repeat' first
    | with_reducible assumption
    | (extract_lets +onlyGivenNames x; have hx : State.Kept q w x := ?_; (on_goal 2 => unfold x; clear x); clear_value x; rename' x => x1)
    | (extract_lets +onlyGivenNames x; clear_value x; rename' x => x1)
    | with_reducible apply State.writePage_kept
    | with_reducible apply State.count_kept
    | with_reducible apply State.notify_kept
    | with_reducible apply State.setBit_kept
    | with_reducible apply State.nvsLevel_kept
    | with_reducible apply State.nvsAdmit_kept
    | with_reducible apply State.nvsDone_kept
    | with_reducible apply Kept.ite
    | (simp only [Kept.mk_iff]; with_reducible apply Kept.toF)
    | split

theorem State.recordEpoch_kept {a1} {a2} (h : s.Kept q w) :
    (State.recordEpoch s a1 a2).Kept q w := by
  unfold State.recordEpoch
  repeat' first
    | with_reducible assumption
    | (extract_lets +onlyGivenNames x; have hx : State.Kept q w x := ?_; (on_goal 2 => unfold x; clear x); clear_value x; rename' x => x1)
    | (extract_lets +onlyGivenNames x; clear_value x; rename' x => x1)
    | with_reducible apply State.readPage_kept1
    | with_reducible apply State.nvsRecord_kept

theorem State.raiseEpoch_kept {a1} (h : s.Kept q w) :
    (State.raiseEpoch s a1).Kept q w := by
  unfold State.raiseEpoch
  repeat' first
    | with_reducible assumption
    | (extract_lets +onlyGivenNames x; clear_value x; rename' x => x1)
    | with_reducible apply State.onTenant_kept
    | with_reducible apply State.recordEpoch_kept

theorem State.loadSave_kept {a1} (h : s.Kept q w) :
    (State.loadSave s a1).Kept q w := by
  unfold State.loadSave
  repeat' first
    | with_reducible assumption
    | (intro)
    | with_reducible apply State.readPage_kept1
    | with_reducible apply State.onTenant_kept
    | with_reducible apply Kept.foldl

theorem execSavGo_kept {a0} {a1} (h : s.Kept q w) :
    KeptOut q w (execSavGo a0 a1 s) := by
  unfold execSavGo
  repeat' first
    | with_reducible assumption
    | with_reducible apply runBoundary_kept

theorem execSavCommit_kept {a0} (h : s.Kept q w) :
    KeptOut q w (execSavCommit a0 s) := by
  unfold execSavCommit
  repeat' first
    | with_reducible assumption
    | (intro)
    | (extract_lets +onlyGivenNames x; clear_value x; rename' x => x1)
    | with_reducible apply State.setTenant_kept
    | with_reducible apply State.nvsAsk_kept
    | with_reducible apply Kept.next
    | with_reducible apply Kept.iteOut
    | with_reducible apply Kept.foldl
    | split

/-! Rtc -/

theorem State.rtcCommit_kept (h : s.Kept q w) :
    (State.rtcCommit s).Kept q w := by
  unfold State.rtcCommit
  repeat' first
    | with_reducible assumption
    | (extract_lets +onlyGivenNames x; have hx : State.Kept q w x := ?_; (on_goal 2 => unfold x; clear x); clear_value x; rename' x => x1)
    | (extract_lets +onlyGivenNames x; clear_value x; rename' x => x1)
    | with_reducible apply State.countNow_kept
    | with_reducible apply State.setBit_kept
    | with_reducible apply State.raiseNow_kept
    | with_reducible apply Kept.ite
    | (simp only [Kept.mk_iff]; with_reducible apply Kept.toF)

theorem execLanternSample_kept (h : s.Kept q w) :
    KeptOut q w (execLanternSample s) := by
  unfold execLanternSample
  repeat' first
    | with_reducible assumption
    | with_reducible apply State.lanternSample_kept
    | with_reducible apply State.rtcTick_kept
    | with_reducible apply Kept.next
    | with_reducible apply Kept.iteOut

theorem execRtcHundredth_kept (h : s.Kept q w) :
    KeptOut q w (execRtcHundredth s) := by
  unfold execRtcHundredth
  repeat' first
    | with_reducible assumption
    | (extract_lets +onlyGivenNames x; have hx : State.Kept q w x := ?_; (on_goal 2 => unfold x; clear x); clear_value x; rename' x => x1)
    | (extract_lets +onlyGivenNames x; clear_value x; rename' x => x1)
    | with_reducible apply State.rtcTick_kept
    | with_reducible apply State.setBit_kept
    | with_reducible apply State.setCalendar_kept
    | with_reducible apply Kept.next
    | with_reducible apply Kept.ite
    | with_reducible apply Kept.iteOut
    | (simp only [Kept.mk_iff]; with_reducible apply Kept.toF)
    | split

/-! Panel -/

theorem State.setPanelText_kept {a1} {a2} (h : s.Kept q w) :
    (State.setPanelText s a1 a2).Kept q w := by
  unfold State.setPanelText
  repeat' first
    | with_reducible assumption
    | (intro)
    | (extract_lets +onlyGivenNames x; clear_value x; rename' x => x1)
    | with_reducible apply State.setFld_kept
    | with_reducible apply Kept.foldl

theorem State.recoverNext_kept (h : s.Kept q w) :
    (State.recoverNext s).Kept q w := by
  unfold State.recoverNext
  repeat' first
    | with_reducible assumption
    | with_reducible apply State.setBit_kept
    | with_reducible apply Kept.ite

theorem State.panelStart_kept (h : s.Kept q w) :
    (State.panelStart s).Kept q w := by
  unfold State.panelStart
  repeat' first
    | with_reducible assumption
    | (intro)
    | (extract_lets +onlyGivenNames x; have hx : State.Kept q w x := ?_; (on_goal 2 => unfold x; clear x); clear_value x; rename' x => x1)
    | with_reducible apply State.readPage_kept1
    | with_reducible apply State.setPanelText_kept
    | with_reducible apply State.setBit_kept
    | with_reducible apply State.count_kept
    | with_reducible apply State.recoverNext_kept
    | with_reducible apply Kept.ite
    | with_reducible apply Kept.foldl

theorem State.freshLines_kept (h : s.Kept q w) :
    (State.freshLines s).Kept q w := by
  unfold State.freshLines
  repeat' first
    | with_reducible assumption
    | (intro)
    | with_reducible apply State.setPanelText_kept
    | with_reducible apply Kept.foldl

theorem State.panelRecover_kept (h : s.Kept q w) :
    (State.panelRecover s).Kept q w := by
  unfold State.panelRecover
  repeat' first
    | with_reducible assumption
    | (extract_lets +onlyGivenNames x; clear_value x; rename' x => x1)
    | with_reducible apply State.readPage_kept1
    | with_reducible apply State.freshLines_kept
    | with_reducible apply State.setBit_kept
    | with_reducible apply State.countN_kept
    | with_reducible apply State.notify_kept
    | with_reducible apply State.nvsAsk_kept
    | (simp only [Kept.mk_iff]; with_reducible apply Kept.toF)

theorem State.askRecord_kept {a1} (h : s.Kept q w) :
    (State.askRecord s a1).Kept q w := by
  unfold State.askRecord
  repeat' first
    | with_reducible assumption
    | with_reducible apply State.nvsAsk_kept

theorem State.panelDone_kept (h : s.Kept q w) :
    (State.panelDone s).Kept q w := by
  unfold State.panelDone
  repeat' first
    | with_reducible assumption
    | (extract_lets +onlyGivenNames x; have hx : State.Kept q w x := ?_; (on_goal 2 => unfold x; clear x); clear_value x; rename' x => x1)
    | (extract_lets +onlyGivenNames x; clear_value x; rename' x => x1)
    | with_reducible apply State.count_kept
    | with_reducible apply State.setBit_kept
    | with_reducible apply State.askRecord_kept
    | (simp only [Kept.mk_iff]; with_reducible apply Kept.toF)

theorem State.panelNext_kept (h : s.Kept q w) :
    (State.panelNext s).Kept q w := by
  unfold State.panelNext
  repeat' first
    | with_reducible assumption
    | (extract_lets +onlyGivenNames x; clear_value x; rename' x => x1)
    | with_reducible apply State.askRecord_kept
    | with_reducible apply Kept.ite
    | (simp only [Kept.mk_iff]; with_reducible apply Kept.toF)

theorem State.panelUpdate_kept (h : s.Kept q w) :
    (State.panelUpdate s).Kept q w := by
  unfold State.panelUpdate
  repeat' first
    | with_reducible assumption
    | with_reducible apply State.panelNext_kept
    | with_reducible apply State.setBit_kept

theorem State.panelHalt_kept (h : s.Kept q w) :
    (State.panelHalt s).Kept q w := by
  unfold State.panelHalt
  repeat' first
    | with_reducible assumption
    | (extract_lets +onlyGivenNames x; clear_value x; rename' x => x1)
    | with_reducible apply State.setBit_kept
    | with_reducible apply Kept.ite
    | (simp only [Kept.mk_iff]; with_reducible apply Kept.toF)

theorem execPanelUpdateDone_kept (h : s.Kept q w) :
    KeptOut q w (execPanelUpdateDone s) := by
  unfold execPanelUpdateDone
  repeat' first
    | with_reducible assumption
    | with_reducible apply State.panelNext_kept
    | with_reducible apply State.panelDone_kept
    | with_reducible apply Kept.next
    | with_reducible apply Kept.iteOut

theorem execPanelStop_kept (h : s.Kept q w) :
    KeptOut q w (execPanelStop s) := by
  unfold execPanelStop
  repeat' first
    | with_reducible assumption
    | with_reducible apply State.panelHalt_kept
    | with_reducible apply Kept.next
    | with_reducible apply Kept.iteOut

theorem execPanelUpdateStart_kept (h : s.Kept q w) :
    KeptOut q w (execPanelUpdateStart s) := by
  unfold execPanelUpdateStart
  repeat' first
    | with_reducible assumption
    | (extract_lets +onlyGivenNames x; have hx : State.Kept q w x := ?_; (on_goal 2 => unfold x; clear x); clear_value x; rename' x => x1)
    | (extract_lets +onlyGivenNames x; clear_value x; rename' x => x1)
    | with_reducible apply State.freshLines_kept
    | with_reducible apply State.setBit_kept
    | with_reducible apply Kept.next
    | with_reducible apply Kept.iteOut
    | (simp only [Kept.mk_iff]; with_reducible apply Kept.toF)

theorem execPanelRecovered_kept (h : s.Kept q w) :
    KeptOut q w (execPanelRecovered s) := by
  unfold execPanelRecovered
  repeat' first
    | with_reducible assumption
    | with_reducible apply State.panelNext_kept
    | with_reducible apply State.panelRecover_kept
    | with_reducible apply Kept.next
    | with_reducible apply Kept.iteOut

/-! Mirrors -/

theorem State.takeHome_kept {a1} {a2} (h : s.Kept q w) :
    (State.takeHome s a1 a2).Kept q w := by
  unfold State.takeHome
  repeat' first
    | with_reducible assumption
    | (extract_lets +onlyGivenNames x; have hx : State.Kept q w x := ?_; (on_goal 2 => unfold x; clear x); clear_value x; rename' x => x1)
    | (extract_lets +onlyGivenNames x; clear_value x; rename' x => x1)
    | with_reducible apply State.wakeEngine_kept
    | with_reducible apply State.setWord_kept
    | with_reducible apply State.setBit_kept
    | with_reducible apply State.setFld_kept

theorem State.freeRun_kept {a1} (h : s.Kept q w) :
    (State.freeRun s a1).Kept q w := by
  unfold State.freeRun
  repeat' first
    | with_reducible assumption
    | (intro)
    | (extract_lets +onlyGivenNames x; have hx : State.Kept q w x := ?_; (on_goal 2 => unfold x; clear x); clear_value x; rename' x => x1)
    | (extract_lets +onlyGivenNames x; clear_value x; rename' x => x1)
    | with_reducible apply State.setWord_kept
    | with_reducible apply State.setBit_kept
    | with_reducible apply State.onTenant_kept
    | with_reducible apply Kept.ite
    | with_reducible apply Kept.foldl
    | split

theorem State.showMState_kept {a1} (h : s.Kept q w) :
    (State.showMState s a1).Kept q w := by
  unfold State.showMState
  repeat' first
    | with_reducible assumption
    | (extract_lets +onlyGivenNames x; have hx : State.Kept q w x := ?_; (on_goal 2 => unfold x; clear x); clear_value x; rename' x => x1)
    | (extract_lets +onlyGivenNames x; clear_value x; rename' x => x1)
    | with_reducible apply State.setBit_kept
    | with_reducible apply State.setFld_kept
    | with_reducible apply Kept.ite

theorem State.placeHome_kept {a1} {a2} (h : s.Kept q w) :
    (State.placeHome s a1 a2).Kept q w := by
  unfold State.placeHome
  repeat' first
    | with_reducible assumption
    | (extract_lets +onlyGivenNames x; have hx : State.Kept q w x := ?_; (on_goal 2 => unfold x; clear x); clear_value x; rename' x => x1)
    | with_reducible apply State.takeHome_kept
    | with_reducible apply State.freeRun_kept
    | with_reducible apply State.onTenant_kept
    | with_reducible apply State.showMState_kept

theorem State.cancelMirrorMove_kept {a1} (h : s.Kept q w) :
    (State.cancelMirrorMove s a1).Kept q w := by
  unfold State.cancelMirrorMove
  repeat' first
    | with_reducible assumption
    | with_reducible apply State.onTenant_kept
    | with_reducible apply State.setWord_kept
    | split

theorem State.startMirrorMove_kept {a1} {a2} (h : s.Kept q w) :
    (State.startMirrorMove s a1 a2).Kept q w := by
  unfold State.startMirrorMove
  repeat' first
    | with_reducible assumption
    | (extract_lets +onlyGivenNames x; have hx : State.Kept q w x := ?_; (on_goal 2 => unfold x; clear x); clear_value x; rename' x => x1)
    | (extract_lets +onlyGivenNames x; clear_value x; rename' x => x1)
    | with_reducible apply State.setWord_kept
    | with_reducible apply State.wakeEngine_kept
    | with_reducible apply State.cancelMirrorMove_kept
    | with_reducible apply State.setBit_kept
    | with_reducible apply State.setFld_kept
    | with_reducible apply State.onTenant_kept

theorem State.showMirror_kept {a1} (h : s.Kept q w) :
    (State.showMirror s a1).Kept q w := by
  unfold State.showMirror
  repeat' first
    | with_reducible assumption
    | (extract_lets +onlyGivenNames x; clear_value x; rename' x => x1)
    | with_reducible apply State.setBit_kept
    | with_reducible apply State.setFld_kept
    | with_reducible apply Kept.ite

theorem State.dropMirror_kept {a1} {a2} (h : s.Kept q w) :
    (State.dropMirror s a1 a2).Kept q w := by
  unfold State.dropMirror
  repeat' first
    | with_reducible assumption
    | (extract_lets +onlyGivenNames x; have hx : State.Kept q w x := ?_; (on_goal 2 => unfold x; clear x); clear_value x; rename' x => x1)
    | (extract_lets +onlyGivenNames x; clear_value x; rename' x => x1)
    | with_reducible apply State.cancelMirrorMove_kept
    | with_reducible apply State.setWord_kept
    | with_reducible apply State.onTenant_kept
    | with_reducible apply State.showMirror_kept
    | with_reducible apply Kept.ite

theorem State.createMirror_kept {a1} {a2} (h : s.Kept q w) :
    (State.createMirror s a1 a2).Kept q w := by
  unfold State.createMirror
  repeat' first
    | with_reducible assumption
    | (extract_lets +onlyGivenNames x; have hx : State.Kept q w x := ?_; (on_goal 2 => unfold x; clear x); clear_value x; rename' x => x1)
    | with_reducible apply State.wakeEngine_kept
    | with_reducible apply State.onTenant_kept
    | with_reducible apply State.showMirror_kept
    | with_reducible apply State.showMState_kept

theorem State.coldMirror_kept {a1} (h : s.Kept q w) :
    (State.coldMirror s a1).Kept q w := by
  unfold State.coldMirror
  repeat' first
    | with_reducible assumption
    | (extract_lets +onlyGivenNames x; have hx : State.Kept q w x := ?_; (on_goal 2 => unfold x; clear x); clear_value x; rename' x => x1)
    | (extract_lets +onlyGivenNames x; clear_value x; rename' x => x1)
    | with_reducible apply State.onTenant_kept
    | with_reducible apply State.showMirror_kept
    | with_reducible apply State.showMState_kept
    | with_reducible apply State.count_kept
    | with_reducible apply State.tell_kept
    | with_reducible apply Kept.ite

theorem execMirrorStage_kept {a0} {a1} (h : s.Kept q w) :
    KeptOut q w (execMirrorStage a0 a1 s) := by
  unfold execMirrorStage
  repeat' first
    | with_reducible assumption
    | (extract_lets +onlyGivenNames x; clear_value x; rename' x => x1)
    | with_reducible apply State.createMirror_kept
    | with_reducible apply State.showMState_kept
    | with_reducible apply State.setTenant_kept
    | with_reducible apply State.coldMirror_kept
    | with_reducible apply Kept.next
    | with_reducible apply Kept.iteOut
    | split

theorem State.moveMirror_kept {a1} {a2} (h : s.Kept q w) :
    (State.moveMirror s a1 a2).Kept q w := by
  unfold State.moveMirror
  repeat' first
    | with_reducible assumption
    | (extract_lets +onlyGivenNames x; have hx : State.Kept q w x := ?_; (on_goal 2 => unfold x; clear x); clear_value x; rename' x => x1)
    | (extract_lets +onlyGivenNames x; clear_value x; rename' x => x1)
    | with_reducible apply State.onTenant_kept
    | with_reducible apply State.showMirror_kept
    | with_reducible apply State.showMState_kept
    | with_reducible apply State.setWord_kept
    | with_reducible apply Kept.ite

theorem execMirrorWarm_kept {a0} (h : s.Kept q w) :
    KeptOut q w (execMirrorWarm a0 s) := by
  unfold execMirrorWarm
  repeat' first
    | with_reducible assumption
    | (extract_lets +onlyGivenNames x; have hx : State.Kept q w x := ?_; (on_goal 2 => unfold x; clear x); clear_value x; rename' x => x1)
    | (extract_lets +onlyGivenNames x; clear_value x; rename' x => x1)
    | with_reducible apply State.moveMirror_kept
    | with_reducible apply State.setTenant_kept
    | with_reducible apply State.showMirror_kept
    | with_reducible apply State.showMState_kept
    | with_reducible apply State.tell_kept
    | with_reducible apply Kept.next
    | with_reducible apply Kept.ite
    | with_reducible apply Kept.iteOut
    | split

/-! Continuity -/

theorem execTenantMoved_kept {a0} (h : s.Kept q w) :
    KeptOut q w (execTenantMoved a0 s) := by
  unfold execTenantMoved
  repeat' first
    | with_reducible assumption
    | (extract_lets +onlyGivenNames x; have hx : State.Kept q w x := ?_; (on_goal 2 => unfold x; clear x); clear_value x; rename' x => x1)
    | (extract_lets +onlyGivenNames x; clear_value x; rename' x => x1)
    | with_reducible apply State.placeHome_kept
    | with_reducible apply State.onTenant_kept
    | with_reducible apply State.notify_kept
    | with_reducible apply Kept.next
    | with_reducible apply Kept.iteOut
    | split

theorem State.startMove_kept {a1} {a2} (h : s.Kept q w) :
    (State.startMove s a1 a2).Kept q w := by
  unfold State.startMove
  repeat' first
    | with_reducible assumption
    | with_reducible apply State.onTenant_kept
    | with_reducible apply State.takeHome_kept

theorem State.startReadmit_kept {a1} (h : s.Kept q w) :
    (State.startReadmit s a1).Kept q w := by
  unfold State.startReadmit
  repeat' first
    | with_reducible assumption
    | with_reducible apply State.setEState_kept
    | with_reducible apply Kept.ite

theorem State.placed_kept {a1} (h : s.Kept q w) :
    (State.placed s a1).Kept q w := by
  unfold State.placed
  repeat' first
    | with_reducible assumption
    | (intro)
    | (extract_lets +onlyGivenNames x; have hx : State.Kept q w x := ?_; (on_goal 2 => unfold x; clear x); clear_value x; rename' x => x1)
    | (extract_lets +onlyGivenNames x; clear_value x; rename' x => x1)
    | with_reducible apply State.notify_kept
    | with_reducible apply Kept.foldl
    | (simp only [Kept.mk_iff]; with_reducible apply Kept.toF)

theorem State.cancelMove_kept {a1} (h : s.Kept q w) :
    (State.cancelMove s a1).Kept q w := by
  unfold State.cancelMove
  repeat' first
    | with_reducible assumption
    | with_reducible apply State.onTenant_kept
    | with_reducible apply State.setWord_kept
    | split

theorem State.beginReset_kept {a1} (h : s.Kept q w) :
    (State.beginReset s a1).Kept q w := by
  unfold State.beginReset
  repeat' first
    | with_reducible assumption
    | (intro)
    | (extract_lets +onlyGivenNames x; have hx : State.Kept q w x := ?_; (on_goal 2 => unfold x; clear x); clear_value x; rename' x => x1)
    | (extract_lets +onlyGivenNames x; clear_value x; rename' x => x1)
    | with_reducible apply State.discardTenant_kept
    | with_reducible apply State.dropMirror_kept
    | with_reducible apply State.cancelMove_kept
    | with_reducible apply State.setBit_kept
    | with_reducible apply State.onTenant_kept
    | with_reducible apply Kept.foldl
    | split

theorem State.holdFailure_kept {a1} (h : s.Kept q w) :
    (State.holdFailure s a1).Kept q w := by
  unfold State.holdFailure
  repeat' first
    | with_reducible assumption
    | (extract_lets +onlyGivenNames x; clear_value x; rename' x => x1)
    | (simp only [Kept.mk_iff]; with_reducible apply Kept.toF)

theorem State.giveUpMirrorMove_kept {a1} (h : s.Kept q w) :
    (State.giveUpMirrorMove s a1).Kept q w := by
  unfold State.giveUpMirrorMove
  repeat' first
    | with_reducible assumption
    | (extract_lets +onlyGivenNames x; have hx : State.Kept q w x := ?_; (on_goal 2 => unfold x; clear x); clear_value x; rename' x => x1)
    | with_reducible apply State.cancelMirrorMove_kept
    | with_reducible apply State.cancelMove_kept
    | with_reducible apply Kept.ite
    | split

theorem State.lose_kept {a1} (h : s.Kept q w) :
    (State.lose s a1).Kept q w := by
  unfold State.lose
  repeat' first
    | with_reducible assumption
    | (extract_lets +onlyGivenNames x; have hx : State.Kept q w x := ?_; (on_goal 2 => unfold x; clear x); clear_value x; rename' x => x1)
    | with_reducible apply State.dropMirror_kept
    | with_reducible apply State.freeRun_kept
    | with_reducible apply State.cancelMove_kept
    | with_reducible apply State.onTenant_kept
    | with_reducible apply State.tell_kept
    | with_reducible apply State.beginReset_kept
    | with_reducible apply Kept.ite

theorem State.failRun_kept {a1} (h : s.Kept q w) :
    (State.failRun s a1).Kept q w := by
  unfold State.failRun
  repeat' first
    | with_reducible assumption
    | (extract_lets +onlyGivenNames x; clear_value x; rename' x => x1)
    | with_reducible apply State.dropMirror_kept
    | with_reducible apply State.freeRun_kept
    | with_reducible apply State.cancelMove_kept
    | with_reducible apply State.onTenant_kept
    | with_reducible apply State.cancelMirrorMove_kept
    | with_reducible apply State.lose_kept
    | with_reducible apply Kept.ite
    | split

theorem State.declare_kept {a1} {a2} (h : s.Kept q w) :
    (State.declare s a1 a2).Kept q w := by
  unfold State.declare
  repeat' first
    | with_reducible assumption
    | (intro)
    | (extract_lets +onlyGivenNames x; have hx : State.Kept q w x := ?_; (on_goal 2 => unfold x; clear x); clear_value x; rename' x => x1)
    | (extract_lets +onlyGivenNames x; clear_value x; rename' x => x1)
    | with_reducible apply State.failRun_kept
    | with_reducible apply State.notify_kept
    | with_reducible apply Kept.ite
    | with_reducible apply Kept.foldl
    | (simp only [Kept.mk_iff]; with_reducible apply Kept.toF)

theorem State.loseMirror_kept {a1} (h : s.Kept q w) :
    (State.loseMirror s a1).Kept q w := by
  unfold State.loseMirror
  repeat' first
    | with_reducible assumption
    | with_reducible apply State.placed_kept
    | with_reducible apply State.lose_kept
    | with_reducible apply State.createMirror_kept
    | with_reducible apply State.dropMirror_kept
    | with_reducible apply Kept.ite
    | split

theorem State.failEngine_kept {a1} {a2} (h : s.Kept q w) :
    (State.failEngine s a1 a2).Kept q w := by
  unfold State.failEngine
  repeat' first
    | with_reducible assumption
    | (intro)
    | (extract_lets +onlyGivenNames x; have hx : State.Kept q w x := ?_; (on_goal 2 => unfold x; clear x); clear_value x; rename' x => x1)
    | with_reducible apply State.setFld_kept
    | with_reducible apply State.setBit_kept
    | with_reducible apply State.setEState_kept
    | with_reducible apply State.zeroCredits_kept
    | with_reducible apply State.cancelMove_kept
    | with_reducible apply State.giveUpMirrorMove_kept
    | with_reducible apply State.declare_kept
    | with_reducible apply State.loseMirror_kept
    | with_reducible apply State.startReadmit_kept
    | with_reducible apply Kept.ite
    | with_reducible apply Kept.foldl

theorem State.engineError_kept {a1} (h : s.Kept q w) :
    (State.engineError s a1).Kept q w := by
  unfold State.engineError
  repeat' first
    | with_reducible assumption
    | with_reducible apply State.failEngine_kept
    | with_reducible apply Kept.ite

theorem State.internalError_kept {a1} (h : s.Kept q w) :
    (State.internalError s a1).Kept q w := by
  unfold State.internalError
  repeat' first
    | with_reducible assumption
    | (extract_lets +onlyGivenNames x; have hx : State.Kept q w x := ?_; (on_goal 2 => unfold x; clear x); clear_value x; rename' x => x1)
    | with_reducible apply State.engNotice_kept
    | with_reducible apply State.setBit_kept
    | with_reducible apply State.holdFailure_kept
    | with_reducible apply State.engineError_kept
    | with_reducible apply Kept.ite

theorem execInternalError_kept {a0} (h : s.Kept q w) :
    KeptOut q w (execInternalError a0 s) := by
  unfold execInternalError
  repeat' first
    | with_reducible assumption
    | with_reducible apply State.internalError_kept
    | with_reducible apply Kept.next

theorem execPitch_kept {a0} {a1} (h : s.Kept q w) :
    KeptOut q w (execPitch a0 a1 s) := by
  unfold execPitch
  repeat' first
    | with_reducible assumption
    | (extract_lets +onlyGivenNames x; clear_value x; rename' x => x1)
    | with_reducible apply State.startMove_kept
    | with_reducible apply Kept.next
    | with_reducible apply Kept.iteOut

theorem State.tenantFailed_kept {a1} (h : s.Kept q w) :
    (State.tenantFailed s a1).Kept q w := by
  unfold State.tenantFailed
  repeat' first
    | with_reducible assumption
    | (extract_lets +onlyGivenNames x; clear_value x; rename' x => x1)
    | with_reducible apply State.declare_kept
    | with_reducible apply Kept.ite

theorem execStoppedTenantReplace_kept {a0} {a1} (h : s.Kept q w) :
    KeptOut q w (execStoppedTenantReplace a0 a1 s) := by
  unfold execStoppedTenantReplace
  repeat' first
    | with_reducible assumption
    | (extract_lets +onlyGivenNames x; have hx : State.Kept q w x := ?_; (on_goal 2 => unfold x; clear x); clear_value x; rename' x => x1)
    | (extract_lets +onlyGivenNames x; clear_value x; rename' x => x1)
    | with_reducible apply State.onTenant_kept
    | with_reducible apply State.placeHome_kept
    | with_reducible apply State.placed_kept
    | with_reducible apply State.loadSave_kept
    | with_reducible apply Kept.next
    | with_reducible apply Kept.iteOut
    | split

theorem State.engineFailed_kept {a1} {a2} (h : s.Kept q w) :
    (State.engineFailed s a1 a2).Kept q w := by
  unfold State.engineFailed
  repeat' first
    | with_reducible assumption
    | with_reducible apply State.failEngine_kept
    | with_reducible apply Kept.ite

theorem State.creditBack_kept {a1} (h : s.Kept q w) :
    (State.creditBack s a1).Kept q w := by
  unfold State.creditBack
  repeat' first
    | with_reducible assumption
    | (intro)
    | (extract_lets +onlyGivenNames x; clear_value x; rename' x => x1)
    | with_reducible apply State.holdFailure_kept
    | with_reducible apply State.engineFailed_kept
    | with_reducible apply State.creditOver_kept
    | with_reducible apply State.countFlit_kept
    | with_reducible apply State.setCredit_kept
    | with_reducible apply Kept.ite
    | with_reducible apply Kept.foldl

theorem execEngineFailed_kept {a0} {a1} (h : s.Kept q w) :
    KeptOut q w (execEngineFailed a0 a1 s) := by
  unfold execEngineFailed
  repeat' first
    | with_reducible assumption
    | with_reducible apply State.holdFailure_kept
    | with_reducible apply State.engineFailed_kept
    | with_reducible apply Kept.next
    | with_reducible apply Kept.iteOut

theorem execTenantFailed_kept {a0} (h : s.Kept q w) :
    KeptOut q w (execTenantFailed a0 s) := by
  unfold execTenantFailed
  repeat' first
    | with_reducible assumption
    | with_reducible apply State.holdFailure_kept
    | with_reducible apply State.tenantFailed_kept
    | with_reducible apply Kept.next
    | with_reducible apply Kept.iteOut

theorem execIdleHeartbeat_kept {a0} (h : s.Kept q w) :
    KeptOut q w (execIdleHeartbeat a0 s) := by
  unfold execIdleHeartbeat
  repeat' first
    | with_reducible assumption
    | with_reducible apply State.setBit_kept
    | with_reducible apply State.count_kept
    | with_reducible apply Kept.next
    | with_reducible apply Kept.iteOut

theorem State.proceed_kept (h : s.Kept q w) :
    (State.proceed s).Kept q w := by
  unfold State.proceed
  repeat' first
    | with_reducible assumption
    | (intro)
    | (extract_lets +onlyGivenNames x; clear_value x; rename' x => x1)
    | with_reducible apply State.engineFailed_kept
    | with_reducible apply State.engineError_kept
    | with_reducible apply State.tenantFailed_kept
    | with_reducible apply Kept.foldl
    | (simp only [Kept.mk_iff]; with_reducible apply Kept.toF)
    | split

theorem State.promote_kept {a1} {a2} (h : s.Kept q w) :
    (State.promote s a1 a2).Kept q w := by
  unfold State.promote
  repeat' first
    | with_reducible assumption
    | (extract_lets +onlyGivenNames x; have hx : State.Kept q w x := ?_; (on_goal 2 => unfold x; clear x); clear_value x; rename' x => x1)
    | (extract_lets +onlyGivenNames x; clear_value x; rename' x => x1)
    | with_reducible apply State.freeRun_kept
    | with_reducible apply State.wakeEngine_kept
    | with_reducible apply State.setFld_kept
    | with_reducible apply State.setBit_kept
    | with_reducible apply State.count_kept
    | with_reducible apply State.onTenant_kept
    | with_reducible apply State.placed_kept
    | with_reducible apply State.beginReset_kept
    | with_reducible apply Kept.ite

theorem execPromotion_kept {a0} {a1} (h : s.Kept q w) :
    KeptOut q w (execPromotion a0 a1 s) := by
  unfold execPromotion
  repeat' first
    | with_reducible assumption
    | (extract_lets +onlyGivenNames x; clear_value x; rename' x => x1)
    | with_reducible apply State.promote_kept
    | with_reducible apply State.placed_kept
    | with_reducible apply Kept.next
    | with_reducible apply Kept.iteOut
    | split

theorem execStrike_kept {a0} {a1} {a2} (h : s.Kept q w) :
    KeptOut q w (execStrike a0 a1 a2 s) := by
  unfold execStrike
  repeat' first
    | with_reducible assumption
    | (extract_lets +onlyGivenNames x; clear_value x; rename' x => x1)
    | with_reducible apply State.startMirrorMove_kept
    | with_reducible apply State.startMove_kept
    | with_reducible apply Kept.next
    | with_reducible apply Kept.ite
    | with_reducible apply Kept.iteOut
    | split

/-! Banks -/

theorem State.setScrub_kept {a1} {a2} (h : s.Kept q w) :
    (State.setScrub s a1 a2).Kept q w := by
  unfold State.setScrub
  repeat' first
    | with_reducible assumption
    | (simp only [Kept.mk_iff]; with_reducible apply Kept.toF)

theorem State.startClear_kept {a1} (h : s.Kept q w) :
    (State.startClear s a1).Kept q w := by
  unfold State.startClear
  repeat' first
    | with_reducible assumption
    | with_reducible apply State.setBit_kept
    | with_reducible apply State.setScrub_kept

theorem execClearDone_kept {a0} (h : s.Kept q w) :
    KeptOut q w (execClearDone a0 s) := by
  unfold execClearDone
  repeat' first
    | with_reducible assumption
    | (extract_lets +onlyGivenNames x; have hx : State.Kept q w x := ?_; (on_goal 2 => unfold x; clear x); clear_value x; rename' x => x1)
    | with_reducible apply State.setBit_kept
    | with_reducible apply State.setEState_kept
    | with_reducible apply Kept.next
    | with_reducible apply Kept.ite
    | with_reducible apply Kept.iteOut

theorem State.setRing_kept {a1} {a2} {a3} (h : s.Kept q w) :
    (State.setRing s a1 a2 a3).Kept q w := by
  unfold State.setRing
  repeat' first
    | with_reducible assumption
    | with_reducible apply State.setBit_kept
    | with_reducible apply State.setFld_kept
    | with_reducible apply Kept.ite

theorem State.startRingTest_kept {a1} {a2} (h : s.Kept q w) :
    (State.startRingTest s a1 a2).Kept q w := by
  unfold State.startRingTest
  repeat' first
    | with_reducible assumption
    | with_reducible apply State.zeroCredits_kept
    | with_reducible apply State.setRing_kept
    | with_reducible apply Kept.ite

theorem State.readmit_kept {a1} (h : s.Kept q w) :
    (State.readmit s a1).Kept q w := by
  unfold State.readmit
  repeat' first
    | with_reducible assumption
    | (extract_lets +onlyGivenNames x; clear_value x; rename' x => x1)
    | with_reducible apply State.startReadmit_kept
    | with_reducible apply State.startRingTest_kept
    | with_reducible apply Kept.ite
    | split

theorem State.judgeReadmit_kept (h : s.Kept q w) :
    (State.judgeReadmit s).Kept q w := by
  unfold State.judgeReadmit
  repeat' first
    | with_reducible assumption
    | (intro)
    | (extract_lets +onlyGivenNames x; have hx : State.Kept q w x := ?_; (on_goal 2 => unfold x; clear x); clear_value x; rename' x => x1)
    | with_reducible apply State.startReadmit_kept
    | with_reducible apply State.startRingTest_kept
    | with_reducible apply Kept.ite
    | with_reducible apply Kept.foldl

theorem State.tellRing_kept {a1} {a2} {a3} (h : s.Kept q w) :
    (State.tellRing s a1 a2 a3).Kept q w := by
  unfold State.tellRing
  repeat' first
    | with_reducible assumption
    | with_reducible apply State.notify_kept

theorem State.failStack_kept {a1} (h : s.Kept q w) :
    (State.failStack s a1).Kept q w := by
  unfold State.failStack
  repeat' first
    | with_reducible assumption
    | (intro)
    | (extract_lets +onlyGivenNames x; have hx : State.Kept q w x := ?_; (on_goal 2 => unfold x; clear x); clear_value x; rename' x => x1)
    | (extract_lets +onlyGivenNames x; clear_value x; rename' x => x1)
    | with_reducible apply State.grow_kept
    | with_reducible apply State.notify_kept
    | with_reducible apply State.wantFull_kept
    | with_reducible apply Kept.ite
    | with_reducible apply Kept.foldl
    | (simp only [Kept.mk_iff]; with_reducible apply Kept.toF)

theorem execHbmStackFault_kept {a0} (h : s.Kept q w) :
    KeptOut q w (execHbmStackFault a0 s) := by
  unfold execHbmStackFault
  repeat' first
    | with_reducible assumption
    | with_reducible apply State.failStack_kept
    | with_reducible apply Kept.next

theorem State.retain_kept {a1} (h : s.Kept q w) :
    (State.retain s a1).Kept q w := by
  unfold State.retain
  repeat' first
    | with_reducible assumption
    | with_reducible apply State.setScrub_kept
    | with_reducible apply State.setBit_kept
    | with_reducible apply State.setEState_kept

theorem execEccWriteBack_kept {a0} {a1} (h : s.Kept q w) :
    KeptOut q w (execEccWriteBack a0 a1 s) := by
  unfold execEccWriteBack
  repeat' first
    | with_reducible assumption
    | with_reducible apply Kept.next
    | with_reducible apply Kept.iteOut
    | (simp only [Kept.mk_iff]; with_reducible apply Kept.toF)
    | split

theorem execRetentionEntry_kept {a0} (h : s.Kept q w) :
    KeptOut q w (execRetentionEntry a0 s) := by
  unfold execRetentionEntry
  repeat' first
    | with_reducible assumption
    | with_reducible apply State.retain_kept
    | with_reducible apply Kept.next
    | with_reducible apply Kept.iteOut

theorem State.failTenants_kept {a1} (h : s.Kept q w) :
    (State.failTenants s a1).Kept q w := by
  unfold State.failTenants
  repeat' first
    | with_reducible assumption
    | (intro)
    | (extract_lets +onlyGivenNames x; clear_value x; rename' x => x1)
    | with_reducible apply State.holdFailure_kept
    | with_reducible apply State.declare_kept
    | with_reducible apply Kept.ite
    | with_reducible apply Kept.foldl
    | split

theorem execEngineReadmitted_kept {a0} (h : s.Kept q w) :
    KeptOut q w (execEngineReadmitted a0 s) := by
  unfold execEngineReadmitted
  repeat' first
    | with_reducible assumption
    | (extract_lets +onlyGivenNames x; have hx : State.Kept q w x := ?_; (on_goal 2 => unfold x; clear x); clear_value x; rename' x => x1)
    | (extract_lets +onlyGivenNames x; clear_value x; rename' x => x1)
    | with_reducible apply State.setBit_kept
    | with_reducible apply State.setRstEng_kept
    | with_reducible apply State.grantCredits_kept
    | with_reducible apply State.setLock_kept
    | with_reducible apply State.tell_kept
    | with_reducible apply State.setEState_kept
    | with_reducible apply State.tellRing_kept
    | with_reducible apply State.secNotice_kept
    | with_reducible apply State.setRing_kept
    | with_reducible apply Kept.next
    | with_reducible apply Kept.iteOut
    | (simp only [Kept.mk_iff]; with_reducible apply Kept.toF)
    | split

theorem execFabricRingFault_kept {a0} {a1} {a2} (h : s.Kept q w) :
    KeptOut q w (execFabricRingFault a0 a1 a2 s) := by
  unfold execFabricRingFault
  repeat' first
    | with_reducible assumption
    | (extract_lets +onlyGivenNames x; have hx : State.Kept q w x := ?_; (on_goal 2 => unfold x; clear x); clear_value x; rename' x => x1)
    | (extract_lets +onlyGivenNames x; clear_value x; rename' x => x1)
    | with_reducible apply State.setFld_kept
    | with_reducible apply State.setRing_kept
    | with_reducible apply State.count_kept
    | with_reducible apply State.tellRing_kept
    | with_reducible apply State.secNotice_kept
    | with_reducible apply State.startRingTest_kept
    | with_reducible apply Kept.next
    | with_reducible apply Kept.ite
    | with_reducible apply Kept.iteOut

theorem State.badWord_kept {a1} {a2} (h : s.Kept q w) :
    (State.badWord s a1 a2).Kept q w := by
  unfold State.badWord
  repeat' first
    | with_reducible assumption
    | (extract_lets +onlyGivenNames x; clear_value x; rename' x => x1)
    | with_reducible apply State.failTenants_kept
    | with_reducible apply State.cancelMove_kept
    | with_reducible apply State.giveUpMirrorMove_kept
    | with_reducible apply State.loseMirror_kept
    | with_reducible apply Kept.ite

theorem State.retire_kept {a1} (h : s.Kept q w) :
    (State.retire s a1).Kept q w := by
  unfold State.retire
  repeat' first
    | with_reducible assumption
    | with_reducible apply State.tell_kept
    | with_reducible apply State.setFld_kept
    | with_reducible apply State.setEState_kept

theorem State.eccRead_kept {a1} {a2} {a3} (h : s.Kept q w) :
    (State.eccRead s a1 a2 a3).Kept q w := by
  unfold State.eccRead
  repeat' first
    | with_reducible assumption
    | (extract_lets +onlyGivenNames x; have hx : State.Kept q w x := ?_; (on_goal 2 => unfold x; clear x); clear_value x; rename' x => x1)
    | with_reducible apply State.setFld_kept
    | with_reducible apply State.count_kept
    | with_reducible apply State.badWord_kept
    | with_reducible apply State.setBit_kept
    | (simp only [Kept.mk_iff]; with_reducible apply Kept.toF)
    | split

theorem execScrubRead_kept {a0} {a1} {a2} (h : s.Kept q w) :
    KeptOut q w (execScrubRead a0 a1 a2 s) := by
  unfold execScrubRead
  repeat' first
    | with_reducible assumption
    | (extract_lets +onlyGivenNames x; have hx : State.Kept q w x := ?_; (on_goal 2 => unfold x; clear x); clear_value x; rename' x => x1)
    | (extract_lets +onlyGivenNames x; clear_value x; rename' x => x1)
    | with_reducible apply State.count_kept
    | with_reducible apply State.setScrub_kept
    | with_reducible apply State.eccRead_kept
    | with_reducible apply Kept.next
    | with_reducible apply Kept.ite
    | with_reducible apply Kept.iteOut

theorem execEngineWake_kept {a0} (h : s.Kept q w) :
    KeptOut q w (execEngineWake a0 s) := by
  unfold execEngineWake
  repeat' first
    | with_reducible assumption
    | with_reducible apply State.wakeEngine_kept
    | with_reducible apply Kept.next

theorem execSelftestDone_kept {a0} {a1} (h : s.Kept q w) :
    KeptOut q w (execSelftestDone a0 a1 s) := by
  unfold execSelftestDone
  repeat' first
    | with_reducible assumption
    | (extract_lets +onlyGivenNames x; clear_value x; rename' x => x1)
    | with_reducible apply State.startClear_kept
    | with_reducible apply State.setEState_kept
    | with_reducible apply State.retire_kept
    | with_reducible apply State.setRing_kept
    | with_reducible apply Kept.next
    | with_reducible apply Kept.iteOut
    | (simp only [Kept.mk_iff]; with_reducible apply Kept.toF)
    | split

/-! Pio -/

theorem State.pioSyncAll_kept {a1} (h : s.Kept q w) :
    (State.pioSyncAll s a1).Kept q w := by
  unfold State.pioSyncAll
  repeat' first
    | with_reducible assumption
    | (intro)
    | with_reducible apply State.pioSync_kept
    | with_reducible apply Kept.foldl

theorem State.groupWrite_kept {a1} {a2} (h : s.Kept q w) :
    (State.groupWrite s a1 a2).Kept q w := by
  unfold State.groupWrite
  repeat' first
    | with_reducible assumption
    | (extract_lets +onlyGivenNames x; clear_value x; rename' x => x1)
    | (simp only [Kept.mk_iff]; with_reducible apply Kept.toF)

theorem State.imemWrite_kept {a1} {a2} (h : s.Kept q w) :
    (State.imemWrite s a1 a2).Kept q w := by
  unfold State.imemWrite
  repeat' first
    | with_reducible assumption
    | (extract_lets +onlyGivenNames x; clear_value x; rename' x => x1)
    | with_reducible apply State.setWord_kept
    | (simp only [Kept.mk_iff]; with_reducible apply Kept.toF)

theorem State.txWrite_kept {a1} {a2} {a3} {a4} (h : s.Kept q w) :
    (State.txWrite s a1 a2 a3 a4).Kept q w := by
  unfold State.txWrite
  repeat' first
    | with_reducible assumption
    | (extract_lets +onlyGivenNames x; clear_value x; rename' x => x1)
    | with_reducible apply State.setPioCh_kept
    | with_reducible apply State.countNow_kept
    | with_reducible apply State.raiseNow_kept
    | with_reducible apply Kept.ite

theorem State.rxRead_kept1 {a1} {a2} (h : s.Kept q w) :
    State.Kept q w (State.rxRead s a1 a2).1 := by
  unfold State.rxRead
  repeat' first
    | with_reducible assumption
    | (extract_lets +onlyGivenNames x; clear_value x; rename' x => x1)
    | with_reducible apply State.setPioCh_kept
    | with_reducible apply State.raiseNow_kept
    | split

theorem State.rxRead_kept {a1} {a2} {s1 : State} {y} (h : s.Kept q w)
    (e : State.rxRead s a1 a2 = (s1, y)) : s1.Kept q w := by
  have := State.rxRead_kept1 (a1 := a1) (a2 := a2) h
  rwa [e] at this

theorem State.pioHold_kept {a1} {a2} {a3} (h : s.Kept q w) :
    (State.pioHold s a1 a2 a3).Kept q w := by
  unfold State.pioHold
  repeat' first
    | with_reducible assumption
    | (extract_lets +onlyGivenNames x; clear_value x; rename' x => x1)
    | with_reducible apply State.setBit_kept
    | with_reducible apply State.setPioCh_kept

theorem State.pioTick_kept {s1 : State} {a1 a2 : Nat} (h : s.Kept q w)
    (e : s.pioTick a1 a2 = some s1) : s1.Kept q w := by
  have hs : (s.pioSync a1 a2).Kept q w := State.pioSync_kept h
  unfold State.pioTick at e
  dsimp only at e
  split at e
  · exact Kept.some (State.setPioCh_kept hs) e
  · cases e

theorem runPio_kept {i : Fin 4} {j : Fin 32} {op : Nat}
    {g : State → Nat → State} (h : s.Kept q w) (hg : ∀ s v, s.Kept q w → (g s v).Kept q w) :
    KeptOut q w (runPio i j op g s) := by
  unfold runPio
  split
  · exact Kept.next h
  · rename_i e
    dsimp only
    split
    · exact Kept.next (State.settle_kept (hg _ _ (State.pioTick_kept h e)))
    · exact Kept.next h

theorem State.pioGoto_kept {a1} {a2} {a3} (h : s.Kept q w) :
    (State.pioGoto s a1 a2 a3).Kept q w := by
  unfold State.pioGoto
  repeat' first
    | with_reducible assumption
    | (extract_lets +onlyGivenNames x; have hx : State.Kept q w x := ?_; (on_goal 2 => unfold x; clear x); clear_value x; rename' x => x1)
    | (extract_lets +onlyGivenNames x; clear_value x; rename' x => x1)
    | with_reducible apply State.setPioCh_kept
    | with_reducible apply State.setBit_kept
    | with_reducible apply State.setFld_kept

theorem State.pioNext_kept {a1} {a2} (h : s.Kept q w) :
    (State.pioNext s a1 a2).Kept q w := by
  unfold State.pioNext
  repeat' first
    | with_reducible assumption
    | with_reducible apply State.pioGoto_kept

theorem State.pioFlag_kept {a1} {a2} {a3} (h : s.Kept q w) :
    (State.pioFlag s a1 a2 a3).Kept q w := by
  unfold State.pioFlag
  repeat' first
    | with_reducible assumption
    | with_reducible apply State.setBit_kept

theorem execPioPush_kept {a0} {a1} (h : s.Kept q w) :
    KeptOut q w (execPioPush a0 a1 s) := by
  unfold execPioPush
  repeat' first
    | with_reducible assumption
    | (intro)
    | (extract_lets +onlyGivenNames x; have hx : State.Kept q w x := ?_; (on_goal 2 => unfold x; clear x); clear_value x; rename' x => x1)
    | (extract_lets +onlyGivenNames x; have hx : ∀ t , State.Kept q w t → State.Kept q w (x t ) := ?_; (on_goal 2 => unfold x; clear x); clear_value x; rename' x => x1, hx => hf)
    | (extract_lets +onlyGivenNames x; clear_value x; rename' x => x1)
    | with_reducible apply runPio_kept
    | with_reducible apply State.pioNext_kept
    | with_reducible apply State.setFld_kept
    | with_reducible apply State.setPioCh_kept
    | with_reducible apply State.pioHold_kept
    | with_reducible apply State.count_kept
    | with_reducible apply State.pioFlag_kept
    | with_reducible apply hf
    | with_reducible apply Kept.ite

theorem State.setVenue_kept {a1} {a2} (h : s.Kept q w) :
    (State.setVenue s a1 a2).Kept q w := by
  unfold State.setVenue
  repeat' first
    | with_reducible assumption
    | (extract_lets +onlyGivenNames x; have hx : State.Kept q w x := ?_; (on_goal 2 => unfold x; clear x); clear_value x; rename' x => x1)
    | (extract_lets +onlyGivenNames x; clear_value x; rename' x => x1)
    | with_reducible apply State.inputsMoved_kept
    | (simp only [Kept.mk_iff]; with_reducible apply Kept.toF)

theorem execPinEdge_kept {a0} {a1} (h : s.Kept q w) :
    KeptOut q w (execPinEdge a0 a1 s) := by
  unfold execPinEdge
  repeat' first
    | with_reducible assumption
    | with_reducible apply State.settle_kept
    | with_reducible apply State.seePin_kept
    | with_reducible apply State.setVenue_kept
    | with_reducible apply Kept.next

theorem State.pioLanes_kept {a1} {a2} {a3} {a4} {a5} (h : s.Kept q w) :
    (State.pioLanes s a1 a2 a3 a4 a5).Kept q w := by
  unfold State.pioLanes
  repeat' first
    | with_reducible assumption
    | (extract_lets +onlyGivenNames x; clear_value x; rename' x => x1)
    | with_reducible apply State.setPioCh_kept

theorem execPioSet_kept {a0} {a1} (h : s.Kept q w) :
    KeptOut q w (execPioSet a0 a1 s) := by
  unfold execPioSet
  repeat' first
    | with_reducible assumption
    | (intro)
    | (extract_lets +onlyGivenNames x; have hx : State.Kept q w x := ?_; (on_goal 2 => unfold x; clear x); clear_value x; rename' x => x1)
    | with_reducible apply runPio_kept
    | with_reducible apply State.pioLanes_kept
    | with_reducible apply State.setFld_kept
    | with_reducible apply State.pioNext_kept
    | split

theorem execPioBadInstr_kept {a0} {a1} (h : s.Kept q w) :
    KeptOut q w (execPioBadInstr a0 a1 s) := by
  unfold execPioBadInstr
  repeat' first
    | with_reducible assumption
    | (extract_lets +onlyGivenNames x; have hx : State.Kept q w x := ?_; (on_goal 2 => unfold x; clear x); clear_value x; rename' x => x1)
    | (extract_lets +onlyGivenNames x; clear_value x; rename' x => x1)
    | (with_reducible refine State.pioTick_kept ?_ (by assumption))
    | with_reducible apply State.pioFlag_kept
    | with_reducible apply State.setRun_kept
    | with_reducible apply State.settle_kept
    | with_reducible apply State.setBit_kept
    | with_reducible apply State.setPioCh_kept
    | with_reducible apply Kept.next
    | with_reducible apply Kept.iteOut
    | split

theorem State.pioCond_kept1 {a1} {a2} {a3} (h : s.Kept q w) :
    State.Kept q w (State.pioCond s a1 a2 a3).1 := by
  unfold State.pioCond
  repeat' first
    | with_reducible assumption
    | (extract_lets +onlyGivenNames x; clear_value x; rename' x => x1)
    | with_reducible apply State.setFld_kept
    | split

theorem State.pioCond_kept {a1} {a2} {a3} {s1 : State} {y} (h : s.Kept q w)
    (e : State.pioCond s a1 a2 a3 = (s1, y)) : s1.Kept q w := by
  have := State.pioCond_kept1 (a1 := a1) (a2 := a2) (a3 := a3) h
  rwa [e] at this

theorem execPioDelay_kept {a0} {a1} (h : s.Kept q w) :
    KeptOut q w (execPioDelay a0 a1 s) := by
  unfold execPioDelay
  repeat' first
    | with_reducible assumption
    | (intro)
    | (extract_lets +onlyGivenNames x; clear_value x; rename' x => x1)
    | with_reducible apply runPio_kept
    | with_reducible apply State.pioNext_kept
    | with_reducible apply State.pioHold_kept
    | with_reducible apply Kept.ite

theorem execPioOut_kept {a0} {a1} (h : s.Kept q w) :
    KeptOut q w (execPioOut a0 a1 s) := by
  unfold execPioOut
  repeat' first
    | with_reducible assumption
    | (intro)
    | (extract_lets +onlyGivenNames x; have hx : State.Kept q w x := ?_; (on_goal 2 => unfold x; clear x); clear_value x; rename' x => x1)
    | (extract_lets +onlyGivenNames x; clear_value x; rename' x => x1)
    | with_reducible apply runPio_kept
    | with_reducible apply State.setPioCh_kept
    | with_reducible apply State.setFld_kept
    | with_reducible apply State.pioLanes_kept
    | with_reducible apply State.pioNext_kept
    | split

theorem execPioIn_kept {a0} {a1} (h : s.Kept q w) :
    KeptOut q w (execPioIn a0 a1 s) := by
  unfold execPioIn
  repeat' first
    | with_reducible assumption
    | (intro)
    | (extract_lets +onlyGivenNames x; have hx : State.Kept q w x := ?_; (on_goal 2 => unfold x; clear x); clear_value x; rename' x => x1)
    | (extract_lets +onlyGivenNames x; clear_value x; rename' x => x1)
    | with_reducible apply runPio_kept
    | with_reducible apply State.setPioCh_kept
    | with_reducible apply State.pioNext_kept
    | with_reducible apply State.setFld_kept

theorem execPioWait_kept {a0} {a1} (h : s.Kept q w) :
    KeptOut q w (execPioWait a0 a1 s) := by
  unfold execPioWait
  repeat' first
    | with_reducible assumption
    | (intro)
    | (extract_lets +onlyGivenNames x; clear_value x; rename' x => x1)
    | with_reducible apply runPio_kept
    | with_reducible apply State.pioNext_kept
    | with_reducible apply State.pioHold_kept
    | with_reducible apply Kept.ite

theorem execPioJmp_kept {a0} {a1} (h : s.Kept q w) :
    KeptOut q w (execPioJmp a0 a1 s) := by
  unfold execPioJmp
  repeat' first
    | with_reducible assumption
    | (intro)
    | with_reducible apply runPio_kept
    | with_reducible apply State.pioCond_kept1
    | with_reducible apply State.pioGoto_kept
    | with_reducible apply State.pioNext_kept
    | with_reducible apply Kept.ite

theorem execPioPull_kept {a0} {a1} (h : s.Kept q w) :
    KeptOut q w (execPioPull a0 a1 s) := by
  unfold execPioPull
  repeat' first
    | with_reducible assumption
    | (intro)
    | (extract_lets +onlyGivenNames x; have hx : State.Kept q w x := ?_; (on_goal 2 => unfold x; clear x); clear_value x; rename' x => x1)
    | (extract_lets +onlyGivenNames x; clear_value x; rename' x => x1)
    | with_reducible apply runPio_kept
    | with_reducible apply State.setPioCh_kept
    | with_reducible apply State.pioNext_kept
    | with_reducible apply State.setFld_kept
    | with_reducible apply State.pioHold_kept
    | with_reducible apply State.count_kept
    | with_reducible apply State.pioFlag_kept
    | with_reducible apply Kept.ite
    | split

/-! ModTimers -/

theorem State.syncMt_kept {a1} (h : s.Kept q w) :
    (State.syncMt s a1).Kept q w := by
  unfold State.syncMt
  repeat' first
    | with_reducible assumption
    | (extract_lets +onlyGivenNames x; clear_value x; rename' x => x1)
    | with_reducible apply State.setMt_kept

theorem State.markCyc_kept {a1} (h : s.Kept q w) :
    (State.markCyc s a1).Kept q w := by
  unfold State.markCyc
  repeat' first
    | with_reducible assumption
    | (intro)
    | (extract_lets +onlyGivenNames x; clear_value x; rename' x => x1)
    | with_reducible apply State.setMt_kept
    | with_reducible apply Kept.ite
    | with_reducible apply Kept.foldl

theorem State.mtRestart_kept {a1} (h : s.Kept q w) :
    (State.mtRestart s a1).Kept q w := by
  unfold State.mtRestart
  repeat' first
    | with_reducible assumption
    | (extract_lets +onlyGivenNames x; clear_value x; rename' x => x1)
    | with_reducible apply State.markCyc_kept
    | with_reducible apply State.setMt_kept

theorem State.setHalves_kept {a1} {a2} {a3} (h : s.Kept q w) :
    (State.setHalves s a1 a2 a3).Kept q w := by
  unfold State.setHalves
  repeat' first
    | with_reducible assumption
    | with_reducible apply State.setFld_kept

theorem State.periodWrite_kept {a1} {a2} {a3} {a4} (h : s.Kept q w) :
    (State.periodWrite s a1 a2 a3 a4).Kept q w := by
  unfold State.periodWrite
  repeat' first
    | with_reducible assumption
    | (extract_lets +onlyGivenNames x; clear_value x; rename' x => x1)
    | with_reducible apply State.setMt_kept
    | with_reducible apply State.setHalves_kept
    | with_reducible apply Kept.ite

theorem State.channelWrite_kept {a1} {a2} {a3} {a4} {a5} {a6} (h : s.Kept q w) :
    (State.channelWrite s a1 a2 a3 a4 a5 a6).Kept q w := by
  unfold State.channelWrite
  repeat' first
    | with_reducible assumption
    | (extract_lets +onlyGivenNames x; have hx : State.Kept q w x := ?_; (on_goal 2 => unfold x; clear x); clear_value x; rename' x => x1)
    | (extract_lets +onlyGivenNames x; clear_value x; rename' x => x1)
    | with_reducible apply State.setMt_kept
    | with_reducible apply State.setHalves_kept
    | with_reducible apply Kept.ite

theorem State.mtWrite_kept {s1 : State} {a : Nat} {mask data : Word} (h : s.Kept q w)
    (e : s.mtWrite a mask data = some s1) : s1.Kept q w := by
  unfold State.mtWrite at e
  dsimp only at e
  split at e
  · exact Kept.some (State.periodWrite_kept h) e
  split at e
  · exact Kept.some (Kept.ite h (State.periodWrite_kept h)) e
  split at e
  · exact Kept.some (Kept.ite h (State.channelWrite_kept h)) e
  · cases e

theorem State.flagCapture_kept {a1} {a2} (h : s.Kept q w) :
    (State.flagCapture s a1 a2).Kept q w := by
  unfold State.flagCapture
  repeat' first
    | with_reducible assumption
    | (extract_lets +onlyGivenNames x; have hx : State.Kept q w x := ?_; (on_goal 2 => unfold x; clear x); clear_value x; rename' x => x1)
    | with_reducible apply State.count_kept
    | with_reducible apply State.setBit_kept
    | with_reducible apply Kept.ite

theorem State.useHalves_kept {a1} {a2} {a3} (h : s.Kept q w) :
    (State.useHalves s a1 a2 a3).Kept q w := by
  unfold State.useHalves
  repeat' first
    | with_reducible assumption
    | with_reducible apply State.setHalves_kept
    | split

theorem execCompareCycle_kept {a0} {a1} (h : s.Kept q w) :
    KeptOut q w (execCompareCycle a0 a1 s) := by
  unfold execCompareCycle
  repeat' first
    | with_reducible assumption
    | (extract_lets +onlyGivenNames x; clear_value x; rename' x => x1)
    | with_reducible apply State.setBit_kept
    | with_reducible apply State.setMt_kept
    | with_reducible apply Kept.next
    | with_reducible apply Kept.iteOut

theorem State.mtDue_kept {s1 : State} {i : Nat} {r : Bool} (h : s.Kept q w)
    (e : s.mtDue i r = some s1) : s1.Kept q w := by
  unfold State.mtDue at e
  dsimp only at e
  split at e
  · exact Kept.some (State.syncMt_kept h) e
  · cases e

theorem State.applyMt_kept {a1} (h : s.Kept q w) :
    (State.applyMt s a1).Kept q w := by
  unfold State.applyMt
  repeat' first
    | with_reducible assumption
    | (intro)
    | (extract_lets +onlyGivenNames x; have hx : State.Kept q w x := ?_; (on_goal 2 => unfold x; clear x); clear_value x; rename' x => x1)
    | (extract_lets +onlyGivenNames x; clear_value x; rename' x => x1)
    | with_reducible apply State.useHalves_kept
    | with_reducible apply State.setMt_kept
    | with_reducible apply Kept.foldl

theorem State.mtEvent_kept {a1} (h : s.Kept q w) :
    (State.mtEvent s a1).Kept q w := by
  unfold State.mtEvent
  repeat' first
    | with_reducible assumption
    | (extract_lets +onlyGivenNames x; clear_value x; rename' x => x1)
    | with_reducible apply State.setMt_kept
    | with_reducible apply Kept.ite

theorem State.mtTick_kept {a1} (h : s.Kept q w) :
    (State.mtTick s a1).Kept q w := by
  unfold State.mtTick
  repeat' first
    | with_reducible assumption
    | (extract_lets +onlyGivenNames x; have hx : State.Kept q w x := ?_; (on_goal 2 => unfold x; clear x); clear_value x; rename' x => x1)
    | (extract_lets +onlyGivenNames x; clear_value x; rename' x => x1)
    | with_reducible apply State.setMt_kept
    | with_reducible apply State.settle_kept
    | with_reducible apply State.markCyc_kept
    | with_reducible apply State.applyMt_kept
    | with_reducible apply Kept.ite

theorem execPrescalerTick_kept {a0} (h : s.Kept q w) :
    KeptOut q w (execPrescalerTick a0 s) := by
  unfold execPrescalerTick
  repeat' first
    | with_reducible assumption
    | with_reducible apply tenantPrescaler_kept
    | (with_reducible refine State.mtDue_kept ?_ (by assumption))
    | with_reducible apply State.mtTick_kept
    | with_reducible apply Kept.next
    | split

theorem execMtReturnToZero_kept {a0} (h : s.Kept q w) :
    KeptOut q w (execMtReturnToZero a0 s) := by
  unfold execMtReturnToZero
  repeat' first
    | with_reducible assumption
    | (with_reducible refine State.mtDue_kept ?_ (by assumption))
    | with_reducible apply State.mtTick_kept
    | with_reducible apply Kept.next
    | split

theorem State.pairedCapture_kept {a1} {a2} (h : s.Kept q w) :
    (State.pairedCapture s a1 a2).Kept q w := by
  unfold State.pairedCapture
  repeat' first
    | with_reducible assumption
    | (extract_lets +onlyGivenNames x; have hx : State.Kept q w x := ?_; (on_goal 2 => unfold x; clear x); clear_value x; rename' x => x1)
    | (extract_lets +onlyGivenNames x; clear_value x; rename' x => x1)
    | with_reducible apply State.setMt_kept
    | with_reducible apply State.setHalves_kept
    | with_reducible apply State.flagCapture_kept
    | with_reducible apply Kept.ite

theorem State.acceptEdge_kept {a1} {a2} {a3} (h : s.Kept q w) :
    (State.acceptEdge s a1 a2 a3).Kept q w := by
  unfold State.acceptEdge
  repeat' first
    | with_reducible assumption
    | (extract_lets +onlyGivenNames x; have hx : State.Kept q w x := ?_; (on_goal 2 => unfold x; clear x); clear_value x; rename' x => x1)
    | (extract_lets +onlyGivenNames x; clear_value x; rename' x => x1)
    | with_reducible apply State.pairedCapture_kept
    | with_reducible apply State.setMt_kept
    | with_reducible apply State.mtEvent_kept
    | with_reducible apply State.flagCapture_kept
    | with_reducible apply State.setHalves_kept
    | with_reducible apply Kept.ite

theorem execCapture_kept {a0} {a1} {a2} (h : s.Kept q w) :
    KeptOut q w (execCapture a0 a1 a2 s) := by
  unfold execCapture
  repeat' first
    | with_reducible assumption
    | (extract_lets +onlyGivenNames x; have hx : State.Kept q w x := ?_; (on_goal 2 => unfold x; clear x); clear_value x; rename' x => x1)
    | (extract_lets +onlyGivenNames x; clear_value x; rename' x => x1)
    | with_reducible apply State.advance_kept
    | with_reducible apply State.setMt_kept
    | with_reducible apply State.acceptEdge_kept
    | with_reducible apply Kept.next
    | with_reducible apply Kept.iteOut

/-! Timebase -/

theorem State.tbCommit_kept {a1} (h : s.Kept q w) :
    (State.tbCommit s a1).Kept q w := by
  unfold State.tbCommit
  repeat' first
    | with_reducible assumption
    | with_reducible apply State.setFld_kept
    | with_reducible apply State.raiseNow_kept
    | (simp only [Kept.mk_iff]; with_reducible apply Kept.toF)
    | split

theorem State.tbCtlWrite_kept {a1} {a2} {a3} (h : s.Kept q w) :
    (State.tbCtlWrite s a1 a2 a3).Kept q w := by
  unfold State.tbCtlWrite
  repeat' first
    | with_reducible assumption
    | (extract_lets +onlyGivenNames x; have hx : State.Kept q w x := ?_; (on_goal 2 => unfold x; clear x); clear_value x; rename' x => x1)
    | (extract_lets +onlyGivenNames x; clear_value x; rename' x => x1)
    | with_reducible apply State.setBit_kept
    | with_reducible apply State.tbCommit_kept
    | with_reducible apply Kept.ite

theorem execTbLineStart_kept {a0} {a1} (h : s.Kept q w) :
    KeptOut q w (execTbLineStart a0 a1 s) := by
  unfold execTbLineStart
  repeat' first
    | with_reducible assumption
    | (intro)
    | (extract_lets +onlyGivenNames x; have hx : State.Kept q w x := ?_; (on_goal 2 => unfold x; clear x); clear_value x; rename' x => x1)
    | with_reducible apply State.advance_kept
    | with_reducible apply State.mtEvent_kept
    | with_reducible apply Kept.next
    | with_reducible apply Kept.ite
    | with_reducible apply Kept.iteOut
    | with_reducible apply Kept.foldl

end Sys2Proof.Machine
end

