-- ==== Sys2Proof/Laws/KeptPower.lean ====
section
/-! SUPPORT. The firmware, tenant and power commands end in a next state and keep the queue and the canonical form of the tables. -/

namespace Sys2Proof.Machine

variable {q : List Instr} {w : Prop} {s : State}

/-! Fwu -/

theorem State.applySettings_kept {a1} (h : s.Kept q w) :
    (State.applySettings s a1).Kept q w := by
  unfold State.applySettings
  repeat' first
    | with_reducible assumption
    | (intro)
    | (extract_lets +onlyGivenNames x; have hx : State.Kept q w x := ?_; (on_goal 2 => unfold x; clear x); clear_value x; rename' x => x1)
    | (extract_lets +onlyGivenNames x; clear_value x; rename' x => x1)
    | with_reducible apply State.nvsRecord_kept
    | with_reducible apply State.notify_kept
    | with_reducible apply State.setBit_kept
    | with_reducible apply Kept.ite
    | with_reducible apply Kept.foldl
    | (simp only [Kept.mk_iff]; with_reducible apply Kept.toF)

theorem State.startImage_kept (h : s.Kept q w) :
    (State.startImage s).Kept q w := by
  unfold State.startImage
  repeat' first
    | with_reducible assumption
    | with_reducible apply State.applySettings_kept

theorem State.setSlots_kept {a1} (h : s.Kept q w) :
    (State.setSlots s a1).Kept q w := by
  unfold State.setSlots
  repeat' first
    | with_reducible assumption
    | with_reducible apply State.setFld_kept

theorem State.fwRecord_kept (h : s.Kept q w) :
    (State.fwRecord s).Kept q w := by
  unfold State.fwRecord
  repeat' first
    | with_reducible assumption
    | with_reducible apply State.nvsRecord_kept

theorem State.restoreRoles_kept (h : s.Kept q w) :
    (State.restoreRoles s).Kept q w := by
  unfold State.restoreRoles
  repeat' first
    | with_reducible assumption
    | (extract_lets +onlyGivenNames x; clear_value x; rename' x => x1)
    | with_reducible apply State.setSlots_kept
    | with_reducible apply State.fwRecord_kept
    | (simp only [Kept.mk_iff]; with_reducible apply Kept.toF)

theorem State.fwRoles_kept {a1} (h : s.Kept q w) :
    (State.fwRoles s a1).Kept q w := by
  unfold State.fwRoles
  repeat' first
    | with_reducible assumption
    | (extract_lets +onlyGivenNames x; have hx : State.Kept q w x := ?_; (on_goal 2 => unfold x; clear x); clear_value x; rename' x => x1)
    | (extract_lets +onlyGivenNames x; clear_value x; rename' x => x1)
    | with_reducible apply State.readPage_kept1
    | with_reducible apply State.setSlots_kept
    | with_reducible apply State.restoreRoles_kept
    | with_reducible apply Kept.ite
    | (simp only [Kept.mk_iff]; with_reducible apply Kept.toF)

theorem State.fwStart_kept {a1} (h : s.Kept q w) :
    (State.fwStart s a1).Kept q w := by
  unfold State.fwStart
  repeat' first
    | with_reducible assumption
    | with_reducible apply State.startImage_kept
    | with_reducible apply State.fwRoles_kept

theorem State.setPhase_kept {a1} (h : s.Kept q w) :
    (State.setPhase s a1).Kept q w := by
  unfold State.setPhase
  repeat' first
    | with_reducible assumption
    | with_reducible apply State.setFld_kept

theorem State.stagePages_kept {a1} {a2} {a3} (h : s.Kept q w) :
    (State.stagePages s a1 a2 a3).Kept q w := by
  unfold State.stagePages
  repeat' first
    | with_reducible assumption
    | (intro)
    | (extract_lets +onlyGivenNames x; clear_value x; rename' x => x1)
    | with_reducible apply State.nvsAsk_kept
    | with_reducible apply Kept.foldl

theorem State.fwReject_kept (h : s.Kept q w) :
    (State.fwReject s).Kept q w := by
  unfold State.fwReject
  repeat' first
    | with_reducible assumption
    | with_reducible apply State.countNow_kept

theorem State.fwVerify_kept (h : s.Kept q w) :
    (State.fwVerify s).Kept q w := by
  unfold State.fwVerify
  repeat' first
    | with_reducible assumption
    | (extract_lets +onlyGivenNames x; clear_value x; rename' x => x1)
    | with_reducible apply State.setPhase_kept
    | with_reducible apply State.stagePages_kept
    | with_reducible apply State.fwReject_kept
    | with_reducible apply Kept.ite

theorem State.fwOpen_kept {a1} (h : s.Kept q w) :
    (State.fwOpen s a1).Kept q w := by
  unfold State.fwOpen
  repeat' first
    | with_reducible assumption
    | (extract_lets +onlyGivenNames x; clear_value x; rename' x => x1)
    | with_reducible apply State.setPhase_kept
    | with_reducible apply State.setFld_kept
    | with_reducible apply State.fwReject_kept
    | with_reducible apply Kept.ite
    | (simp only [Kept.mk_iff]; with_reducible apply Kept.toF)

theorem State.takeRoles_kept {a1} {a2} (h : s.Kept q w) :
    (State.takeRoles s a1 a2).Kept q w := by
  unfold State.takeRoles
  repeat' first
    | with_reducible assumption
    | (extract_lets +onlyGivenNames x; clear_value x; rename' x => x1)
    | with_reducible apply State.setSlots_kept
    | with_reducible apply State.fwRecord_kept
    | (simp only [Kept.mk_iff]; with_reducible apply Kept.toF)

theorem State.fwActivate_kept (h : s.Kept q w) :
    (State.fwActivate s).Kept q w := by
  unfold State.fwActivate
  repeat' first
    | with_reducible assumption
    | with_reducible apply State.setPhase_kept
    | with_reducible apply State.setBit_kept
    | with_reducible apply State.takeRoles_kept
    | with_reducible apply State.fwReject_kept
    | with_reducible apply Kept.ite

theorem State.endTrial_kept (h : s.Kept q w) :
    (State.endTrial s).Kept q w := by
  unfold State.endTrial
  repeat' first
    | with_reducible assumption
    | (extract_lets +onlyGivenNames x; have hx : State.Kept q w x := ?_; (on_goal 2 => unfold x; clear x); clear_value x; rename' x => x1)
    | (extract_lets +onlyGivenNames x; clear_value x; rename' x => x1)
    | with_reducible apply State.fwRecord_kept
    | with_reducible apply State.setPhase_kept
    | with_reducible apply State.setBit_kept
    | (simp only [Kept.mk_iff]; with_reducible apply Kept.toF)

theorem State.fwConfirm_kept (h : s.Kept q w) :
    (State.fwConfirm s).Kept q w := by
  unfold State.fwConfirm
  repeat' first
    | with_reducible assumption
    | with_reducible apply State.endTrial_kept
    | with_reducible apply State.fwReject_kept
    | with_reducible apply Kept.ite

theorem State.fwRollback_kept (h : s.Kept q w) :
    (State.fwRollback s).Kept q w := by
  unfold State.fwRollback
  repeat' first
    | with_reducible assumption
    | (extract_lets +onlyGivenNames x; have hx : State.Kept q w x := ?_; (on_goal 2 => unfold x; clear x); clear_value x; rename' x => x1)
    | (extract_lets +onlyGivenNames x; clear_value x; rename' x => x1)
    | with_reducible apply State.setBit_kept
    | with_reducible apply State.takeRoles_kept
    | with_reducible apply State.startImage_kept
    | with_reducible apply State.setPhase_kept
    | with_reducible apply State.fwReject_kept
    | with_reducible apply Kept.ite

theorem State.fwAbort_kept (h : s.Kept q w) :
    (State.fwAbort s).Kept q w := by
  unfold State.fwAbort
  repeat' first
    | with_reducible assumption
    | with_reducible apply State.setPhase_kept
    | with_reducible apply State.fwReject_kept
    | with_reducible apply Kept.ite

theorem State.fwCmd_kept {a1} {a2} (h : s.Kept q w) :
    (State.fwCmd s a1 a2).Kept q w := by
  unfold State.fwCmd
  repeat' first
    | with_reducible assumption
    | with_reducible apply State.fwOpen_kept
    | with_reducible apply State.fwVerify_kept
    | with_reducible apply State.fwActivate_kept
    | with_reducible apply State.fwConfirm_kept
    | with_reducible apply State.fwRollback_kept
    | with_reducible apply State.fwAbort_kept
    | with_reducible apply State.fwReject_kept
    | split

theorem State.fwChunk_kept {a1} {a2} {a3} {a4} (h : s.Kept q w) :
    (State.fwChunk s a1 a2 a3 a4).Kept q w := by
  unfold State.fwChunk
  repeat' first
    | with_reducible assumption
    | (extract_lets +onlyGivenNames x; have hx : State.Kept q w x := ?_; (on_goal 2 => unfold x; clear x); clear_value x; rename' x => x1)
    | (extract_lets +onlyGivenNames x; clear_value x; rename' x => x1)
    | with_reducible apply State.setFld_kept
    | with_reducible apply State.stagePages_kept
    | with_reducible apply State.setPhase_kept
    | with_reducible apply State.count_kept
    | with_reducible apply Kept.ite
    | (simp only [Kept.mk_iff]; with_reducible apply Kept.toF)

theorem State.fwEvent_kept {a1} {a2} (h : s.Kept q w) :
    (State.fwEvent s a1 a2).Kept q w := by
  unfold State.fwEvent
  repeat' first
    | with_reducible assumption
    | (extract_lets +onlyGivenNames x; have hx : State.Kept q w x := ?_; (on_goal 2 => unfold x; clear x); clear_value x; rename' x => x1)
    | with_reducible apply State.setBit_kept
    | with_reducible apply State.tell_kept
    | with_reducible apply State.notify_kept
    | split

theorem execStandbyReady_kept (h : s.Kept q w) :
    KeptOut q w (execStandbyReady s) := by
  unfold execStandbyReady
  repeat' first
    | with_reducible assumption
    | (extract_lets +onlyGivenNames x; have hx : State.Kept q w x := ?_; (on_goal 2 => unfold x; clear x); clear_value x; rename' x => x1)
    | (extract_lets +onlyGivenNames x; clear_value x; rename' x => x1)
    | with_reducible apply State.setBit_kept
    | with_reducible apply State.settle_kept
    | with_reducible apply State.fwEvent_kept
    | with_reducible apply Kept.next
    | with_reducible apply Kept.iteOut
    | (simp only [Kept.mk_iff]; with_reducible apply Kept.toF)

theorem execFwuSwapped_kept (h : s.Kept q w) :
    KeptOut q w (execFwuSwapped s) := by
  unfold execFwuSwapped
  repeat' first
    | with_reducible assumption
    | (extract_lets +onlyGivenNames x; have hx : State.Kept q w x := ?_; (on_goal 2 => unfold x; clear x); clear_value x; rename' x => x1)
    | (extract_lets +onlyGivenNames x; clear_value x; rename' x => x1)
    | with_reducible apply State.setBit_kept
    | with_reducible apply State.setPhase_kept
    | with_reducible apply State.count_kept
    | with_reducible apply State.fwEvent_kept
    | with_reducible apply State.settle_kept
    | with_reducible apply State.endTrial_kept
    | with_reducible apply Kept.next
    | with_reducible apply Kept.ite
    | with_reducible apply Kept.iteOut
    | (simp only [Kept.mk_iff]; with_reducible apply Kept.toF)

theorem State.fwPfw_kept (h : s.Kept q w) :
    (State.fwPfw s).Kept q w := by
  unfold State.fwPfw
  repeat' first
    | with_reducible assumption
    | with_reducible apply State.setPhase_kept
    | with_reducible apply State.restoreRoles_kept
    | with_reducible apply Kept.ite

theorem State.fwFailover_kept (h : s.Kept q w) :
    (State.fwFailover s).Kept q w := by
  unfold State.fwFailover
  repeat' first
    | with_reducible assumption
    | (extract_lets +onlyGivenNames x; have hx : State.Kept q w x := ?_; (on_goal 2 => unfold x; clear x); clear_value x; rename' x => x1)
    | (extract_lets +onlyGivenNames x; clear_value x; rename' x => x1)
    | with_reducible apply State.setPhase_kept
    | with_reducible apply State.restoreRoles_kept
    | with_reducible apply State.count_kept
    | with_reducible apply State.startImage_kept
    | with_reducible apply State.fwEvent_kept
    | with_reducible apply Kept.ite
    | (simp only [Kept.mk_iff]; with_reducible apply Kept.toF)

theorem State.supSwitch_kept (h : s.Kept q w) :
    (State.supSwitch s).Kept q w := by
  unfold State.supSwitch
  repeat' first
    | with_reducible assumption
    | (extract_lets +onlyGivenNames x; have hx : State.Kept q w x := ?_; (on_goal 2 => unfold x; clear x); clear_value x; rename' x => x1)
    | with_reducible apply State.setBit_kept
    | with_reducible apply State.notify_kept

theorem execSupFailover_kept (h : s.Kept q w) :
    KeptOut q w (execSupFailover s) := by
  unfold execSupFailover
  repeat' first
    | with_reducible assumption
    | (extract_lets +onlyGivenNames x; have hx : State.Kept q w x := ?_; (on_goal 2 => unfold x; clear x); clear_value x; rename' x => x1)
    | (extract_lets +onlyGivenNames x; clear_value x; rename' x => x1)
    | with_reducible apply State.setBit_kept
    | with_reducible apply State.settle_kept
    | with_reducible apply State.fwFailover_kept
    | with_reducible apply State.supSwitch_kept
    | with_reducible apply Kept.next
    | with_reducible apply Kept.iteOut
    | (simp only [Kept.mk_iff]; with_reducible apply Kept.toF)

theorem execSupHeartbeat_kept (h : s.Kept q w) :
    KeptOut q w (execSupHeartbeat s) := by
  unfold execSupHeartbeat
  repeat' first
    | with_reducible assumption
    | (extract_lets +onlyGivenNames x; clear_value x; rename' x => x1)
    | with_reducible apply Kept.next
    | (simp only [Kept.mk_iff]; with_reducible apply Kept.toF)

theorem execFwuVerified_kept (h : s.Kept q w) :
    KeptOut q w (execFwuVerified s) := by
  unfold execFwuVerified
  repeat' first
    | with_reducible assumption
    | (extract_lets +onlyGivenNames x; have hx : State.Kept q w x := ?_; (on_goal 2 => unfold x; clear x); clear_value x; rename' x => x1)
    | (extract_lets +onlyGivenNames x; clear_value x; rename' x => x1)
    | with_reducible apply State.setFld_kept
    | with_reducible apply State.setPhase_kept
    | with_reducible apply State.settle_kept
    | with_reducible apply State.fwEvent_kept
    | with_reducible apply State.count_kept
    | with_reducible apply Kept.next
    | with_reducible apply Kept.iteOut

theorem execTrialEnd_kept (h : s.Kept q w) :
    KeptOut q w (execTrialEnd s) := by
  unfold execTrialEnd
  repeat' first
    | with_reducible assumption
    | (extract_lets +onlyGivenNames x; clear_value x; rename' x => x1)
    | with_reducible apply State.endTrial_kept
    | with_reducible apply Kept.next
    | with_reducible apply Kept.iteOut

theorem execSyncing_kept (h : s.Kept q w) :
    KeptOut q w (execSyncing s) := by
  unfold execSyncing
  repeat' first
    | with_reducible assumption
    | (extract_lets +onlyGivenNames x; have hx : State.Kept q w x := ?_; (on_goal 2 => unfold x; clear x); clear_value x; rename' x => x1)
    | (extract_lets +onlyGivenNames x; clear_value x; rename' x => x1)
    | with_reducible apply State.startImage_kept
    | with_reducible apply State.settle_kept
    | with_reducible apply State.setPhase_kept
    | with_reducible apply State.supSwitch_kept
    | with_reducible apply Kept.next
    | with_reducible apply Kept.iteOut
    | (simp only [Kept.mk_iff]; with_reducible apply Kept.toF)

/-! TenantCmd -/

theorem State.moveTo_kept1 {a1} {a2} {a3} (h : s.Kept q w) :
    State.Kept q w (State.moveTo s a1 a2 a3).1 := by
  unfold State.moveTo
  repeat' first
    | with_reducible assumption
    | (extract_lets +onlyGivenNames x; clear_value x; rename' x => x1)
    | with_reducible apply State.startMove_kept
    | with_reducible apply State.startMirrorMove_kept
    | split

theorem State.moveTo_kept {a1} {a2} {a3} {s1 : State} {y} (h : s.Kept q w)
    (e : State.moveTo s a1 a2 a3 = (s1, y)) : s1.Kept q w := by
  have := State.moveTo_kept1 (a1 := a1) (a2 := a2) (a3 := a3) h
  rwa [e] at this

theorem State.cmdMove_kept1 {a1} {a2} {a3} (h : s.Kept q w) :
    State.Kept q w (State.cmdMove s a1 a2 a3).1 := by
  unfold State.cmdMove
  repeat' first
    | with_reducible assumption
    | (extract_lets +onlyGivenNames x; clear_value x; rename' x => x1)
    | with_reducible apply State.startMove_kept
    | with_reducible apply State.moveTo_kept1
    | split

theorem State.cmdMove_kept {a1} {a2} {a3} {s1 : State} {y} (h : s.Kept q w)
    (e : State.cmdMove s a1 a2 a3 = (s1, y)) : s1.Kept q w := by
  have := State.cmdMove_kept1 (a1 := a1) (a2 := a2) (a3 := a3) h
  rwa [e] at this

theorem State.bindEntry_kept {s1 : State} {k e : Nat} (h : s.Kept q w)
    (he : s.bindEntry k e = some s1) : s1.Kept q w := by
  unfold State.bindEntry at he
  dsimp only at he
  split at he
  · split at he
    · exact Kept.some h he
    · cases he
  · split at he
    · cases he
    · exact Kept.some (State.enableEntry_kept (State.setWord_kept h)) he

theorem State.bindAll_kept {s1 : State} {k : Nat} {es : List Nat} (h : s.Kept q w)
    (he : s.bindAll k es = some s1) : s1.Kept q w := by
  unfold State.bindAll at he
  suffices H : ∀ o : Option State, (∀ s, o = some s → s.Kept q w) →
      ∀ s, es.foldl (fun s e => s.bind fun s => s.bindEntry k e) o = some s → s.Kept q w from
    H (some s) (fun _ e => by cases e; exact h) s1 he
  clear he
  induction es with
  | nil => exact fun _ ho => ho
  | cons x r ih =>
    intro o ho
    apply ih
    · intro t e
      cases o with
      | none => cases e
      | some u => exact State.bindEntry_kept (ho u rfl) e

theorem State.loadTenant_kept {a1} {a2} {a3} (h : s.Kept q w) :
    (State.loadTenant s a1 a2 a3).Kept q w := by
  unfold State.loadTenant
  repeat' first
    | with_reducible assumption
    | (extract_lets +onlyGivenNames x; have hx : State.Kept q w x := ?_; (on_goal 2 => unfold x; clear x); clear_value x; rename' x => x1)
    | with_reducible apply State.raiseEpoch_kept
    | with_reducible apply State.onTenant_kept
    | with_reducible apply State.discardTenant_kept
    | with_reducible apply State.placeHome_kept
    | with_reducible apply State.placed_kept
    | with_reducible apply State.loadSave_kept
    | with_reducible apply Kept.ite
    | split

theorem State.cmdLoad_kept1 {a1} {a2} {a3} (h : s.Kept q w) :
    State.Kept q w (State.cmdLoad s a1 a2 a3).1 := by
  unfold State.cmdLoad
  repeat' first
    | with_reducible assumption
    | (extract_lets +onlyGivenNames x; clear_value x; rename' x => x1)
    | (with_reducible refine State.bindAll_kept ?_ (by assumption))
    | with_reducible apply State.loadTenant_kept
    | split

theorem State.cmdLoad_kept {a1} {a2} {a3} {s1 : State} {y} (h : s.Kept q w)
    (e : State.cmdLoad s a1 a2 a3 = (s1, y)) : s1.Kept q w := by
  have := State.cmdLoad_kept1 (a1 := a1) (a2 := a2) (a3 := a3) h
  rwa [e] at this

theorem State.cmdStart_kept1 {a1} {a2} (h : s.Kept q w) :
    State.Kept q w (State.cmdStart s a1 a2).1 := by
  unfold State.cmdStart
  repeat' first
    | with_reducible assumption
    | (intro)
    | (extract_lets +onlyGivenNames x; have hx : State.Kept q w x := ?_; (on_goal 2 => unfold x; clear x); clear_value x; rename' x => x1)
    | (extract_lets +onlyGivenNames x; clear_value x; rename' x => x1)
    | with_reducible apply State.advance_kept
    | with_reducible apply State.setTenant_kept
    | with_reducible apply State.wantFull_kept
    | with_reducible apply Kept.foldl
    | split

theorem State.cmdStart_kept {a1} {a2} {s1 : State} {y} (h : s.Kept q w)
    (e : State.cmdStart s a1 a2 = (s1, y)) : s1.Kept q w := by
  have := State.cmdStart_kept1 (a1 := a1) (a2 := a2) h
  rwa [e] at this

theorem State.cmdHold_kept1 {a1} (h : s.Kept q w) :
    State.Kept q w (State.cmdHold s a1).1 := by
  unfold State.cmdHold
  repeat' first
    | with_reducible assumption
    | with_reducible apply State.onTenant_kept
    | split

theorem State.cmdHold_kept {a1} {s1 : State} {y} (h : s.Kept q w)
    (e : State.cmdHold s a1 = (s1, y)) : s1.Kept q w := by
  have := State.cmdHold_kept1 (a1 := a1) h
  rwa [e] at this

theorem State.cmdResume_kept1 {a1} {a2} (h : s.Kept q w) :
    State.Kept q w (State.cmdResume s a1 a2).1 := by
  unfold State.cmdResume
  repeat' first
    | with_reducible assumption
    | (extract_lets +onlyGivenNames x; have hx : State.Kept q w x := ?_; (on_goal 2 => unfold x; clear x); clear_value x; rename' x => x1)
    | (extract_lets +onlyGivenNames x; clear_value x; rename' x => x1)
    | with_reducible apply State.advance_kept
    | with_reducible apply State.resumeTenant_kept
    | split

theorem State.cmdResume_kept {a1} {a2} {s1 : State} {y} (h : s.Kept q w)
    (e : State.cmdResume s a1 a2 = (s1, y)) : s1.Kept q w := by
  have := State.cmdResume_kept1 (a1 := a1) (a2 := a2) h
  rwa [e] at this

theorem State.dropArms_kept {a1} (h : s.Kept q w) :
    (State.dropArms s a1).Kept q w := by
  unfold State.dropArms
  repeat' first
    | with_reducible assumption
    | (extract_lets +onlyGivenNames x; clear_value x; rename' x => x1)
    | (simp only [Kept.mk_iff]; with_reducible apply Kept.toF)

theorem State.cmdReset_kept1 {a1} (h : s.Kept q w) :
    State.Kept q w (State.cmdReset s a1).1 := by
  unfold State.cmdReset
  repeat' first
    | with_reducible assumption
    | (extract_lets +onlyGivenNames x; have hx : State.Kept q w x := ?_; (on_goal 2 => unfold x; clear x); clear_value x; rename' x => x1)
    | (extract_lets +onlyGivenNames x; clear_value x; rename' x => x1)
    | with_reducible apply State.dropArms_kept
    | with_reducible apply State.raiseEpoch_kept
    | with_reducible apply State.onTenant_kept
    | with_reducible apply State.beginReset_kept
    | with_reducible apply Kept.ite
    | split

theorem State.cmdReset_kept {a1} {s1 : State} {y} (h : s.Kept q w)
    (e : State.cmdReset s a1 = (s1, y)) : s1.Kept q w := by
  have := State.cmdReset_kept1 (a1 := a1) h
  rwa [e] at this

theorem State.cmdPark_kept1 {a1} (h : s.Kept q w) :
    State.Kept q w (State.cmdPark s a1).1 := by
  unfold State.cmdPark
  repeat' first
    | with_reducible assumption
    | (extract_lets +onlyGivenNames x; clear_value x; rename' x => x1)
    | with_reducible apply State.onTenant_kept
    | split

theorem State.cmdPark_kept {a1} {s1 : State} {y} (h : s.Kept q w)
    (e : State.cmdPark s a1 = (s1, y)) : s1.Kept q w := by
  have := State.cmdPark_kept1 (a1 := a1) h
  rwa [e] at this

theorem State.cmdUnpark_kept1 {a1} {a2} (h : s.Kept q w) :
    State.Kept q w (State.cmdUnpark s a1 a2).1 := by
  unfold State.cmdUnpark
  repeat' first
    | with_reducible assumption
    | (extract_lets +onlyGivenNames x; have hx : State.Kept q w x := ?_; (on_goal 2 => unfold x; clear x); clear_value x; rename' x => x1)
    | (extract_lets +onlyGivenNames x; clear_value x; rename' x => x1)
    | with_reducible apply State.advance_kept
    | with_reducible apply State.onTenant_kept
    | with_reducible apply State.unparkTenant_kept
    | split

theorem State.cmdUnpark_kept {a1} {a2} {s1 : State} {y} (h : s.Kept q w)
    (e : State.cmdUnpark s a1 a2 = (s1, y)) : s1.Kept q w := by
  have := State.cmdUnpark_kept1 (a1 := a1) (a2 := a2) h
  rwa [e] at this

theorem State.cmdMail_kept1 {a1} {a2} {a3} (h : s.Kept q w) :
    State.Kept q w (State.cmdMail s a1 a2 a3).1 := by
  unfold State.cmdMail
  repeat' first
    | with_reducible assumption
    | (extract_lets +onlyGivenNames x; clear_value x; rename' x => x1)
    | with_reducible apply State.onTenant_kept
    | split

theorem State.cmdMail_kept {a1} {a2} {a3} {s1 : State} {y} (h : s.Kept q w)
    (e : State.cmdMail s a1 a2 a3 = (s1, y)) : s1.Kept q w := by
  have := State.cmdMail_kept1 (a1 := a1) (a2 := a2) (a3 := a3) h
  rwa [e] at this

theorem execResetDone_kept {a0} (h : s.Kept q w) :
    KeptOut q w (execResetDone a0 s) := by
  unfold execResetDone
  repeat' first
    | with_reducible assumption
    | (extract_lets +onlyGivenNames x; clear_value x; rename' x => x1)
    | with_reducible apply State.tell_kept
    | with_reducible apply State.setTenant_kept
    | with_reducible apply Kept.next
    | with_reducible apply Kept.iteOut

/-! Power -/

theorem keepRegs_wf (keep : Nat → Word) (r : Store Word) : Store.wf moduleRst (keepRegs keep r) := by
  have H : ∀ n, Store.wf moduleRst n → Store.wf moduleRst (r.foldl (fun n e => if keep e.1 = 0 then n
      else Store.set (moduleRst e.1) n e.1 (blend (keep e.1) e.2 (moduleRst e.1))) n) := by
    induction r with
    | nil => exact fun _ e => e
    | cons x r ih =>
      intro n hn
      apply ih
      dsimp only
      split
      · exact hn
      · exact Store.set_wf _ _ hn
  exact H [] (by decide)

theorem State.cleared_kept {a1 : Nat → Word} (h : s.Kept q w) :
    (s.cleared a1).Kept q w :=
  ⟨h.pending, fun _ => keepRegs_wf _ _, fun _ => rfl, fun _ => List.Pairwise.nil⟩

theorem State.keepRetired_kept {a1} (h : s.Kept q w) :
    (State.keepRetired s a1).Kept q w := by
  unfold State.keepRetired
  repeat' first
    | with_reducible assumption
    | (intro)
    | with_reducible apply State.setFld_kept
    | with_reducible apply Kept.foldl

theorem State.clocksUp_kept (h : s.Kept q w) :
    (State.clocksUp s).Kept q w := by
  unfold State.clocksUp
  repeat' first
    | with_reducible assumption
    | (intro)
    | (extract_lets +onlyGivenNames x; have hx : State.Kept q w x := ?_; (on_goal 2 => unfold x; clear x); clear_value x; rename' x => x1)
    | with_reducible apply State.setFld_kept
    | with_reducible apply State.setBit_kept
    | with_reducible apply State.startClear_kept
    | with_reducible apply Kept.foldl

theorem State.loadKey_kept (h : s.Kept q w) :
    (State.loadKey s).Kept q w := by
  unfold State.loadKey
  repeat' first
    | with_reducible assumption
    | (extract_lets +onlyGivenNames x; clear_value x; rename' x => x1)
    | with_reducible apply State.readPage_kept1
    | with_reducible apply State.setBit_kept
    | with_reducible apply Kept.ite
    | (simp only [Kept.mk_iff]; with_reducible apply Kept.toF)

theorem State.restoreEpochs_kept (h : s.Kept q w) :
    (State.restoreEpochs s).Kept q w := by
  unfold State.restoreEpochs
  repeat' first
    | with_reducible assumption
    | (intro)
    | (extract_lets +onlyGivenNames x; clear_value x; rename' x => x1)
    | with_reducible apply State.readPage_kept1
    | with_reducible apply State.setTenant_kept
    | with_reducible apply Kept.ite
    | with_reducible apply Kept.foldl

theorem State.startUp_kept {a1} {a2} {a3} (h : s.Kept q w) :
    (State.startUp s a1 a2 a3).Kept q w := by
  unfold State.startUp
  repeat' first
    | with_reducible assumption
    | (intro)
    | (extract_lets +onlyGivenNames x; have hx : State.Kept q w x := ?_; (on_goal 2 => unfold x; clear x); clear_value x; rename' x => x1)
    | (extract_lets +onlyGivenNames x; clear_value x; rename' x => x1)
    | with_reducible apply State.cleared_kept
    | with_reducible apply State.count_kept
    | with_reducible apply State.setFld_kept
    | with_reducible apply State.setBit_kept
    | with_reducible apply State.keepRetired_kept
    | with_reducible apply State.clocksUp_kept
    | with_reducible apply State.seePin_kept
    | with_reducible apply State.fwStart_kept
    | with_reducible apply State.panelStart_kept
    | with_reducible apply State.loadKey_kept
    | with_reducible apply State.restoreEpochs_kept
    | with_reducible apply Kept.ite
    | with_reducible apply Kept.foldl
    | (simp only [Kept.mk_iff]; with_reducible apply Kept.toF)

theorem State.wakeStart_kept (h : s.Kept q w) :
    (State.wakeStart s).Kept q w := by
  unfold State.wakeStart
  repeat' first
    | with_reducible assumption
    | with_reducible apply State.startUp_kept
    | with_reducible apply State.lanternWake_kept
    | with_reducible apply Kept.ite

theorem execLanternWake_kept (h : s.Kept q w) :
    KeptOut q w (execLanternWake s) := by
  unfold execLanternWake
  repeat' first
    | with_reducible assumption
    | with_reducible apply State.wakeStart_kept
    | with_reducible apply Kept.next

theorem State.modEnabled_kept (h : s.Kept q w) :
    (State.modEnabled s).Kept q w := by
  unfold State.modEnabled
  repeat' first
    | with_reducible assumption
    | (intro)
    | (extract_lets +onlyGivenNames x; have hx : State.Kept q w x := ?_; (on_goal 2 => unfold x; clear x); clear_value x; rename' x => x1)
    | (extract_lets +onlyGivenNames x; clear_value x; rename' x => x1)
    | with_reducible apply State.setEState_kept
    | with_reducible apply State.setRstEng_kept
    | with_reducible apply Kept.ite
    | with_reducible apply Kept.foldl
    | (simp only [Kept.mk_iff]; with_reducible apply Kept.toF)

theorem State.modDisabled_kept (h : s.Kept q w) :
    (State.modDisabled s).Kept q w := by
  unfold State.modDisabled
  repeat' first
    | with_reducible assumption
    | (intro)
    | (extract_lets +onlyGivenNames x; have hx : State.Kept q w x := ?_; (on_goal 2 => unfold x; clear x); clear_value x; rename' x => x1)
    | (extract_lets +onlyGivenNames x; clear_value x; rename' x => x1)
    | with_reducible apply State.setBit_kept
    | with_reducible apply State.setRstEng_kept
    | with_reducible apply State.setEState_kept
    | with_reducible apply Kept.ite
    | with_reducible apply Kept.foldl
    | (simp only [Kept.mk_iff]; with_reducible apply Kept.toF)

theorem State.pwrRefuse_kept {a1} (h : s.Kept q w) :
    (State.pwrRefuse s a1).Kept q w := by
  unfold State.pwrRefuse
  repeat' first
    | with_reducible assumption
    | with_reducible apply State.tell_kept
    | with_reducible apply State.raiseNow_kept
    | with_reducible apply State.setFld_kept

theorem State.setPower_kept {a1} (h : s.Kept q w) :
    (State.setPower s a1).Kept q w := by
  unfold State.setPower
  repeat' first
    | with_reducible assumption
    | with_reducible apply State.tell_kept
    | with_reducible apply State.setFld_kept

theorem State.parkAll_kept (h : s.Kept q w) :
    s.parkAll.Kept q w := by
  unfold State.parkAll
  refine State.setPower_kept ⟨h.pending, h.regs, h.hbm, fun c => ?_⟩
  have ht := h.tenants c
  rw [List.pairwise_map] at ht
  simp only [List.map_map]
  rw [List.pairwise_map]
  exact ht

theorem State.runAll_kept (h : s.Kept q w) :
    (State.runAll s).Kept q w := by
  unfold State.runAll
  repeat' first
    | with_reducible assumption
    | (intro)
    | (extract_lets +onlyGivenNames x; have hx : State.Kept q w x := ?_; (on_goal 2 => unfold x; clear x); clear_value x; rename' x => x1)
    | (extract_lets +onlyGivenNames x; clear_value x; rename' x => x1)
    | with_reducible apply State.wakeEngine_kept
    | with_reducible apply State.setPower_kept
    | with_reducible apply State.continueTenant_kept
    | with_reducible apply Kept.foldl

theorem State.pinsAsleep_kept (h : s.Kept q w) :
    (State.pinsAsleep s).Kept q w := by
  unfold State.pinsAsleep
  repeat' first
    | with_reducible assumption
    | (extract_lets +onlyGivenNames x; clear_value x; rename' x => x1)
    | (simp only [Kept.mk_iff]; with_reducible apply Kept.toF)

theorem State.drainNvs_kept (h : s.Kept q w) :
    (State.drainNvs s).Kept q w := by
  unfold State.drainNvs
  repeat' first
    | with_reducible assumption
    | (intro)
    | with_reducible apply State.nvsStep_kept
    | with_reducible apply Kept.foldl

theorem State.panelQuiet_kept (h : s.Kept q w) :
    (State.panelQuiet s).Kept q w := by
  unfold State.panelQuiet
  repeat' first
    | with_reducible assumption
    | (extract_lets +onlyGivenNames x; have hx : State.Kept q w x := ?_; (on_goal 2 => unfold x; clear x); clear_value x; rename' x => x1)
    | with_reducible apply State.setBit_kept
    | with_reducible apply State.panelRecover_kept
    | with_reducible apply State.panelDone_kept
    | with_reducible apply State.askRecord_kept
    | with_reducible apply Kept.ite

theorem State.sleep_kept (h : s.Kept q w) :
    (State.sleep s).Kept q w := by
  unfold State.sleep
  repeat' first
    | with_reducible assumption
    | (extract_lets +onlyGivenNames x; have hx : State.Kept q w x := ?_; (on_goal 2 => unfold x; clear x); clear_value x; rename' x => x1)
    | (extract_lets +onlyGivenNames x; clear_value x; rename' x => x1)
    | with_reducible apply State.pinsAsleep_kept
    | with_reducible apply State.drainNvs_kept
    | with_reducible apply State.panelQuiet_kept
    | with_reducible apply State.setPower_kept
    | with_reducible apply State.cleared_kept
    | with_reducible apply State.keepRetired_kept
    | with_reducible apply State.lanternRecord_kept
    | (simp only [Kept.mk_iff]; with_reducible apply Kept.toF)

theorem State.pwrCmd_kept {a1} (h : s.Kept q w) :
    (State.pwrCmd s a1).Kept q w := by
  unfold State.pwrCmd
  repeat' first
    | with_reducible assumption
    | with_reducible apply State.pwrRefuse_kept
    | with_reducible apply State.parkAll_kept
    | with_reducible apply State.runAll_kept
    | with_reducible apply State.sleep_kept
    | with_reducible apply Kept.ite
    | split

theorem State.portResets_kept {a1} {a2} (h : s.Kept q w) :
    (State.portResets s a1 a2).Kept q w := by
  unfold State.portResets
  repeat' first
    | with_reducible assumption
    | (intro)
    | (extract_lets +onlyGivenNames x; have hx : State.Kept q w x := ?_; (on_goal 2 => unfold x; clear x); clear_value x; rename' x => x1)
    | (extract_lets +onlyGivenNames x; clear_value x; rename' x => x1)
    | with_reducible apply State.zeroCredits_kept
    | with_reducible apply State.portLost_kept
    | with_reducible apply State.linkLost_kept
    | with_reducible apply State.setPort_kept
    | with_reducible apply State.grantCredits_kept
    | with_reducible apply Kept.ite
    | with_reducible apply Kept.foldl

theorem State.supRstEng_kept {a1} {a2} (h : s.Kept q w) :
    (State.supRstEng s a1 a2).Kept q w := by
  unfold State.supRstEng
  repeat' first
    | with_reducible assumption
    | (intro)
    | with_reducible apply State.zeroCredits_kept
    | with_reducible apply State.setRstEng_kept
    | with_reducible apply Kept.ite
    | with_reducible apply Kept.foldl

theorem State.resetSector_kept {c : Sec} (h : s.Kept q w) :
    (s.resetSector c).Kept q w := by
  unfold State.resetSector
  exact State.zeroCredits_kept ⟨h.pending, fun c => Store.filter_wf _ (h.regs c), h.hbm, h.tenants⟩

theorem State.supRstSec_kept {a1} (h : s.Kept q w) :
    (State.supRstSec s a1).Kept q w := by
  unfold State.supRstSec
  repeat' first
    | with_reducible assumption
    | (intro)
    | (extract_lets +onlyGivenNames x; clear_value x; rename' x => x1)
    | with_reducible apply State.resetSector_kept
    | with_reducible apply State.setBit_kept
    | with_reducible apply State.grantCredits_kept
    | with_reducible apply Kept.ite
    | with_reducible apply Kept.foldl

theorem State.supReset_kept {a1} {a2} (h : s.Kept q w) :
    (State.supReset s a1 a2).Kept q w := by
  unfold State.supReset
  repeat' first
    | with_reducible assumption
    | with_reducible apply State.supRstEng_kept
    | with_reducible apply State.supRstSec_kept
    | with_reducible apply State.setFld_kept
    | with_reducible apply Kept.ite

theorem execPcieReset_kept (h : s.Kept q w) :
    KeptOut q w (execPcieReset s) := by
  unfold execPcieReset
  repeat' first
    | with_reducible assumption
    | (extract_lets +onlyGivenNames x; clear_value x; rename' x => x1)
    | with_reducible apply Kept.next
    | (simp only [Kept.mk_iff]; with_reducible apply Kept.toF)

theorem State.setInlet_kept {a1} {a2} (h : s.Kept q w) :
    (State.setInlet s a1 a2).Kept q w := by
  unfold State.setInlet
  repeat' first
    | with_reducible assumption
    | (extract_lets +onlyGivenNames x; clear_value x; rename' x => x1)
    | (simp only [Kept.mk_iff]; with_reducible apply Kept.toF)

theorem execTemperatureWarning_kept {a0} (h : s.Kept q w) :
    KeptOut q w (execTemperatureWarning a0 s) := by
  unfold execTemperatureWarning
  repeat' first
    | with_reducible assumption
    | (extract_lets +onlyGivenNames x; clear_value x; rename' x => x1)
    | with_reducible apply State.toHosts_kept
    | with_reducible apply Kept.next
    | with_reducible apply Kept.iteOut
    | (simp only [Kept.mk_iff]; with_reducible apply Kept.toF)

theorem State.setFeed_kept {a1} {a2} (h : s.Kept q w) :
    (State.setFeed s a1 a2).Kept q w := by
  unfold State.setFeed
  repeat' first
    | with_reducible assumption
    | with_reducible apply State.setBit_kept

theorem State.feedChange_kept {a1} {a2} (h : s.Kept q w) :
    (State.feedChange s a1 a2).Kept q w := by
  unfold State.feedChange
  repeat' first
    | with_reducible assumption
    | (extract_lets +onlyGivenNames x; have hx : State.Kept q w x := ?_; (on_goal 2 => unfold x; clear x); clear_value x; rename' x => x1)
    | with_reducible apply State.setBit_kept
    | with_reducible apply State.setFeed_kept
    | with_reducible apply State.count_kept
    | with_reducible apply State.tell_kept
    | with_reducible apply Kept.ite

theorem execTemperatureTrip_kept (h : s.Kept q w) :
    KeptOut q w (execTemperatureTrip s) := by
  unfold execTemperatureTrip
  repeat' first
    | with_reducible assumption
    | (intro)
    | (extract_lets +onlyGivenNames x; have hx : State.Kept q w x := ?_; (on_goal 2 => unfold x; clear x); clear_value x; rename' x => x1)
    | (extract_lets +onlyGivenNames x; have hx : ∀ t b, State.Kept q w t → State.Kept q w (x t b) := ?_; (on_goal 2 => unfold x; clear x); clear_value x; rename' x => x1, hx => hf)
    | (extract_lets +onlyGivenNames x; clear_value x; rename' x => x1)
    | with_reducible apply State.setFeed_kept
    | with_reducible apply State.feedChange_kept
    | with_reducible apply State.settle_kept
    | with_reducible apply hf
    | with_reducible apply Kept.next
    | with_reducible apply Kept.ite
    | with_reducible apply Kept.iteOut
    | (simp only [Kept.mk_iff]; with_reducible apply Kept.toF)

theorem execAlwaysOnLoss_kept (h : s.Kept q w) :
    KeptOut q w (execAlwaysOnLoss s) := by
  unfold execAlwaysOnLoss
  repeat' first
    | with_reducible assumption
    | (extract_lets +onlyGivenNames x; have hx : State.Kept q w x := ?_; (on_goal 2 => unfold x; clear x); clear_value x; rename' x => x1)
    | (extract_lets +onlyGivenNames x; clear_value x; rename' x => x1)
    | with_reducible apply State.cleared_kept
    | with_reducible apply Kept.next
    | with_reducible apply Kept.iteOut
    | (simp only [Kept.mk_iff]; with_reducible apply Kept.toF)

theorem State.feedUp_kept {a1} (h : s.Kept q w) :
    (State.feedUp s a1).Kept q w := by
  unfold State.feedUp
  repeat' first
    | with_reducible assumption
    | with_reducible apply State.startUp_kept
    | with_reducible apply State.setFeed_kept
    | with_reducible apply State.settle_kept
    | with_reducible apply State.feedChange_kept
    | with_reducible apply Kept.ite

theorem execFeedRestored_kept {a0} (h : s.Kept q w) :
    KeptOut q w (execFeedRestored a0 s) := by
  unfold execFeedRestored
  repeat' first
    | with_reducible assumption
    | (extract_lets +onlyGivenNames x; have hx : State.Kept q w x := ?_; (on_goal 2 => unfold x; clear x); clear_value x; rename' x => x1)
    | with_reducible apply State.setInlet_kept
    | with_reducible apply State.feedUp_kept
    | with_reducible apply Kept.next
    | with_reducible apply Kept.iteOut

theorem execPowerOn_kept (h : s.Kept q w) :
    KeptOut q w (execPowerOn s) := by
  unfold execPowerOn
  repeat' first
    | with_reducible assumption
    | with_reducible apply State.startUp_kept
    | with_reducible apply State.feedUp_kept
    | with_reducible apply State.setInlet_kept
    | with_reducible apply State.wakeStart_kept
    | with_reducible apply Kept.next
    | with_reducible apply Kept.iteOut
    | split

theorem execFeedLost_kept {a0} (h : s.Kept q w) :
    KeptOut q w (execFeedLost a0 s) := by
  unfold execFeedLost
  repeat' first
    | with_reducible assumption
    | (extract_lets +onlyGivenNames x; have hx : State.Kept q w x := ?_; (on_goal 2 => unfold x; clear x); clear_value x; rename' x => x1)
    | with_reducible apply State.setInlet_kept
    | with_reducible apply State.setFeed_kept
    | with_reducible apply State.settle_kept
    | with_reducible apply State.feedChange_kept
    | with_reducible apply Kept.next
    | with_reducible apply Kept.iteOut

theorem execClockFault_kept {a0} (h : s.Kept q w) :
    KeptOut q w (execClockFault a0 s) := by
  unfold execClockFault
  repeat' first
    | with_reducible assumption
    | (intro)
    | (extract_lets +onlyGivenNames x; have hx : State.Kept q w x := ?_; (on_goal 2 => unfold x; clear x); clear_value x; rename' x => x1)
    | with_reducible apply State.startUp_kept
    | with_reducible apply State.tell_kept
    | with_reducible apply State.count_kept
    | with_reducible apply State.setLock_kept
    | with_reducible apply State.settle_kept
    | with_reducible apply State.internalError_kept
    | with_reducible apply State.setBit_kept
    | with_reducible apply State.failStack_kept
    | with_reducible apply State.linkLost_kept
    | with_reducible apply Kept.next
    | with_reducible apply Kept.ite
    | with_reducible apply Kept.iteOut
    | with_reducible apply Kept.foldl
    | split

theorem State.pfwClear_kept (h : s.Kept q w) :
    (State.pfwClear s).Kept q w := by
  unfold State.pfwClear
  repeat' first
    | with_reducible assumption
    | (extract_lets +onlyGivenNames x; have hx : State.Kept q w x := ?_; (on_goal 2 => unfold x; clear x); clear_value x; rename' x => x1)
    | with_reducible apply State.setBit_kept
    | with_reducible apply State.settle_kept
    | with_reducible apply State.notify_kept
    | with_reducible apply State.panelNext_kept
    | with_reducible apply State.recoverNext_kept
    | with_reducible apply State.nvsAdmit_kept

theorem execPfw_kept (h : s.Kept q w) :
    KeptOut q w (execPfw s) := by
  unfold execPfw
  repeat' first
    | with_reducible assumption
    | (extract_lets +onlyGivenNames x; have hx : State.Kept q w x := ?_; (on_goal 2 => unfold x; clear x); clear_value x; rename' x => x1)
    | with_reducible apply State.setBit_kept
    | with_reducible apply State.notify_kept
    | with_reducible apply State.count_kept
    | with_reducible apply State.settle_kept
    | with_reducible apply State.fwPfw_kept
    | with_reducible apply Kept.next
    | with_reducible apply Kept.iteOut

theorem State.enginesUp_kept (h : s.Kept q w) :
    (State.enginesUp s).Kept q w := by
  unfold State.enginesUp
  repeat' first
    | with_reducible assumption
    | (intro)
    | (extract_lets +onlyGivenNames x; have hx : State.Kept q w x := ?_; (on_goal 2 => unfold x; clear x); clear_value x; rename' x => x1)
    | (extract_lets +onlyGivenNames x; clear_value x; rename' x => x1)
    | with_reducible apply State.setEState_kept
    | with_reducible apply State.setRstEng_kept
    | with_reducible apply State.grantCredits_kept
    | with_reducible apply State.setRing_kept
    | with_reducible apply State.setFld_kept
    | with_reducible apply State.setBit_kept
    | with_reducible apply Kept.ite
    | with_reducible apply Kept.foldl
    | (simp only [Kept.mk_iff]; with_reducible apply Kept.toF)

theorem execParkComplete_kept (h : s.Kept q w) :
    KeptOut q w (execParkComplete s) := by
  unfold execParkComplete
  repeat' first
    | with_reducible assumption
    | (intro)
    | (extract_lets +onlyGivenNames x; have hx : State.Kept q w x := ?_; (on_goal 2 => unfold x; clear x); clear_value x; rename' x => x1)
    | with_reducible apply State.retain_kept
    | with_reducible apply State.settle_kept
    | with_reducible apply State.setPower_kept
    | with_reducible apply Kept.next
    | with_reducible apply Kept.ite
    | with_reducible apply Kept.iteOut
    | with_reducible apply Kept.foldl

theorem State.supEntries_kept (h : s.Kept q w) :
    (State.supEntries s).Kept q w := by
  unfold State.supEntries
  repeat' first
    | with_reducible assumption
    | (intro)
    | (extract_lets +onlyGivenNames x; have hx : State.Kept q w x := ?_; (on_goal 2 => unfold x; clear x); clear_value x; rename' x => x1)
    | (extract_lets +onlyGivenNames x; clear_value x; rename' x => x1)
    | with_reducible apply State.setFld_kept
    | with_reducible apply Kept.ite
    | with_reducible apply Kept.foldl

theorem State.setReady_kept (h : s.Kept q w) :
    (State.setReady s).Kept q w := by
  unfold State.setReady
  repeat' first
    | with_reducible assumption
    | (extract_lets +onlyGivenNames x; have hx : State.Kept q w x := ?_; (on_goal 2 => unfold x; clear x); clear_value x; rename' x => x1)
    | (extract_lets +onlyGivenNames x; clear_value x; rename' x => x1)
    | with_reducible apply State.setBit_kept
    | with_reducible apply State.supEntries_kept
    | with_reducible apply State.setPower_kept
    | with_reducible apply State.fwEvent_kept
    | with_reducible apply Kept.ite
    | (simp only [Kept.mk_iff]; with_reducible apply Kept.toF)

theorem execSupplyFall_kept (h : s.Kept q w) :
    KeptOut q w (execSupplyFall s) := by
  unfold execSupplyFall
  repeat' first
    | with_reducible assumption
    | (extract_lets +onlyGivenNames x; have hx : State.Kept q w x := ?_; (on_goal 2 => unfold x; clear x); clear_value x; rename' x => x1)
    | (extract_lets +onlyGivenNames x; clear_value x; rename' x => x1)
    | with_reducible apply State.panelHalt_kept
    | with_reducible apply State.drainNvs_kept
    | with_reducible apply State.cleared_kept
    | with_reducible apply Kept.next
    | with_reducible apply Kept.iteOut
    | (simp only [Kept.mk_iff]; with_reducible apply Kept.toF)

theorem execTemperatureRecover_kept (h : s.Kept q w) :
    KeptOut q w (execTemperatureRecover s) := by
  unfold execTemperatureRecover
  repeat' first
    | with_reducible assumption
    | (extract_lets +onlyGivenNames x; have hx : State.Kept q w x := ?_; (on_goal 2 => unfold x; clear x); clear_value x; rename' x => x1)
    | (extract_lets +onlyGivenNames x; clear_value x; rename' x => x1)
    | with_reducible apply State.feedUp_kept
    | with_reducible apply State.setFeed_kept
    | with_reducible apply Kept.next
    | with_reducible apply Kept.ite
    | with_reducible apply Kept.iteOut
    | (simp only [Kept.mk_iff]; with_reducible apply Kept.toF)

end Sys2Proof.Machine
end

