-- ==== Sys2Proof/Laws/KeptGate.lean ====
section
/-! SUPPORT. The page bus, the host gate and the bus commands end in a next state and keep the queue and the canonical form of
the tables. -/

namespace Sys2Proof.Machine

variable {q : List Instr} {w : Prop} {s : State}

/-! PageView -/

theorem State.accrue_kept {a1} {a2} (h : s.Kept q w) :
    (State.accrue s a1 a2).Kept q w := by
  unfold State.accrue
  repeat' first
    | with_reducible assumption
    | with_reducible apply State.grow_kept
    | with_reducible apply Kept.ite

/-! PageBus -/

theorem State.busEnter_kept {a1} (h : s.Kept q w) :
    (State.busEnter s a1).Kept q w := by
  unfold State.busEnter
  repeat' first
    | with_reducible assumption
    | (extract_lets +onlyGivenNames x; clear_value x; rename' x => x1)
    | with_reducible apply State.settle_kept
    | with_reducible apply Kept.ite
    | (simp only [Kept.mk_iff]; with_reducible apply Kept.toF)

theorem State.noteCount_kept {a1} (h : s.Kept q w) :
    (State.noteCount s a1).Kept q w := by
  unfold State.noteCount
  repeat' first
    | with_reducible assumption
    | (extract_lets +onlyGivenNames x; clear_value x; rename' x => x1)
    | (simp only [Kept.mk_iff]; with_reducible apply Kept.toF)
    | split

theorem State.pageCount_kept {a1} (h : s.Kept q w) :
    (State.pageCount s a1).Kept q w := by
  unfold State.pageCount
  repeat' first
    | with_reducible assumption
    | with_reducible apply State.onTenant_kept
    | with_reducible apply State.noteCount_kept
    | with_reducible apply State.countNow_kept
    | split

theorem State.voidAccess_kept {a1} (h : s.Kept q w) :
    (State.voidAccess s a1).Kept q w := by
  unfold State.voidAccess
  repeat' first
    | with_reducible assumption
    | with_reducible apply State.pageCount_kept
    | split

theorem State.disarm_kept {a1} {a2} (h : s.Kept q w) :
    (State.disarm s a1 a2).Kept q w := by
  unfold State.disarm
  repeat' first
    | with_reducible assumption
    | (extract_lets +onlyGivenNames x; clear_value x; rename' x => x1)
    | (simp only [Kept.mk_iff]; with_reducible apply Kept.toF)

theorem State.wrReject_kept {a1} (h : s.Kept q w) :
    (State.wrReject s a1).Kept q w := by
  unfold State.wrReject
  repeat' first
    | with_reducible assumption
    | with_reducible apply State.pageCount_kept

theorem State.setTenantOwner_kept {a1} {a2} {a3} (h : s.Kept q w) :
    (State.setTenantOwner s a1 a2 a3).Kept q w := by
  unfold State.setTenantOwner
  repeat' first
    | with_reducible assumption
    | (extract_lets +onlyGivenNames x; clear_value x; rename' x => x1)
    | with_reducible apply State.onTenant_kept

theorem State.setOwner_kept {a1} {a2} (h : s.Kept q w) :
    (State.setOwner s a1 a2).Kept q w := by
  unfold State.setOwner
  repeat' first
    | with_reducible assumption
    | (extract_lets +onlyGivenNames x; have hx : State.Kept q w x := ?_; (on_goal 2 => unfold x; clear x); clear_value x; rename' x => x1)
    | (extract_lets +onlyGivenNames x; clear_value x; rename' x => x1)
    | with_reducible apply State.setTenantOwner_kept
    | with_reducible apply State.setFld_kept
    | with_reducible apply Kept.ite
    | (simp only [Kept.mk_iff]; with_reducible apply Kept.toF)
    | split

theorem State.ownerField_kept {a1} {a2} {a3} (h : s.Kept q w) :
    (State.ownerField s a1 a2 a3).Kept q w := by
  unfold State.ownerField
  repeat' first
    | with_reducible assumption
    | with_reducible apply State.setOwner_kept
    | with_reducible apply Kept.ite

theorem State.remember_kept {a1} {a2} {a3} {a4} {a5} (h : s.Kept q w) :
    (State.remember s a1 a2 a3 a4 a5).Kept q w := by
  unfold State.remember
  repeat' first
    | with_reducible assumption
    | (extract_lets +onlyGivenNames x; clear_value x; rename' x => x1)
    | (simp only [Kept.mk_iff]; with_reducible apply Kept.toF)

theorem State.rejectWrite_kept {a1} {a2} {a3} {a4} {a5} (h : s.Kept q w) :
    (State.rejectWrite s a1 a2 a3 a4 a5).Kept q w := by
  unfold State.rejectWrite
  repeat' first
    | with_reducible assumption
    | (extract_lets +onlyGivenNames x; have hx : State.Kept q w x := ?_; (on_goal 2 => unfold x; clear x); clear_value x; rename' x => x1)
    | with_reducible apply State.wrReject_kept
    | with_reducible apply State.ownerField_kept
    | with_reducible apply State.remember_kept
    | with_reducible apply Kept.ite

theorem State.keyWrite_kept {a1} {a2} {a3} {a4} (h : s.Kept q w) :
    (State.keyWrite s a1 a2 a3 a4).Kept q w := by
  unfold State.keyWrite
  repeat' first
    | with_reducible assumption
    | (extract_lets +onlyGivenNames x; clear_value x; rename' x => x1)
    | with_reducible apply Kept.ite
    | (simp only [Kept.mk_iff]; with_reducible apply Kept.toF)

theorem State.coreWrite_kept {a1} {a2} {a3} {a4} (h : s.Kept q w) :
    (State.coreWrite s a1 a2 a3 a4).Kept q w := by
  unfold State.coreWrite
  repeat' first
    | with_reducible assumption
    | (extract_lets +onlyGivenNames x; clear_value x; rename' x => x1)
    | with_reducible apply State.onTenant_kept
    | with_reducible apply State.noteCount_kept
    | with_reducible apply Kept.ite

theorem State.keptWrite_kept {a1} {a2} {a3} {a4} (h : s.Kept q w) :
    (State.keptWrite s a1 a2 a3 a4).Kept q w := by
  unfold State.keptWrite
  repeat' first
    | with_reducible assumption
    | (extract_lets +onlyGivenNames x; clear_value x; rename' x => x1)
    | with_reducible apply State.saveErase_kept
    | with_reducible apply State.setTenant_kept
    | with_reducible apply Kept.ite

theorem State.plainWrite_kept {a1} {a2} {a3} (h : s.Kept q w) :
    (State.plainWrite s a1 a2 a3).Kept q w := by
  unfold State.plainWrite
  repeat' first
    | with_reducible assumption
    | (extract_lets +onlyGivenNames x; clear_value x; rename' x => x1)
    | with_reducible apply State.setWord_kept

theorem State.modCtrl_kept {a1} {a2} {a3} (h : s.Kept q w) :
    (State.modCtrl s a1 a2 a3).Kept q w := by
  unfold State.modCtrl
  repeat' first
    | with_reducible assumption
    | (extract_lets +onlyGivenNames x; have hx : State.Kept q w x := ?_; (on_goal 2 => unfold x; clear x); clear_value x; rename' x => x1)
    | (extract_lets +onlyGivenNames x; clear_value x; rename' x => x1)
    | with_reducible apply State.plainWrite_kept
    | with_reducible apply State.modEnabled_kept
    | with_reducible apply State.setBit_kept
    | with_reducible apply State.wrReject_kept
    | with_reducible apply State.modDisabled_kept
    | with_reducible apply Kept.ite

theorem State.tbsCtrl_kept {a1} {a2} {a3} (h : s.Kept q w) :
    (State.tbsCtrl s a1 a2 a3).Kept q w := by
  unfold State.tbsCtrl
  repeat' first
    | with_reducible assumption
    | with_reducible apply State.wrReject_kept
    | with_reducible apply State.plainWrite_kept
    | with_reducible apply Kept.ite

theorem State.mtmCtrl_kept {a1} {a2} {a3} (h : s.Kept q w) :
    (State.mtmCtrl s a1 a2 a3).Kept q w := by
  unfold State.mtmCtrl
  repeat' first
    | with_reducible assumption
    | (extract_lets +onlyGivenNames x; have hx : State.Kept q w x := ?_; (on_goal 2 => unfold x; clear x); clear_value x; rename' x => x1)
    | with_reducible apply State.plainWrite_kept
    | with_reducible apply State.syncMt_kept
    | with_reducible apply State.mtRestart_kept
    | with_reducible apply Kept.ite

theorem State.fioCtrl_kept {a1} {a2} {a3} (h : s.Kept q w) :
    (State.fioCtrl s a1 a2 a3).Kept q w := by
  unfold State.fioCtrl
  repeat' first
    | with_reducible assumption
    | (extract_lets +onlyGivenNames x; have hx : State.Kept q w x := ?_; (on_goal 2 => unfold x; clear x); clear_value x; rename' x => x1)
    | (extract_lets +onlyGivenNames x; clear_value x; rename' x => x1)
    | with_reducible apply State.plainWrite_kept
    | with_reducible apply State.bankWritten_kept
    | with_reducible apply Kept.ite
    | (simp only [Kept.mk_iff]; with_reducible apply Kept.toF)

theorem State.prtCtrl_kept {a1} {a2} {a3} (h : s.Kept q w) :
    (State.prtCtrl s a1 a2 a3).Kept q w := by
  unfold State.prtCtrl
  repeat' first
    | with_reducible assumption
    | (extract_lets +onlyGivenNames x; have hx : State.Kept q w x := ?_; (on_goal 2 => unfold x; clear x); clear_value x; rename' x => x1)
    | (extract_lets +onlyGivenNames x; clear_value x; rename' x => x1)
    | with_reducible apply State.plainWrite_kept
    | with_reducible apply State.portLost_kept
    | with_reducible apply State.portBack_kept
    | with_reducible apply Kept.ite

theorem State.ctrlWrite_kept {a1} {a2} {a3} (h : s.Kept q w) :
    (State.ctrlWrite s a1 a2 a3).Kept q w := by
  unfold State.ctrlWrite
  repeat' first
    | with_reducible assumption
    | with_reducible apply State.modCtrl_kept
    | with_reducible apply State.tbsCtrl_kept
    | with_reducible apply State.mtmCtrl_kept
    | with_reducible apply State.fioCtrl_kept
    | with_reducible apply State.plainWrite_kept
    | with_reducible apply State.pioSyncAll_kept
    | with_reducible apply State.prtCtrl_kept
    | split

theorem State.keyCommit_kept (h : s.Kept q w) :
    (State.keyCommit s).Kept q w := by
  unfold State.keyCommit
  repeat' first
    | with_reducible assumption
    | (extract_lets +onlyGivenNames x; have hx : State.Kept q w x := ?_; (on_goal 2 => unfold x; clear x); clear_value x; rename' x => x1)
    | (extract_lets +onlyGivenNames x; clear_value x; rename' x => x1)
    | with_reducible apply State.setBit_kept
    | with_reducible apply State.nvsAsk_kept
    | (simp only [Kept.mk_iff]; with_reducible apply Kept.toF)

theorem State.gteWrite_kept {a1} {a2} {a3} {a4} (h : s.Kept q w) :
    (State.gteWrite s a1 a2 a3 a4).Kept q w := by
  unfold State.gteWrite
  repeat' first
    | with_reducible assumption
    | with_reducible apply State.setWord_kept
    | with_reducible apply State.keyCommit_kept
    | with_reducible apply State.plainWrite_kept
    | with_reducible apply Kept.ite

theorem State.srcWrite_kept {a1} {a2} {a3} {a4} (h : s.Kept q w) :
    (State.srcWrite s a1 a2 a3 a4).Kept q w := by
  unfold State.srcWrite
  repeat' first
    | with_reducible assumption
    | (extract_lets +onlyGivenNames x; clear_value x; rename' x => x1)
    | with_reducible apply State.wrReject_kept
    | with_reducible apply State.plainWrite_kept
    | with_reducible apply Kept.ite

theorem State.mtmWrite_kept {a1} {a2} {a3} {a4} {a5} (h : s.Kept q w) :
    (State.mtmWrite s a1 a2 a3 a4 a5).Kept q w := by
  unfold State.mtmWrite
  repeat' first
    | with_reducible assumption
    | with_reducible apply State.plainWrite_kept
    | with_reducible apply State.syncMt_kept
    | (with_reducible refine State.mtWrite_kept ?_ (by assumption))
    | with_reducible apply Kept.ite
    | split

theorem State.pioWrite_kept {a1} {a2} {a3} {a4} {a5} (h : s.Kept q w) :
    (State.pioWrite s a1 a2 a3 a4 a5).Kept q w := by
  unfold State.pioWrite
  repeat' first
    | with_reducible assumption
    | (extract_lets +onlyGivenNames x; clear_value x; rename' x => x1)
    | with_reducible apply State.groupWrite_kept
    | with_reducible apply State.imemWrite_kept
    | with_reducible apply State.plainWrite_kept
    | with_reducible apply State.pioSync_kept
    | with_reducible apply State.txWrite_kept
    | with_reducible apply Kept.ite

theorem State.pshWrite_kept {a1} {a2} {a3} {a4} (h : s.Kept q w) :
    (State.pshWrite s a1 a2 a3 a4).Kept q w := by
  unfold State.pshWrite
  repeat' first
    | with_reducible assumption
    | (extract_lets +onlyGivenNames x; have hx : State.Kept q w x := ?_; (on_goal 2 => unfold x; clear x); clear_value x; rename' x => x1)
    | (extract_lets +onlyGivenNames x; clear_value x; rename' x => x1)
    | with_reducible apply State.plainWrite_kept
    | with_reducible apply State.setBit_kept
    | with_reducible apply State.countNow_kept
    | with_reducible apply Kept.ite

theorem State.stnWrite_kept {a1} {a2} {a3} {a4} {a5} (h : s.Kept q w) :
    (State.stnWrite s a1 a2 a3 a4 a5).Kept q w := by
  unfold State.stnWrite
  repeat' first
    | with_reducible assumption
    | (extract_lets +onlyGivenNames x; clear_value x; rename' x => x1)
    | with_reducible apply State.writeEntCtrl_kept
    | with_reducible apply State.writeEntLocked_kept
    | with_reducible apply State.plainWrite_kept
    | with_reducible apply Kept.ite
    | split

theorem State.moduleWrite_kept {a1} {a2} {a3} {a4} {a5} (h : s.Kept q w) :
    (State.moduleWrite s a1 a2 a3 a4 a5).Kept q w := by
  unfold State.moduleWrite
  repeat' first
    | with_reducible assumption
    | (extract_lets +onlyGivenNames x; have hx : State.Kept q w x := ?_; (on_goal 2 => unfold x; clear x); clear_value x; rename' x => x1)
    | (extract_lets +onlyGivenNames x; clear_value x; rename' x => x1)
    | with_reducible apply State.ctrlWrite_kept
    | with_reducible apply State.readmit_kept
    | with_reducible apply State.judgeReadmit_kept
    | with_reducible apply State.plainWrite_kept
    | with_reducible apply State.pwrCmd_kept
    | with_reducible apply State.portResets_kept
    | with_reducible apply State.supReset_kept
    | with_reducible apply State.gteWrite_kept
    | with_reducible apply State.rtcCommit_kept
    | with_reducible apply State.fwCmd_kept
    | with_reducible apply State.panelUpdate_kept
    | with_reducible apply State.srcWrite_kept
    | with_reducible apply State.mtmWrite_kept
    | with_reducible apply State.pioWrite_kept
    | with_reducible apply State.bankWritten_kept
    | with_reducible apply State.tbCtlWrite_kept
    | with_reducible apply State.pshWrite_kept
    | with_reducible apply State.stnWrite_kept
    | with_reducible apply Kept.ite
    | split

theorem State.acceptWrite_kept {a1} {a2} {a3} {a4} {a5} {a6} (h : s.Kept q w) :
    (State.acceptWrite s a1 a2 a3 a4 a5 a6).Kept q w := by
  unfold State.acceptWrite
  repeat' first
    | with_reducible assumption
    | (extract_lets +onlyGivenNames x; have hx : State.Kept q w x := ?_; (on_goal 2 => unfold x; clear x); clear_value x; rename' x => x1)
    | (extract_lets +onlyGivenNames x; clear_value x; rename' x => x1)
    | with_reducible apply State.remember_kept
    | with_reducible apply State.keyWrite_kept
    | with_reducible apply State.ownerField_kept
    | with_reducible apply State.coreWrite_kept
    | with_reducible apply State.keptWrite_kept
    | with_reducible apply State.moduleWrite_kept
    | with_reducible apply Kept.ite
    | split

theorem State.busNext_kept (h : s.Kept q w) :
    (State.busNext s).Kept q w := by
  unfold State.busNext
  repeat' first
    | with_reducible assumption
    | with_reducible apply State.busEnter_kept

theorem State.dropB_kept {a1} {a2} (h : s.Kept q w) :
    (State.dropB s a1 a2).Kept q w := by
  unfold State.dropB
  repeat' first
    | with_reducible assumption
    | (intro)
    | (extract_lets +onlyGivenNames x; have hx : ∀ t , State.Kept q w t → State.Kept q w (x t ) := ?_; (on_goal 2 => unfold x; clear x); clear_value x; rename' x => x1, hx => hf)
    | (extract_lets +onlyGivenNames x; clear_value x; rename' x => x1)
    | with_reducible apply State.countNow_kept
    | with_reducible apply State.onTenant_kept
    | with_reducible apply State.busNext_kept
    | with_reducible apply State.setWord_kept
    | with_reducible apply hf
    | with_reducible apply Kept.ite
    | (simp only [Kept.mk_iff]; with_reducible apply Kept.toF)
    | split

theorem State.busWrite_kept {a1} {a2} {a3} {a4} {a5} (h : s.Kept q w) :
    (State.busWrite s a1 a2 a3 a4 a5).Kept q w := by
  unfold State.busWrite
  repeat' first
    | with_reducible assumption
    | (extract_lets +onlyGivenNames x; have hx : State.Kept q w x := ?_; (on_goal 2 => unfold x; clear x); clear_value x; rename' x => x1)
    | (extract_lets +onlyGivenNames x; clear_value x; rename' x => x1)
    | with_reducible apply State.busEnter_kept
    | with_reducible apply State.voidAccess_kept
    | with_reducible apply State.disarm_kept
    | with_reducible apply State.wrReject_kept
    | with_reducible apply State.rejectWrite_kept
    | with_reducible apply State.countNow_kept
    | with_reducible apply State.acceptWrite_kept
    | with_reducible apply State.dropB_kept
    | with_reducible apply Kept.ite
    | split

theorem State.rcClear_kept {a1} (h : s.Kept q w) :
    (State.rcClear s a1).Kept q w := by
  unfold State.rcClear
  repeat' first
    | with_reducible assumption
    | (extract_lets +onlyGivenNames x; have hx : State.Kept q w x := ?_; (on_goal 2 => unfold x; clear x); clear_value x; rename' x => x1)
    | (extract_lets +onlyGivenNames x; clear_value x; rename' x => x1)
    | with_reducible apply State.onTenant_kept
    | with_reducible apply State.setWord_kept
    | with_reducible apply Kept.ite
    | (simp only [Kept.mk_iff]; with_reducible apply Kept.toF)
    | split

theorem State.readEffect_kept {a1} {a2} {a3} (h : s.Kept q w) :
    (State.readEffect s a1 a2 a3).Kept q w := by
  unfold State.readEffect
  repeat' first
    | with_reducible assumption
    | (extract_lets +onlyGivenNames x; have hx : State.Kept q w x := ?_; (on_goal 2 => unfold x; clear x); clear_value x; rename' x => x1)
    | (extract_lets +onlyGivenNames x; clear_value x; rename' x => x1)
    | with_reducible apply State.rcClear_kept
    | with_reducible apply State.rxRead_kept1
    | with_reducible apply Kept.ite
    | (simp only [Kept.mk_iff]; with_reducible apply Kept.toF)
    | split

theorem State.busRead_kept1 {a1} {a2} {a3} (h : s.Kept q w) :
    State.Kept q w (State.busRead s a1 a2 a3).1 := by
  unfold State.busRead
  repeat' first
    | with_reducible assumption
    | (extract_lets +onlyGivenNames x; have hx : State.Kept q w x := ?_; (on_goal 2 => unfold x; clear x); clear_value x; rename' x => x1)
    | (extract_lets +onlyGivenNames x; clear_value x; rename' x => x1)
    | with_reducible apply State.busEnter_kept
    | with_reducible apply State.voidAccess_kept
    | with_reducible apply State.accrue_kept
    | with_reducible apply State.readEffect_kept
    | split

theorem State.busRead_kept {a1} {a2} {a3} {s1 : State} {y} (h : s.Kept q w)
    (e : State.busRead s a1 a2 a3 = (s1, y)) : s1.Kept q w := by
  have := State.busRead_kept1 (a1 := a1) (a2 := a2) (a3 := a3) h
  rwa [e] at this

/-! Gate -/

theorem State.reply_kept {a1} {a2} {a3} {a4} (h : s.Kept q w) :
    (State.reply s a1 a2 a3 a4).Kept q w := by
  unfold State.reply
  repeat' first
    | with_reducible assumption
    | (extract_lets +onlyGivenNames x; clear_value x; rename' x => x1)
    | with_reducible apply State.answer_kept
    | (simp only [Kept.mk_iff]; with_reducible apply Kept.toF)
    | split

theorem State.holdMsg_kept {a1} (h : s.Kept q w) :
    (State.holdMsg s a1).Kept q w := by
  unfold State.holdMsg
  repeat' first
    | with_reducible assumption
    | (extract_lets +onlyGivenNames x; clear_value x; rename' x => x1)
    | (simp only [Kept.mk_iff]; with_reducible apply Kept.toF)

theorem State.writeFor_kept {a1} {a2} {a3} {a4} (h : s.Kept q w) :
    (State.writeFor s a1 a2 a3 a4).Kept q w := by
  unfold State.writeFor
  repeat' first
    | with_reducible assumption
    | with_reducible apply State.busWrite_kept
    | split

theorem State.readFor_kept {src : BusSrc} {a : Word} {g : State → State}
    (h : s.Kept q w) (hg : ∀ s, s.Kept q w → (g s).Kept q w) : (s.readFor src a g).Kept q w := by
  unfold State.readFor
  split
  · exact hg _ (State.busRead_kept1 h)
  · exact State.reply_kept (hg _ (State.busRead_kept1 h))

theorem State.increment_kept {a1} {a2} (h : s.Kept q w) :
    (State.increment s a1 a2).Kept q w := by
  unfold State.increment
  repeat' first
    | with_reducible assumption
    | (extract_lets +onlyGivenNames x; clear_value x; rename' x => x1)
    | with_reducible apply State.pageCount_kept
    | with_reducible apply Kept.ite

theorem State.tenantCmd_kept {m : Msg} {b : Bool} {g : State → Nat → State × Byte}
    (h : s.Kept q w) (hg : ∀ s k, s.Kept q w → (g s k).1.Kept q w) : (s.tenantCmd m b g).Kept q w := by
  unfold State.tenantCmd
  split
  · exact State.reply_kept h
  split
  · exact State.reply_kept h
  split
  · exact State.reply_kept h
  · exact State.reply_kept (State.settle_kept (hg _ _ h))

theorem State.chunk_kept {a1} {a2} {a3} {a4} (h : s.Kept q w) :
    (State.chunk s a1 a2 a3 a4).Kept q w := by
  unfold State.chunk
  repeat' first
    | with_reducible assumption
    | with_reducible apply State.count_kept
    | with_reducible apply State.fwChunk_kept
    | with_reducible apply Kept.ite
    | (simp only [Kept.mk_iff]; with_reducible apply Kept.putF)

theorem State.overlayBytes_kept {a1} {a2} {a3} {a4} (h : s.Kept q w) :
    (State.overlayBytes s a1 a2 a3 a4).Kept q w := by
  unfold State.overlayBytes
  repeat' first
    | with_reducible assumption
    | with_reducible apply State.onTenant_kept
    | split

theorem State.preview_kept1 {a1} {a2} {a3} {a4} (h : s.Kept q w) :
    State.Kept q w (State.preview s a1 a2 a3 a4).1 := by
  unfold State.preview
  repeat' first
    | with_reducible assumption
    | (extract_lets +onlyGivenNames x; clear_value x; rename' x => x1)
    | (simp only [Kept.mk_iff]; with_reducible apply Kept.toF)
    | split

theorem State.preview_kept {a1} {a2} {a3} {a4} {s1 : State} {y} (h : s.Kept q w)
    (e : State.preview s a1 a2 a3 a4 = (s1, y)) : s1.Kept q w := by
  have := State.preview_kept1 (a1 := a1) (a2 := a2) (a3 := a3) (a4 := a4) h
  rwa [e] at this

theorem State.wakeUp_kept (h : s.Kept q w) :
    (State.wakeUp s).Kept q w := by
  unfold State.wakeUp
  repeat' first
    | with_reducible assumption
    | with_reducible apply State.setBit_kept

theorem State.effect_kept {a1} (h : s.Kept q w) :
    (State.effect s a1).Kept q w := by
  unfold State.effect
  repeat' first
    | with_reducible assumption
    | (intro)
    | with_reducible apply State.writeFor_kept
    | with_reducible apply State.readFor_kept
    | with_reducible apply State.increment_kept
    | with_reducible apply State.tenantCmd_kept
    | with_reducible apply State.cmdLoad_kept1
    | with_reducible apply State.cmdStart_kept1
    | with_reducible apply State.cmdHold_kept1
    | with_reducible apply State.cmdResume_kept1
    | with_reducible apply State.cmdReset_kept1
    | with_reducible apply State.cmdPark_kept1
    | with_reducible apply State.cmdUnpark_kept1
    | with_reducible apply State.cmdMove_kept1
    | with_reducible apply State.cmdMail_kept1
    | with_reducible apply State.chunk_kept
    | with_reducible apply State.overlayBytes_kept
    | with_reducible apply State.preview_kept1
    | with_reducible apply State.reply_kept
    | with_reducible apply State.wakeUp_kept
    | with_reducible apply Kept.idState
    | split

theorem State.act_kept {a1} (h : s.Kept q w) :
    (State.act s a1).Kept q w := by
  unfold State.act
  repeat' first
    | with_reducible assumption
    | with_reducible apply State.reply_kept
    | with_reducible apply State.count_kept
    | with_reducible apply State.effect_kept
    | with_reducible apply Kept.ite
    | split

theorem State.perform_kept {a1} (h : s.Kept q w) :
    (State.perform s a1).Kept q w := by
  unfold State.perform
  repeat' first
    | with_reducible assumption
    | with_reducible apply State.holdMsg_kept
    | with_reducible apply State.act_kept
    | with_reducible apply Kept.ite

theorem State.block_kept {a1} {a2} (h : s.Kept q w) :
    (State.block s a1 a2).Kept q w := by
  unfold State.block
  repeat' first
    | with_reducible assumption
    | (extract_lets +onlyGivenNames x; clear_value x; rename' x => x1)
    | (simp only [Kept.mk_iff]; with_reducible apply Kept.toF)

theorem State.gateDrop_kept {a1} {a2} {a3} (h : s.Kept q w) :
    (State.gateDrop s a1 a2 a3).Kept q w := by
  unfold State.gateDrop
  repeat' first
    | with_reducible assumption
    | (extract_lets +onlyGivenNames x; have hx : State.Kept q w x := ?_; (on_goal 2 => unfold x; clear x); clear_value x; rename' x => x1)
    | with_reducible apply State.count_kept
    | with_reducible apply State.setBit_kept
    | with_reducible apply State.setFld_kept
    | split

theorem State.admitB_kept1 {a1 : Msg} {a2 : Byte} {a3 : List Byte}
    (h : s.Kept q w) : (s.admitB a1 a2 a3).1.Kept q w := by
  have hg : ∀ g, State.Kept q w { s with gate := g } := fun g => ⟨h.pending, h.regs, h.hbm, h.tenants⟩
  unfold State.admitB
  split
  · split
    · split
      · exact hg _
      · exact h
    · exact h
  · split
    · exact h
    dsimp only
    split
    · dsimp only; exact State.gateDrop_kept (hg _)
    · split
      · dsimp only; exact State.gateDrop_kept (hg _)
      · split
        · dsimp only; exact State.gateDrop_kept (hg _)
        · dsimp only; exact State.recordSeq_kept (hg _)
theorem State.admitB_kept {s1 : State} {a1 : Msg} {a2 : Byte} {a3 : List Byte} {y : Bool}
    (h : s.Kept q w) (e : s.admitB a1 a2 a3 = (s1, y)) : s1.Kept q w := by
  have := State.admitB_kept1 (a1 := a1) (a2 := a2) (a3 := a3) h
  rwa [e] at this

theorem State.judge_kept {g : State → Instr → State} {i : Instr}
    (h : s.Kept q w) (hg : ∀ s i, s.Kept q w → (g s i).Kept q w) : (State.judge g s i).Kept q w := by
  unfold State.judge
  split
  · exact hg _ _ h
  · split
    · exact State.gateDrop_kept h
    · split
      · exact State.gateDrop_kept h
      · exact hg _ _ h

theorem State.performNew_kept {a1} (h : s.Kept q w) :
    (State.performNew s a1).Kept q w := by
  unfold State.performNew
  repeat' first
    | with_reducible assumption
    | (extract_lets +onlyGivenNames x; clear_value x; rename' x => x1)
    | with_reducible apply State.perform_kept
    | with_reducible apply State.count_kept
    | with_reducible apply Kept.ite

theorem State.retry_kept (h : s.Kept q w) :
    (State.retry s).Kept q w := by
  unfold State.retry
  repeat' first
    | with_reducible assumption
    | (intro)
    | (extract_lets +onlyGivenNames x; clear_value x; rename' x => x1)
    | with_reducible apply State.perform_kept
    | with_reducible apply Kept.ite
    | with_reducible apply Kept.foldl
    | (simp only [Kept.mk_iff]; with_reducible apply Kept.toF)

theorem State.arriveOne_kept {a1} (h : s.Kept q w) :
    (State.arriveOne s a1).Kept q w := by
  unfold State.arriveOne
  repeat' first
    | with_reducible assumption
    | (intro)
    | (extract_lets +onlyGivenNames x; have hx : State.Kept q w x := ?_; (on_goal 2 => unfold x; clear x); clear_value x; rename' x => x1)
    | with_reducible apply State.perform_kept
    | with_reducible apply State.block_kept
    | (with_reducible refine State.admitB_kept ?_ (by assumption))
    | with_reducible apply State.judge_kept
    | with_reducible apply State.act_kept
    | with_reducible apply State.holdMsg_kept
    | with_reducible apply State.performNew_kept
    | with_reducible apply State.retry_kept
    | with_reducible apply Kept.ite
    | split

theorem State.arrive_kept {a1} (h : s.Kept q w) :
    (State.arrive s a1).Kept q w := by
  unfold State.arrive
  repeat' first
    | with_reducible assumption
    | (intro)
    | with_reducible apply State.reply_kept
    | with_reducible apply State.arriveOne_kept
    | with_reducible apply Kept.ite
    | with_reducible apply Kept.foldl
    | split

theorem State.release_kept (h : s.Kept q w) :
    (State.release s).Kept q w := by
  unfold State.release
  repeat' first
    | with_reducible assumption
    | with_reducible apply State.settle_kept
    | with_reducible apply State.retry_kept

theorem State.unblock_kept (h : s.Kept q w) :
    (State.unblock s).Kept q w := by
  unfold State.unblock
  repeat' first
    | with_reducible assumption
    | (intro)
    | (extract_lets +onlyGivenNames x; clear_value x; rename' x => x1)
    | with_reducible apply State.arriveOne_kept
    | with_reducible apply Kept.foldl
    | (simp only [Kept.mk_iff]; with_reducible apply Kept.toF)

theorem State.releaseReady_kept (h : s.Kept q w) :
    (State.releaseReady s).Kept q w := by
  unfold State.releaseReady
  repeat' first
    | with_reducible assumption
    | (intro)
    | (extract_lets +onlyGivenNames x; clear_value x; rename' x => x1)
    | with_reducible apply State.settle_kept
    | with_reducible apply State.judge_kept
    | with_reducible apply State.perform_kept
    | with_reducible apply Kept.foldl
    | (simp only [Kept.mk_iff]; with_reducible apply Kept.toF)

/-! Messages -/

theorem execNvsPageWrite_kept {a0} (h : s.Kept q w) :
    KeptOut q w (execNvsPageWrite a0 s) := by
  unfold execNvsPageWrite
  repeat' first
    | with_reducible assumption
    | with_reducible apply State.release_kept
    | with_reducible apply State.nvsStep_kept
    | with_reducible apply Kept.next

theorem execMove_kept {a0} {a1} {a2} (h : s.Kept q w) :
    KeptOut q w (execMove a0 a1 a2 s) := by
  unfold execMove
  repeat' first
    | with_reducible assumption
    | with_reducible apply State.arrive_kept
    | with_reducible apply Kept.next

theorem State.readCounter_kept1 {a1} (h : s.Kept q w) :
    State.Kept q w (State.readCounter s a1).1 := by
  unfold State.readCounter
  repeat' first
    | with_reducible assumption
    | (extract_lets +onlyGivenNames x; have hx : State.Kept q w x := ?_; (on_goal 2 => unfold x; clear x); clear_value x; rename' x => x1)
    | with_reducible apply State.accrue_kept
    | with_reducible apply State.readEffect_kept
    | split

theorem State.readCounter_kept {a1} {s1 : State} {y} (h : s.Kept q w)
    (e : State.readCounter s a1 = (s1, y)) : s1.Kept q w := by
  have := State.readCounter_kept1 (a1 := a1) h
  rwa [e] at this

theorem State.sendCounters_kept {a1} (h : s.Kept q w) :
    (State.sendCounters s a1).Kept q w := by
  unfold State.sendCounters
  repeat' first
    | with_reducible assumption
    | (intro)
    | with_reducible apply State.readCounter_kept1
    | with_reducible apply State.toHosts_kept
    | with_reducible apply Kept.foldl1

theorem execCounters_kept (h : s.Kept q w) :
    KeptOut q w (execCounters s) := by
  unfold execCounters
  repeat' first
    | with_reducible assumption
    | (intro)
    | with_reducible apply State.sendCounters_kept
    | with_reducible apply Kept.next
    | with_reducible apply Kept.iteOut
    | with_reducible apply Kept.foldl

theorem execLoad_kept {a0} {a1} {a2} (h : s.Kept q w) :
    KeptOut q w (execLoad a0 a1 a2 s) := by
  unfold execLoad
  repeat' first
    | with_reducible assumption
    | with_reducible apply State.arrive_kept
    | with_reducible apply Kept.next

theorem State.dormantWake_kept {a1} (h : s.Kept q w) :
    (State.dormantWake s a1).Kept q w := by
  unfold State.dormantWake
  repeat' first
    | with_reducible assumption
    | (extract_lets +onlyGivenNames x; clear_value x; rename' x => x1)
    | (with_reducible refine State.admitB_kept ?_ (by assumption))
    | with_reducible apply State.gateDrop_kept
    | with_reducible apply Kept.ite
    | (simp only [Kept.mk_iff]; with_reducible apply Kept.toF)
    | split

theorem execReset_kept {a0} (h : s.Kept q w) :
    KeptOut q w (execReset a0 s) := by
  unfold execReset
  repeat' first
    | with_reducible assumption
    | with_reducible apply State.arrive_kept
    | with_reducible apply Kept.next

theorem execPark_kept {a0} (h : s.Kept q w) :
    KeptOut q w (execPark a0 s) := by
  unfold execPark
  repeat' first
    | with_reducible assumption
    | with_reducible apply State.arrive_kept
    | with_reducible apply Kept.next

theorem execMail_kept {a0} {a1} {a2} (h : s.Kept q w) :
    KeptOut q w (execMail a0 a1 a2 s) := by
  unfold execMail
  repeat' first
    | with_reducible assumption
    | with_reducible apply State.arrive_kept
    | with_reducible apply Kept.next

theorem execStart_kept {a0} {a1} (h : s.Kept q w) :
    KeptOut q w (execStart a0 a1 s) := by
  unfold execStart
  repeat' first
    | with_reducible assumption
    | with_reducible apply State.arrive_kept
    | with_reducible apply Kept.next

theorem execGateLinkFail_kept {a0} (h : s.Kept q w) :
    KeptOut q w (execGateLinkFail a0 s) := by
  unfold execGateLinkFail
  repeat' first
    | with_reducible assumption
    | (extract_lets +onlyGivenNames x; clear_value x; rename' x => x1)
    | with_reducible apply State.unblock_kept
    | with_reducible apply State.grantCredits_kept
    | with_reducible apply State.setFld_kept
    | with_reducible apply Kept.next

theorem execHeldAccessApply_kept {a0} (h : s.Kept q w) :
    KeptOut q w (execHeldAccessApply a0 s) := by
  unfold execHeldAccessApply
  repeat' first
    | with_reducible assumption
    | with_reducible apply State.release_kept
    | with_reducible apply Kept.next
    | with_reducible apply Kept.iteOut

theorem execUnpark_kept {a0} {a1} (h : s.Kept q w) :
    KeptOut q w (execUnpark a0 a1 s) := by
  unfold execUnpark
  repeat' first
    | with_reducible assumption
    | with_reducible apply State.arrive_kept
    | with_reducible apply Kept.next

theorem State.cqRefill_kept (h : s.Kept q w) :
    (State.cqRefill s).Kept q w := by
  unfold State.cqRefill
  repeat' first
    | with_reducible assumption
    | (intro)
    | (extract_lets +onlyGivenNames x; have hx : State.Kept q w x := ?_; (on_goal 2 => unfold x; clear x); clear_value x; rename' x => x1)
    | (extract_lets +onlyGivenNames x; clear_value x; rename' x => x1)
    | with_reducible apply Kept.ite
    | with_reducible apply Kept.foldl
    | (simp only [Kept.mk_iff]; with_reducible apply Kept.toF)

theorem State.cqHeadWrite_kept {a1} (h : s.Kept q w) :
    (State.cqHeadWrite s a1).Kept q w := by
  unfold State.cqHeadWrite
  repeat' first
    | with_reducible assumption
    | (extract_lets +onlyGivenNames x; clear_value x; rename' x => x1)
    | with_reducible apply State.cqRefill_kept
    | (simp only [Kept.mk_iff]; with_reducible apply Kept.toF)

theorem execCqHead_kept {a0} (h : s.Kept q w) :
    KeptOut q w (execCqHead a0 s) := by
  unfold execCqHead
  repeat' first
    | with_reducible assumption
    | with_reducible apply State.cqHeadWrite_kept
    | with_reducible apply Kept.next
    | with_reducible apply Kept.iteOut

theorem execHold_kept {a0} (h : s.Kept q w) :
    KeptOut q w (execHold a0 s) := by
  unfold execHold
  repeat' first
    | with_reducible assumption
    | with_reducible apply State.arrive_kept
    | with_reducible apply Kept.next

theorem execSupTakeoverDone_kept (h : s.Kept q w) :
    KeptOut q w (execSupTakeoverDone s) := by
  unfold execSupTakeoverDone
  repeat' first
    | with_reducible assumption
    | with_reducible apply State.release_kept
    | with_reducible apply State.proceed_kept
    | with_reducible apply State.setBit_kept
    | with_reducible apply Kept.next
    | with_reducible apply Kept.iteOut

theorem execEnginesUp_kept (h : s.Kept q w) :
    KeptOut q w (execEnginesUp s) := by
  unfold execEnginesUp
  repeat' first
    | with_reducible assumption
    | with_reducible apply State.release_kept
    | with_reducible apply State.enginesUp_kept
    | with_reducible apply Kept.next
    | with_reducible apply Kept.iteOut

theorem execResume_kept {a0} {a1} (h : s.Kept q w) :
    KeptOut q w (execResume a0 a1 s) := by
  unfold execResume
  repeat' first
    | with_reducible assumption
    | with_reducible apply State.arrive_kept
    | with_reducible apply Kept.next

theorem execPfwCleared_kept (h : s.Kept q w) :
    KeptOut q w (execPfwCleared s) := by
  unfold execPfwCleared
  repeat' first
    | with_reducible assumption
    | with_reducible apply State.release_kept
    | with_reducible apply State.pfwClear_kept
    | with_reducible apply Kept.next
    | with_reducible apply Kept.iteOut

theorem execRingCtrl_kept {a0} {a1} (h : s.Kept q w) :
    KeptOut q w (execRingCtrl a0 a1 s) := by
  unfold execRingCtrl
  repeat' first
    | with_reducible assumption
    | (extract_lets +onlyGivenNames x; clear_value x; rename' x => x1)
    | with_reducible apply State.cqHeadWrite_kept
    | with_reducible apply State.cqRefill_kept
    | with_reducible apply Kept.next
    | with_reducible apply Kept.iteOut
    | (simp only [Kept.mk_iff]; with_reducible apply Kept.toF)
    | split

theorem execCreditReturn_kept {a0} (h : s.Kept q w) :
    KeptOut q w (execCreditReturn a0 s) := by
  unfold execCreditReturn
  repeat' first
    | with_reducible assumption
    | with_reducible apply State.unblock_kept
    | with_reducible apply State.creditBack_kept
    | with_reducible apply State.openInbox_kept
    | with_reducible apply Kept.next
    | with_reducible apply Kept.iteOut
    | split

theorem execOverlayWrite_kept {a0} {a1} {a2} {a3} (h : s.Kept q w) :
    KeptOut q w (execOverlayWrite a0 a1 a2 a3 s) := by
  unfold execOverlayWrite
  repeat' first
    | with_reducible assumption
    | with_reducible apply State.arrive_kept
    | with_reducible apply Kept.next

theorem execPreviewReq_kept {a0} {a1} {a2} {a3} (h : s.Kept q w) :
    KeptOut q w (execPreviewReq a0 a1 a2 a3 s) := by
  unfold execPreviewReq
  repeat' first
    | with_reducible assumption
    | with_reducible apply State.arrive_kept
    | with_reducible apply Kept.next

theorem execImageChunk_kept {a0} {a1} {a2} {a3} (h : s.Kept q w) :
    KeptOut q w (execImageChunk a0 a1 a2 a3 s) := by
  unfold execImageChunk
  repeat' first
    | with_reducible assumption
    | with_reducible apply State.arrive_kept
    | with_reducible apply Kept.next

theorem execWake_kept {a0} (h : s.Kept q w) :
    KeptOut q w (execWake a0 s) := by
  unfold execWake
  repeat' first
    | with_reducible assumption
    | with_reducible apply State.dormantWake_kept
    | with_reducible apply State.arrive_kept
    | with_reducible apply Kept.next
    | with_reducible apply Kept.ite
    | with_reducible apply Kept.iteOut

theorem execSqTail_kept {a0} (h : s.Kept q w) :
    KeptOut q w (execSqTail a0 s) := by
  unfold execSqTail
  repeat' first
    | with_reducible assumption
    | with_reducible apply Kept.next
    | with_reducible apply Kept.iteOut
    | (simp only [Kept.mk_iff]; with_reducible apply Kept.toF)

theorem execReady_kept (h : s.Kept q w) :
    KeptOut q w (execReady s) := by
  unfold execReady
  repeat' first
    | with_reducible assumption
    | with_reducible apply State.releaseReady_kept
    | with_reducible apply State.setReady_kept
    | with_reducible apply Kept.next
    | with_reducible apply Kept.iteOut

/-! BusRows -/

theorem State.put_kept {a1} {a2} {a3} {a4} (h : s.Kept q w) :
    (State.put s a1 a2 a3 a4).Kept q w := by
  unfold State.put
  repeat' first
    | with_reducible assumption
    | with_reducible apply State.arrive_kept

theorem execForceResync_kept {a0} {a1} {a2} {a3} (h : s.Kept q w) :
    KeptOut q w (execForceResync a0 a1 a2 a3 s) := by
  unfold execForceResync
  repeat' first
    | with_reducible assumption
    | with_reducible apply State.put_kept
    | with_reducible apply Kept.next

theorem execPowerDormant_kept {a0} {a1} {a2} (h : s.Kept q w) :
    KeptOut q w (execPowerDormant a0 a1 a2 s) := by
  unfold execPowerDormant
  repeat' first
    | with_reducible assumption
    | with_reducible apply State.put_kept
    | with_reducible apply Kept.next

theorem execModDisable_kept {a0} {a1} {a2} (h : s.Kept q w) :
    KeptOut q w (execModDisable a0 a1 a2 s) := by
  unfold execModDisable
  repeat' first
    | with_reducible assumption
    | with_reducible apply State.put_kept
    | with_reducible apply Kept.next

theorem execFwuOpen_kept {a0} {a1} {a2} (h : s.Kept q w) :
    KeptOut q w (execFwuOpen a0 a1 a2 s) := by
  unfold execFwuOpen
  repeat' first
    | with_reducible assumption
    | with_reducible apply State.put_kept
    | with_reducible apply Kept.next

theorem execExpertKey_kept {a0} {a1} {a2} {a3} (h : s.Kept q w) :
    KeptOut q w (execExpertKey a0 a1 a2 a3 s) := by
  unfold execExpertKey
  repeat' first
    | with_reducible assumption
    | with_reducible apply State.put_kept
    | with_reducible apply Kept.next

theorem execFwuActivate_kept {a0} {a1} {a2} (h : s.Kept q w) :
    KeptOut q w (execFwuActivate a0 a1 a2 s) := by
  unfold execFwuActivate
  repeat' first
    | with_reducible assumption
    | with_reducible apply State.put_kept
    | with_reducible apply Kept.next

theorem execSinkSwap_kept {a0} {a1} {a2} {a3} (h : s.Kept q w) :
    KeptOut q w (execSinkSwap a0 a1 a2 a3 s) := by
  unfold execSinkSwap
  repeat' first
    | with_reducible assumption
    | with_reducible apply State.put_kept
    | with_reducible apply Kept.next

theorem execReadmit_kept {a0} {a1} {a2} (h : s.Kept q w) :
    KeptOut q w (execReadmit a0 a1 a2 s) := by
  unfold execReadmit
  repeat' first
    | with_reducible assumption
    | with_reducible apply State.put_kept
    | with_reducible apply Kept.next

theorem execErase_kept {a0} {a1} {a2} {a3} (h : s.Kept q w) :
    KeptOut q w (execErase a0 a1 a2 a3 s) := by
  unfold execErase
  repeat' first
    | with_reducible assumption
    | with_reducible apply State.put_kept
    | with_reducible apply Kept.next

theorem execFwuAbort_kept {a0} {a1} {a2} (h : s.Kept q w) :
    KeptOut q w (execFwuAbort a0 a1 a2 s) := by
  unfold execFwuAbort
  repeat' first
    | with_reducible assumption
    | with_reducible apply State.put_kept
    | with_reducible apply Kept.next

theorem execKeyCommit_kept {a0} {a1} {a2} (h : s.Kept q w) :
    KeptOut q w (execKeyCommit a0 a1 a2 s) := by
  unfold execKeyCommit
  repeat' first
    | with_reducible assumption
    | with_reducible apply State.put_kept
    | with_reducible apply Kept.next

theorem execPowerPark_kept {a0} {a1} {a2} (h : s.Kept q w) :
    KeptOut q w (execPowerPark a0 a1 a2 s) := by
  unfold execPowerPark
  repeat' first
    | with_reducible assumption
    | with_reducible apply State.put_kept
    | with_reducible apply Kept.next

theorem execFwuConfirm_kept {a0} {a1} {a2} (h : s.Kept q w) :
    KeptOut q w (execFwuConfirm a0 a1 a2 s) := by
  unfold execFwuConfirm
  repeat' first
    | with_reducible assumption
    | with_reducible apply State.put_kept
    | with_reducible apply Kept.next

theorem execFwuVerify_kept {a0} {a1} {a2} (h : s.Kept q w) :
    KeptOut q w (execFwuVerify a0 a1 a2 s) := by
  unfold execFwuVerify
  repeat' first
    | with_reducible assumption
    | with_reducible apply State.put_kept
    | with_reducible apply Kept.next

theorem execRtcCommit_kept {a0} {a1} {a2} (h : s.Kept q w) :
    KeptOut q w (execRtcCommit a0 a1 a2 s) := by
  unfold execRtcCommit
  repeat' first
    | with_reducible assumption
    | with_reducible apply State.put_kept
    | with_reducible apply Kept.next

theorem execOwnerWrite_kept {a0} {a1} {a2} {a3} (h : s.Kept q w) :
    KeptOut q w (execOwnerWrite a0 a1 a2 a3 s) := by
  unfold execOwnerWrite
  repeat' first
    | with_reducible assumption
    | with_reducible apply State.put_kept
    | with_reducible apply Kept.next

theorem execRcCounterRead_kept {a0} {a1} {a2} (h : s.Kept q w) :
    KeptOut q w (execRcCounterRead a0 a1 a2 s) := by
  unfold execRcCounterRead
  repeat' first
    | with_reducible assumption
    | with_reducible apply State.arrive_kept
    | with_reducible apply Kept.next

theorem execConfigWrite_kept {a0} {a1} {a2} {a3} (h : s.Kept q w) :
    KeptOut q w (execConfigWrite a0 a1 a2 a3 s) := by
  unfold execConfigWrite
  repeat' first
    | with_reducible assumption
    | with_reducible apply State.arrive_kept
    | with_reducible apply Kept.next

theorem execHalfWrite_kept {a0} {a1} {a2} {a3} (h : s.Kept q w) :
    KeptOut q w (execHalfWrite a0 a1 a2 a3 s) := by
  unfold execHalfWrite
  repeat' first
    | with_reducible assumption
    | with_reducible apply State.put_kept
    | with_reducible apply Kept.next

theorem execTbCommit_kept {a0} {a1} {a2} {a3} (h : s.Kept q w) :
    KeptOut q w (execTbCommit a0 a1 a2 a3 s) := by
  unfold execTbCommit
  repeat' first
    | with_reducible assumption
    | with_reducible apply State.put_kept
    | with_reducible apply Kept.next

theorem execClkRestart_kept {a0} {a1} {a2} {a3} (h : s.Kept q w) :
    KeptOut q w (execClkRestart a0 a1 a2 a3 s) := by
  unfold execClkRestart
  repeat' first
    | with_reducible assumption
    | with_reducible apply State.put_kept
    | with_reducible apply Kept.next

theorem execGroupStop_kept {a0} {a1} {a2} {a3} (h : s.Kept q w) :
    KeptOut q w (execGroupStop a0 a1 a2 a3 s) := by
  unfold execGroupStop
  repeat' first
    | with_reducible assumption
    | with_reducible apply State.put_kept
    | with_reducible apply Kept.next

theorem execOverlayCommit_kept {a0} {a1} {a2} {a3} (h : s.Kept q w) :
    KeptOut q w (execOverlayCommit a0 a1 a2 a3 s) := by
  unfold execOverlayCommit
  repeat' first
    | with_reducible assumption
    | with_reducible apply State.put_kept
    | with_reducible apply Kept.next

theorem execExpertSet_kept {a0} {a1} {a2} {a3} (h : s.Kept q w) :
    KeptOut q w (execExpertSet a0 a1 a2 a3 s) := by
  unfold execExpertSet
  repeat' first
    | with_reducible assumption
    | with_reducible apply State.put_kept
    | with_reducible apply Kept.next

theorem execPanelUpdate_kept {a0} {a1} {a2} (h : s.Kept q w) :
    KeptOut q w (execPanelUpdate a0 a1 a2 s) := by
  unfold execPanelUpdate
  repeat' first
    | with_reducible assumption
    | with_reducible apply State.put_kept
    | with_reducible apply Kept.next

theorem execTxf_kept {a0} {a1} {a2} {a3} {a4} (h : s.Kept q w) :
    KeptOut q w (execTxf a0 a1 a2 a3 a4 s) := by
  unfold execTxf
  repeat' first
    | with_reducible assumption
    | with_reducible apply State.put_kept
    | with_reducible apply Kept.next

theorem execEntryEnable_kept {a0} {a1} {a2} {a3} (h : s.Kept q w) :
    KeptOut q w (execEntryEnable a0 a1 a2 a3 s) := by
  unfold execEntryEnable
  repeat' first
    | with_reducible assumption
    | with_reducible apply State.put_kept
    | with_reducible apply Kept.next

theorem execConfigRead_kept {a0} {a1} (h : s.Kept q w) :
    KeptOut q w (execConfigRead a0 a1 s) := by
  unfold execConfigRead
  repeat' first
    | with_reducible assumption
    | with_reducible apply State.arrive_kept
    | with_reducible apply Kept.next

theorem execLatchedRead_kept {a0} {a1} (h : s.Kept q w) :
    KeptOut q w (execLatchedRead a0 a1 s) := by
  unfold execLatchedRead
  repeat' first
    | with_reducible assumption
    | with_reducible apply State.arrive_kept
    | with_reducible apply Kept.next

theorem execEntryDisable_kept {a0} {a1} {a2} {a3} (h : s.Kept q w) :
    KeptOut q w (execEntryDisable a0 a1 a2 a3 s) := by
  unfold execEntryDisable
  repeat' first
    | with_reducible assumption
    | with_reducible apply State.put_kept
    | with_reducible apply Kept.next

theorem execMtRestart_kept {a0} {a1} {a2} {a3} (h : s.Kept q w) :
    KeptOut q w (execMtRestart a0 a1 a2 a3 s) := by
  unfold execMtRestart
  repeat' first
    | with_reducible assumption
    | with_reducible apply State.put_kept
    | with_reducible apply Kept.next

theorem execGroupStart_kept {a0} {a1} {a2} {a3} (h : s.Kept q w) :
    KeptOut q w (execGroupStart a0 a1 a2 a3 s) := by
  unfold execGroupStart
  repeat' first
    | with_reducible assumption
    | with_reducible apply State.put_kept
    | with_reducible apply Kept.next

theorem execRxf_kept {a0} {a1} {a2} (h : s.Kept q w) :
    KeptOut q w (execRxf a0 a1 a2 s) := by
  unfold execRxf
  repeat' first
    | with_reducible assumption
    | with_reducible apply State.arrive_kept
    | with_reducible apply Kept.next

theorem execFwuRollback_kept {a0} {a1} {a2} (h : s.Kept q w) :
    KeptOut q w (execFwuRollback a0 a1 a2 s) := by
  unfold execFwuRollback
  repeat' first
    | with_reducible assumption
    | with_reducible apply State.put_kept
    | with_reducible apply Kept.next

theorem execPowerRun_kept {a0} {a1} {a2} (h : s.Kept q w) :
    KeptOut q w (execPowerRun a0 a1 a2 s) := by
  unfold execPowerRun
  repeat' first
    | with_reducible assumption
    | with_reducible apply State.put_kept
    | with_reducible apply Kept.next

theorem execPortReset_kept {a0} {a1} {a2} (h : s.Kept q w) :
    KeptOut q w (execPortReset a0 a1 a2 s) := by
  unfold execPortReset
  repeat' first
    | with_reducible assumption
    | with_reducible apply State.put_kept
    | with_reducible apply Kept.next

theorem execModEnable_kept {a0} {a1} {a2} (h : s.Kept q w) :
    KeptOut q w (execModEnable a0 a1 a2 s) := by
  unfold execModEnable
  repeat' first
    | with_reducible assumption
    | with_reducible apply State.put_kept
    | with_reducible apply Kept.next

/-! Step -/

theorem State.updateLags_kept (h : s.Kept q w) :
    (State.updateLags s).Kept q w := by
  unfold State.updateLags
  repeat' first
    | with_reducible assumption
    | (intro)
    | with_reducible apply State.updateLag_kept
    | with_reducible apply Kept.foldl

theorem State.idle_kept (h : s.Kept q w) :
    (State.idle s).Kept q w := by
  unfold State.idle
  repeat' first
    | with_reducible assumption
    | with_reducible apply State.busNext_kept
    | with_reducible apply State.advance_kept
    | with_reducible apply State.recordSeq_kept
    | with_reducible apply State.updateLags_kept
    | split

end Sys2Proof.Machine
end

