-- ==== Sys2Proof/Laws/State.lean ====
section
/-! SUPPORT. What each update of the state leaves alone, field by field, and what is read back after it: fields of
register words, tenants, engines' counters, and the messages to the hosts. -/

namespace Sys2Proof.Machine

/-! Fields of a word. -/

theorem getBits_testBit (w : Word) (lo len i : Nat) :
    (getBits w lo len).testBit i = (decide (i < len) && w.getLsbD (lo + i)) := by
  rw [getBits, Nat.testBit_mod_two_pow, Nat.testBit_div_two_pow, BitVec.getLsbD, Nat.add_comm]

theorem maskOf_getLsbD (lo len i : Nat) :
    (maskOf lo len).getLsbD i = (decide (i < 32) && decide (lo ≤ i) && decide (i < lo + len)) := by
  rw [maskOf, BitVec.getLsbD_ofNat, Nat.testBit_mul_two_pow, Nat.testBit_two_pow_sub_one, Bool.and_assoc]
  by_cases h : i < 32 <;> by_cases h1 : lo ≤ i <;> simp [h, h1]
  omega

theorem setBits_getLsbD (w : Word) (lo len v i : Nat) :
    (setBits w lo len v).getLsbD i
      = if lo ≤ i ∧ i < lo + len then decide (i < 32) && v.testBit (i - lo) else w.getLsbD i := by
  rw [setBits, blend, BitVec.getLsbD_or, BitVec.getLsbD_and, BitVec.getLsbD_and, BitVec.getLsbD_not, maskOf_getLsbD,
    BitVec.getLsbD_ofNat, Nat.testBit_mul_two_pow, Nat.testBit_mod_two_pow]
  by_cases h : i < 32
  · by_cases h1 : lo ≤ i <;> by_cases h2 : i < lo + len <;> simp [h, h1, h2]
    omega
  · have : w.getLsbD i = false := BitVec.getLsbD_of_ge w i (by omega)
    simp [h, this]

/-- A field set reads as the value set. -/
theorem getBits_setBits (w : Word) (lo len v : Nat) (h : lo + len ≤ 32) :
    getBits (setBits w lo len v) lo len = v % 2 ^ len := by
  apply Nat.eq_of_testBit_eq
  intro i
  rw [getBits_testBit, setBits_getLsbD, Nat.testBit_mod_two_pow]
  by_cases hi : i < len
  · rw [if_pos (by omega)]
    have : lo + i < 32 := by omega
    simp [hi, this]
  · simp [hi]

/-- A field set leaves the fields beside it. -/
theorem getBits_setBits_of_disjoint (w : Word) (lo len v lo' len' : Nat) (h : lo' + len' ≤ lo ∨ lo + len ≤ lo') :
    getBits (setBits w lo len v) lo' len' = getBits w lo' len' := by
  apply Nat.eq_of_testBit_eq
  intro i
  rw [getBits_testBit, getBits_testBit, setBits_getLsbD]
  by_cases hi : i < len'
  · rw [if_neg (by omega)]
  · simp [hi]

/-! A message to a host changes the gate, and the record of the sequence series in NVS. -/

/-- The words that show the NVS queue: its level and the page writes refused. -/
def isQueueWord (j : Nat) : Prop := j = F.NVS_QUEUE_LEVEL.key ∨ j = F.NVS_REFUSED_COUNT.key

/-- `u` is `s` but for the gate, the NVS and the words that show its queue. -/
def State.Sent (s u : State) : Prop :=
  ∃ g n r, u = { s with gate := g, nvs := n, regs := r } ∧
    ∀ j, ¬isQueueWord j → Store.get (moduleRst j) r j = s.word j

theorem State.Sent.rfl {s : State} : s.Sent s := ⟨_, _, _, Eq.refl _, fun _ _ => Eq.refl _⟩

theorem State.Sent.trans {s t u : State} (a : s.Sent t) (b : t.Sent u) : s.Sent u := by
  obtain ⟨g, n, r, e, h⟩ := a
  obtain ⟨g', n', r', e', h'⟩ := b
  subst e
  exact ⟨g', n', r', e', fun j hj => (h' j hj).trans (h j hj)⟩

theorem State.sent_ite {s : State} {c : Bool} {f : State → State} (h : ∀ s : State, s.Sent (f s)) :
    s.Sent (if c = true then f s else s) := by
  split
  · exact h s
  · exact .rfl

theorem State.sent_foldl {α : Type} {f : State → α → State} (h : ∀ (s : State) k, s.Sent (f s k)) (r : List α) (s : State) :
    s.Sent (r.foldl f s) := by
  induction r generalizing s with
  | nil => exact .rfl
  | cons k r ih => exact (h s k).trans (ih _)

theorem State.count_sent (s : State) : s.Sent (s.count F.NVS_REFUSED_COUNT) :=
  ⟨_, _, _, Eq.refl _, fun _ hj => Store.get_setAt moduleRst _ _ _ _ |>.trans (if_neg fun e => hj (.inr e))⟩

theorem State.nvsAdmit_sent (s : State) : s.Sent s.nvsAdmit := by
  unfold State.nvsAdmit
  split
  · exact .rfl
  · exact ⟨_, _, _, Eq.refl _, fun _ hj => Store.get_setAt moduleRst _ _ _ _ |>.trans (if_neg fun e => hj (.inl e))⟩

theorem State.nvsAsk_sent (s : State) (x : NvsWrite) (keep : Bool) : s.Sent (s.nvsAsk x keep) := by
  have h : ∀ (u : State) n, u.Sent { u with nvs := n } := fun u n => ⟨_, _, _, Eq.refl _, fun _ _ => Eq.refl _⟩
  unfold State.nvsAsk
  split
  · exact s.count_sent.trans (State.sent_ite fun u => h u _)
  · exact (h s _).trans (State.nvsAdmit_sent _)

theorem State.nvsRecord_sent (s : State) (n : Nat) (bs : List Byte) : s.Sent (s.nvsRecord n bs) := s.nvsAsk_sent _ _

theorem State.recordSeq_sent (s : State) : s.Sent s.recordSeq := by
  unfold State.recordSeq
  dsimp only
  exact State.sent_ite fun s => s.nvsRecord_sent _ _

theorem State.sendB_sent (s : State) (d : NetAddr) (m : HostMsg) : s.Sent (s.sendB d m) := by
  unfold State.sendB
  exact State.sent_ite fun s => State.Sent.trans (t := { s with gate := s.gate.toB d s.hbPort m })
    ⟨_, _, _, Eq.refl _, fun _ _ => Eq.refl _⟩ (State.recordSeq_sent _)

theorem State.toHost_sent (s : State) (h : HostId) (m : HostMsg) : s.Sent (s.toHost h m) := by
  cases h
  · exact ⟨_, _, _, Eq.refl _, fun _ _ => Eq.refl _⟩
  · exact s.sendB_sent _ m

theorem State.answer_sent (s : State) (r : Msg) (m : HostMsg) : s.Sent (s.answer r m) := by
  unfold State.answer
  split
  · exact ⟨_, _, _, Eq.refl _, fun _ _ => Eq.refl _⟩
  · exact s.sendB_sent _ m

theorem State.toHosts_sent (s : State) (m : HostMsg) : s.Sent (s.toHosts m) :=
  (s.toHost_sent .a m).trans (State.toHost_sent _ .b m)

theorem State.sendEvent_sent (s : State) (m : HostMsg) : s.Sent (s.sendEvent m) := by
  unfold State.sendEvent
  exact (State.sent_ite fun s => s.toHost_sent .a m).trans (State.sent_ite fun s => s.toHost_sent .b m)

theorem State.notify_sent (s : State) (c : Nat) (l : List (Nat × Nat)) : s.Sent (s.notify c l) :=
  State.sent_foldl (fun s _ => s.sendEvent_sent _) _ s

theorem State.tell_sent (s : State) (c n : Nat) : s.Sent (s.tell c n) := s.notify_sent _ _

theorem State.reply_sent (s : State) (m : Msg) (b : Bool) (r : Byte) (d : Word) : s.Sent (s.reply m b r d) := by
  unfold State.reply
  dsimp only
  split
  · exact ⟨_, _, _, Eq.refl _, fun _ _ => Eq.refl _⟩
  · exact s.answer_sent _ _

theorem State.Sent.word {s u : State} (h : s.Sent u) {j : Nat} (hj : ¬isQueueWord j) :
    u.word j = s.word j := by
  obtain ⟨g, n, r, e, h⟩ := h
  rw [e]
  exact h j hj

theorem State.Sent.fld {s u : State} (h : s.Sent u) {f : Fld} (hf : ¬isQueueWord f.key) :
    u.fld f = s.fld f := by
  rw [State.fld, h.word hf, State.fld]

theorem State.Sent.bit {s u : State} (h : s.Sent u) {f : Fld} (hf : ¬isQueueWord f.key) :
    u.bit f = s.bit f := by
  rw [State.bit, h.fld hf, State.bit]

/-! setWord -/

@[simp] theorem State.setWord_pending (s : State) (k : Nat) (v : Word) : (s.setWord k v).pending = s.pending := rfl
@[simp] theorem State.setWord_tick (s : State) (k : Nat) (v : Word) : (s.setWord k v).tick = s.tick := rfl
@[simp] theorem State.setWord_tenants (s : State) (k : Nat) (v : Word) : (s.setWord k v).tenants = s.tenants := rfl
@[simp] theorem State.setWord_tb (s : State) (k : Nat) (v : Word) : (s.setWord k v).tb = s.tb := rfl
@[simp] theorem State.setWord_hbm (s : State) (k : Nat) (v : Word) : (s.setWord k v).hbm = s.hbm := rfl
@[simp] theorem State.setWord_gate (s : State) (k : Nat) (v : Word) : (s.setWord k v).gate = s.gate := rfl
@[simp] theorem State.setWord_bus (s : State) (k : Nat) (v : Word) : (s.setWord k v).bus = s.bus := rfl
@[simp] theorem State.setWord_previews (s : State) (k : Nat) (v : Word) : (s.setWord k v).previews = s.previews := rfl
@[simp] theorem State.setWord_secDma (s : State) (k : Nat) (v : Word) : (s.setWord k v).secDma = s.secDma := rfl
@[simp] theorem State.setWord_cmp (s : State) (k : Nat) (v : Word) : (s.setWord k v).cmp = s.cmp := rfl
@[simp] theorem State.setWord_push (s : State) (k : Nat) (v : Word) : (s.setWord k v).push = s.push := rfl
@[simp] theorem State.setWord_pushNext (s : State) (k : Nat) (v : Word) : (s.setWord k v).pushNext = s.pushNext := rfl
@[simp] theorem State.setWord_entries (s : State) (k : Nat) (v : Word) : (s.setWord k v).entries = s.entries := rfl
@[simp] theorem State.setWord_ports (s : State) (k : Nat) (v : Word) : (s.setWord k v).ports = s.ports := rfl
@[simp] theorem State.setWord_sinks (s : State) (k : Nat) (v : Word) : (s.setWord k v).sinks = s.sinks := rfl
@[simp] theorem State.setWord_nvs (s : State) (k : Nat) (v : Word) : (s.setWord k v).nvs = s.nvs := rfl
@[simp] theorem State.setWord_panel (s : State) (k : Nat) (v : Word) : (s.setWord k v).panel = s.panel := rfl
@[simp] theorem State.setWord_rtc (s : State) (k : Nat) (v : Word) : (s.setWord k v).rtc = s.rtc := rfl
@[simp] theorem State.setWord_fwu (s : State) (k : Nat) (v : Word) : (s.setWord k v).fwu = s.fwu := rfl
@[simp] theorem State.setWord_mt (s : State) (k : Nat) (v : Word) : (s.setWord k v).mt = s.mt := rfl
@[simp] theorem State.setWord_pio (s : State) (k : Nat) (v : Word) : (s.setWord k v).pio = s.pio := rfl
@[simp] theorem State.setWord_pins (s : State) (k : Nat) (v : Word) : (s.setWord k v).pins = s.pins := rfl
@[simp] theorem State.setWord_power (s : State) (k : Nat) (v : Word) : (s.setWord k v).power = s.power := rfl
@[simp] theorem State.setWord_cont (s : State) (k : Nat) (v : Word) : (s.setWord k v).cont = s.cont := rfl
@[simp] theorem State.setWord_ecc (s : State) (k : Nat) (v : Word) : (s.setWord k v).ecc = s.ecc := rfl
@[simp] theorem State.setWord_credits (s : State) (k : Nat) (v : Word) : (s.setWord k v).credits = s.credits := rfl
@[simp] theorem State.setWord_miq (s : State) (k : Nat) (v : Word) : (s.setWord k v).miq = s.miq := rfl
@[simp] theorem State.setWord_lan (s : State) (k : Nat) (v : Word) : (s.setWord k v).lan = s.lan := rfl
@[simp] theorem State.setWord_scrub (s : State) (k : Nat) (v : Word) : (s.setWord k v).scrub = s.scrub := rfl
@[simp] theorem State.setWord_accrued (s : State) (k : Nat) (v : Word) : (s.setWord k v).accrued = s.accrued := rfl
@[simp] theorem State.setWord_ready (s : State) (k : Nat) (v : Word) : (s.setWord k v).ready = s.ready := rfl
@[simp] theorem State.setWord_loads (s : State) (k : Nat) (v : Word) : (s.setWord k v).loads = s.loads := rfl
@[simp] theorem State.setWord_tenant (s : State) (k : Nat) (v : Word) (j : Nat) : (s.setWord k v).tenant j = s.tenant j := rfl
@[simp] theorem State.setWord_geo (s : State) (k : Nat) (v : Word) (j : Nat) : (s.setWord k v).geo j = s.geo j := rfl
@[simp] theorem State.setWord_entry (s : State) (k : Nat) (v : Word) (j : Nat) : (s.setWord k v).entry j = s.entry j := rfl
@[simp] theorem State.setWord_port (s : State) (k : Nat) (v : Word) (j : Nat) : (s.setWord k v).port j = s.port j := rfl
@[simp] theorem State.setWord_sdma (s : State) (k : Nat) (v : Word) (j : Nat) : (s.setWord k v).sdma j = s.sdma j := rfl

/-! setFld -/

@[simp] theorem State.setFld_pending (s : State) (f : Fld) (v : Nat) : (s.setFld f v).pending = s.pending := rfl
@[simp] theorem State.setFld_tick (s : State) (f : Fld) (v : Nat) : (s.setFld f v).tick = s.tick := rfl
@[simp] theorem State.setFld_tenants (s : State) (f : Fld) (v : Nat) : (s.setFld f v).tenants = s.tenants := rfl
@[simp] theorem State.setFld_tb (s : State) (f : Fld) (v : Nat) : (s.setFld f v).tb = s.tb := rfl
@[simp] theorem State.setFld_hbm (s : State) (f : Fld) (v : Nat) : (s.setFld f v).hbm = s.hbm := rfl
@[simp] theorem State.setFld_gate (s : State) (f : Fld) (v : Nat) : (s.setFld f v).gate = s.gate := rfl
@[simp] theorem State.setFld_bus (s : State) (f : Fld) (v : Nat) : (s.setFld f v).bus = s.bus := rfl
@[simp] theorem State.setFld_previews (s : State) (f : Fld) (v : Nat) : (s.setFld f v).previews = s.previews := rfl
@[simp] theorem State.setFld_secDma (s : State) (f : Fld) (v : Nat) : (s.setFld f v).secDma = s.secDma := rfl
@[simp] theorem State.setFld_cmp (s : State) (f : Fld) (v : Nat) : (s.setFld f v).cmp = s.cmp := rfl
@[simp] theorem State.setFld_push (s : State) (f : Fld) (v : Nat) : (s.setFld f v).push = s.push := rfl
@[simp] theorem State.setFld_pushNext (s : State) (f : Fld) (v : Nat) : (s.setFld f v).pushNext = s.pushNext := rfl
@[simp] theorem State.setFld_entries (s : State) (f : Fld) (v : Nat) : (s.setFld f v).entries = s.entries := rfl
@[simp] theorem State.setFld_ports (s : State) (f : Fld) (v : Nat) : (s.setFld f v).ports = s.ports := rfl
@[simp] theorem State.setFld_sinks (s : State) (f : Fld) (v : Nat) : (s.setFld f v).sinks = s.sinks := rfl
@[simp] theorem State.setFld_nvs (s : State) (f : Fld) (v : Nat) : (s.setFld f v).nvs = s.nvs := rfl
@[simp] theorem State.setFld_panel (s : State) (f : Fld) (v : Nat) : (s.setFld f v).panel = s.panel := rfl
@[simp] theorem State.setFld_rtc (s : State) (f : Fld) (v : Nat) : (s.setFld f v).rtc = s.rtc := rfl
@[simp] theorem State.setFld_fwu (s : State) (f : Fld) (v : Nat) : (s.setFld f v).fwu = s.fwu := rfl
@[simp] theorem State.setFld_mt (s : State) (f : Fld) (v : Nat) : (s.setFld f v).mt = s.mt := rfl
@[simp] theorem State.setFld_pio (s : State) (f : Fld) (v : Nat) : (s.setFld f v).pio = s.pio := rfl
@[simp] theorem State.setFld_pins (s : State) (f : Fld) (v : Nat) : (s.setFld f v).pins = s.pins := rfl
@[simp] theorem State.setFld_power (s : State) (f : Fld) (v : Nat) : (s.setFld f v).power = s.power := rfl
@[simp] theorem State.setFld_cont (s : State) (f : Fld) (v : Nat) : (s.setFld f v).cont = s.cont := rfl
@[simp] theorem State.setFld_ecc (s : State) (f : Fld) (v : Nat) : (s.setFld f v).ecc = s.ecc := rfl
@[simp] theorem State.setFld_credits (s : State) (f : Fld) (v : Nat) : (s.setFld f v).credits = s.credits := rfl
@[simp] theorem State.setFld_miq (s : State) (f : Fld) (v : Nat) : (s.setFld f v).miq = s.miq := rfl
@[simp] theorem State.setFld_lan (s : State) (f : Fld) (v : Nat) : (s.setFld f v).lan = s.lan := rfl
@[simp] theorem State.setFld_scrub (s : State) (f : Fld) (v : Nat) : (s.setFld f v).scrub = s.scrub := rfl
@[simp] theorem State.setFld_accrued (s : State) (f : Fld) (v : Nat) : (s.setFld f v).accrued = s.accrued := rfl
@[simp] theorem State.setFld_ready (s : State) (f : Fld) (v : Nat) : (s.setFld f v).ready = s.ready := rfl
@[simp] theorem State.setFld_loads (s : State) (f : Fld) (v : Nat) : (s.setFld f v).loads = s.loads := rfl
@[simp] theorem State.setFld_tenant (s : State) (f : Fld) (v : Nat) (j : Nat) : (s.setFld f v).tenant j = s.tenant j := rfl
@[simp] theorem State.setFld_geo (s : State) (f : Fld) (v : Nat) (j : Nat) : (s.setFld f v).geo j = s.geo j := rfl
@[simp] theorem State.setFld_entry (s : State) (f : Fld) (v : Nat) (j : Nat) : (s.setFld f v).entry j = s.entry j := rfl
@[simp] theorem State.setFld_port (s : State) (f : Fld) (v : Nat) (j : Nat) : (s.setFld f v).port j = s.port j := rfl
@[simp] theorem State.setFld_sdma (s : State) (f : Fld) (v : Nat) (j : Nat) : (s.setFld f v).sdma j = s.sdma j := rfl

/-! setBit -/

@[simp] theorem State.setBit_pending (s : State) (f : Fld) (b : Bool) : (s.setBit f b).pending = s.pending := rfl
@[simp] theorem State.setBit_tick (s : State) (f : Fld) (b : Bool) : (s.setBit f b).tick = s.tick := rfl
@[simp] theorem State.setBit_tenants (s : State) (f : Fld) (b : Bool) : (s.setBit f b).tenants = s.tenants := rfl
@[simp] theorem State.setBit_tb (s : State) (f : Fld) (b : Bool) : (s.setBit f b).tb = s.tb := rfl
@[simp] theorem State.setBit_hbm (s : State) (f : Fld) (b : Bool) : (s.setBit f b).hbm = s.hbm := rfl
@[simp] theorem State.setBit_gate (s : State) (f : Fld) (b : Bool) : (s.setBit f b).gate = s.gate := rfl
@[simp] theorem State.setBit_bus (s : State) (f : Fld) (b : Bool) : (s.setBit f b).bus = s.bus := rfl
@[simp] theorem State.setBit_previews (s : State) (f : Fld) (b : Bool) : (s.setBit f b).previews = s.previews := rfl
@[simp] theorem State.setBit_secDma (s : State) (f : Fld) (b : Bool) : (s.setBit f b).secDma = s.secDma := rfl
@[simp] theorem State.setBit_cmp (s : State) (f : Fld) (b : Bool) : (s.setBit f b).cmp = s.cmp := rfl
@[simp] theorem State.setBit_push (s : State) (f : Fld) (b : Bool) : (s.setBit f b).push = s.push := rfl
@[simp] theorem State.setBit_pushNext (s : State) (f : Fld) (b : Bool) : (s.setBit f b).pushNext = s.pushNext := rfl
@[simp] theorem State.setBit_entries (s : State) (f : Fld) (b : Bool) : (s.setBit f b).entries = s.entries := rfl
@[simp] theorem State.setBit_ports (s : State) (f : Fld) (b : Bool) : (s.setBit f b).ports = s.ports := rfl
@[simp] theorem State.setBit_sinks (s : State) (f : Fld) (b : Bool) : (s.setBit f b).sinks = s.sinks := rfl
@[simp] theorem State.setBit_nvs (s : State) (f : Fld) (b : Bool) : (s.setBit f b).nvs = s.nvs := rfl
@[simp] theorem State.setBit_panel (s : State) (f : Fld) (b : Bool) : (s.setBit f b).panel = s.panel := rfl
@[simp] theorem State.setBit_rtc (s : State) (f : Fld) (b : Bool) : (s.setBit f b).rtc = s.rtc := rfl
@[simp] theorem State.setBit_fwu (s : State) (f : Fld) (b : Bool) : (s.setBit f b).fwu = s.fwu := rfl
@[simp] theorem State.setBit_mt (s : State) (f : Fld) (b : Bool) : (s.setBit f b).mt = s.mt := rfl
@[simp] theorem State.setBit_pio (s : State) (f : Fld) (b : Bool) : (s.setBit f b).pio = s.pio := rfl
@[simp] theorem State.setBit_pins (s : State) (f : Fld) (b : Bool) : (s.setBit f b).pins = s.pins := rfl
@[simp] theorem State.setBit_power (s : State) (f : Fld) (b : Bool) : (s.setBit f b).power = s.power := rfl
@[simp] theorem State.setBit_cont (s : State) (f : Fld) (b : Bool) : (s.setBit f b).cont = s.cont := rfl
@[simp] theorem State.setBit_ecc (s : State) (f : Fld) (b : Bool) : (s.setBit f b).ecc = s.ecc := rfl
@[simp] theorem State.setBit_credits (s : State) (f : Fld) (b : Bool) : (s.setBit f b).credits = s.credits := rfl
@[simp] theorem State.setBit_miq (s : State) (f : Fld) (b : Bool) : (s.setBit f b).miq = s.miq := rfl
@[simp] theorem State.setBit_lan (s : State) (f : Fld) (b : Bool) : (s.setBit f b).lan = s.lan := rfl
@[simp] theorem State.setBit_scrub (s : State) (f : Fld) (b : Bool) : (s.setBit f b).scrub = s.scrub := rfl
@[simp] theorem State.setBit_accrued (s : State) (f : Fld) (b : Bool) : (s.setBit f b).accrued = s.accrued := rfl
@[simp] theorem State.setBit_ready (s : State) (f : Fld) (b : Bool) : (s.setBit f b).ready = s.ready := rfl
@[simp] theorem State.setBit_loads (s : State) (f : Fld) (b : Bool) : (s.setBit f b).loads = s.loads := rfl
@[simp] theorem State.setBit_tenant (s : State) (f : Fld) (b : Bool) (j : Nat) : (s.setBit f b).tenant j = s.tenant j := rfl
@[simp] theorem State.setBit_geo (s : State) (f : Fld) (b : Bool) (j : Nat) : (s.setBit f b).geo j = s.geo j := rfl
@[simp] theorem State.setBit_entry (s : State) (f : Fld) (b : Bool) (j : Nat) : (s.setBit f b).entry j = s.entry j := rfl
@[simp] theorem State.setBit_port (s : State) (f : Fld) (b : Bool) (j : Nat) : (s.setBit f b).port j = s.port j := rfl
@[simp] theorem State.setBit_sdma (s : State) (f : Fld) (b : Bool) (j : Nat) : (s.setBit f b).sdma j = s.sdma j := rfl

/-! count -/

@[simp] theorem State.count_pending (s : State) (f : Fld) : (s.count f).pending = s.pending := rfl
@[simp] theorem State.count_tick (s : State) (f : Fld) : (s.count f).tick = s.tick := rfl
@[simp] theorem State.count_tenants (s : State) (f : Fld) : (s.count f).tenants = s.tenants := rfl
@[simp] theorem State.count_tb (s : State) (f : Fld) : (s.count f).tb = s.tb := rfl
@[simp] theorem State.count_hbm (s : State) (f : Fld) : (s.count f).hbm = s.hbm := rfl
@[simp] theorem State.count_gate (s : State) (f : Fld) : (s.count f).gate = s.gate := rfl
@[simp] theorem State.count_bus (s : State) (f : Fld) : (s.count f).bus = s.bus := rfl
@[simp] theorem State.count_previews (s : State) (f : Fld) : (s.count f).previews = s.previews := rfl
@[simp] theorem State.count_secDma (s : State) (f : Fld) : (s.count f).secDma = s.secDma := rfl
@[simp] theorem State.count_cmp (s : State) (f : Fld) : (s.count f).cmp = s.cmp := rfl
@[simp] theorem State.count_push (s : State) (f : Fld) : (s.count f).push = s.push := rfl
@[simp] theorem State.count_pushNext (s : State) (f : Fld) : (s.count f).pushNext = s.pushNext := rfl
@[simp] theorem State.count_entries (s : State) (f : Fld) : (s.count f).entries = s.entries := rfl
@[simp] theorem State.count_ports (s : State) (f : Fld) : (s.count f).ports = s.ports := rfl
@[simp] theorem State.count_sinks (s : State) (f : Fld) : (s.count f).sinks = s.sinks := rfl
@[simp] theorem State.count_nvs (s : State) (f : Fld) : (s.count f).nvs = s.nvs := rfl
@[simp] theorem State.count_panel (s : State) (f : Fld) : (s.count f).panel = s.panel := rfl
@[simp] theorem State.count_rtc (s : State) (f : Fld) : (s.count f).rtc = s.rtc := rfl
@[simp] theorem State.count_fwu (s : State) (f : Fld) : (s.count f).fwu = s.fwu := rfl
@[simp] theorem State.count_mt (s : State) (f : Fld) : (s.count f).mt = s.mt := rfl
@[simp] theorem State.count_pio (s : State) (f : Fld) : (s.count f).pio = s.pio := rfl
@[simp] theorem State.count_pins (s : State) (f : Fld) : (s.count f).pins = s.pins := rfl
@[simp] theorem State.count_power (s : State) (f : Fld) : (s.count f).power = s.power := rfl
@[simp] theorem State.count_cont (s : State) (f : Fld) : (s.count f).cont = s.cont := rfl
@[simp] theorem State.count_ecc (s : State) (f : Fld) : (s.count f).ecc = s.ecc := rfl
@[simp] theorem State.count_credits (s : State) (f : Fld) : (s.count f).credits = s.credits := rfl
@[simp] theorem State.count_miq (s : State) (f : Fld) : (s.count f).miq = s.miq := rfl
@[simp] theorem State.count_lan (s : State) (f : Fld) : (s.count f).lan = s.lan := rfl
@[simp] theorem State.count_scrub (s : State) (f : Fld) : (s.count f).scrub = s.scrub := rfl
@[simp] theorem State.count_accrued (s : State) (f : Fld) : (s.count f).accrued = s.accrued := rfl
@[simp] theorem State.count_ready (s : State) (f : Fld) : (s.count f).ready = s.ready := rfl
@[simp] theorem State.count_loads (s : State) (f : Fld) : (s.count f).loads = s.loads := rfl
@[simp] theorem State.count_tenant (s : State) (f : Fld) (j : Nat) : (s.count f).tenant j = s.tenant j := rfl
@[simp] theorem State.count_geo (s : State) (f : Fld) (j : Nat) : (s.count f).geo j = s.geo j := rfl
@[simp] theorem State.count_entry (s : State) (f : Fld) (j : Nat) : (s.count f).entry j = s.entry j := rfl
@[simp] theorem State.count_port (s : State) (f : Fld) (j : Nat) : (s.count f).port j = s.port j := rfl
@[simp] theorem State.count_sdma (s : State) (f : Fld) (j : Nat) : (s.count f).sdma j = s.sdma j := rfl

/-! countN -/

@[simp] theorem State.countN_pending (s : State) (f : Fld) (n : Nat) : (s.countN f n).pending = s.pending := rfl
@[simp] theorem State.countN_tick (s : State) (f : Fld) (n : Nat) : (s.countN f n).tick = s.tick := rfl
@[simp] theorem State.countN_tenants (s : State) (f : Fld) (n : Nat) : (s.countN f n).tenants = s.tenants := rfl
@[simp] theorem State.countN_tb (s : State) (f : Fld) (n : Nat) : (s.countN f n).tb = s.tb := rfl
@[simp] theorem State.countN_hbm (s : State) (f : Fld) (n : Nat) : (s.countN f n).hbm = s.hbm := rfl
@[simp] theorem State.countN_gate (s : State) (f : Fld) (n : Nat) : (s.countN f n).gate = s.gate := rfl
@[simp] theorem State.countN_bus (s : State) (f : Fld) (n : Nat) : (s.countN f n).bus = s.bus := rfl
@[simp] theorem State.countN_previews (s : State) (f : Fld) (n : Nat) : (s.countN f n).previews = s.previews := rfl
@[simp] theorem State.countN_secDma (s : State) (f : Fld) (n : Nat) : (s.countN f n).secDma = s.secDma := rfl
@[simp] theorem State.countN_cmp (s : State) (f : Fld) (n : Nat) : (s.countN f n).cmp = s.cmp := rfl
@[simp] theorem State.countN_push (s : State) (f : Fld) (n : Nat) : (s.countN f n).push = s.push := rfl
@[simp] theorem State.countN_pushNext (s : State) (f : Fld) (n : Nat) : (s.countN f n).pushNext = s.pushNext := rfl
@[simp] theorem State.countN_entries (s : State) (f : Fld) (n : Nat) : (s.countN f n).entries = s.entries := rfl
@[simp] theorem State.countN_ports (s : State) (f : Fld) (n : Nat) : (s.countN f n).ports = s.ports := rfl
@[simp] theorem State.countN_sinks (s : State) (f : Fld) (n : Nat) : (s.countN f n).sinks = s.sinks := rfl
@[simp] theorem State.countN_nvs (s : State) (f : Fld) (n : Nat) : (s.countN f n).nvs = s.nvs := rfl
@[simp] theorem State.countN_panel (s : State) (f : Fld) (n : Nat) : (s.countN f n).panel = s.panel := rfl
@[simp] theorem State.countN_rtc (s : State) (f : Fld) (n : Nat) : (s.countN f n).rtc = s.rtc := rfl
@[simp] theorem State.countN_fwu (s : State) (f : Fld) (n : Nat) : (s.countN f n).fwu = s.fwu := rfl
@[simp] theorem State.countN_mt (s : State) (f : Fld) (n : Nat) : (s.countN f n).mt = s.mt := rfl
@[simp] theorem State.countN_pio (s : State) (f : Fld) (n : Nat) : (s.countN f n).pio = s.pio := rfl
@[simp] theorem State.countN_pins (s : State) (f : Fld) (n : Nat) : (s.countN f n).pins = s.pins := rfl
@[simp] theorem State.countN_power (s : State) (f : Fld) (n : Nat) : (s.countN f n).power = s.power := rfl
@[simp] theorem State.countN_cont (s : State) (f : Fld) (n : Nat) : (s.countN f n).cont = s.cont := rfl
@[simp] theorem State.countN_ecc (s : State) (f : Fld) (n : Nat) : (s.countN f n).ecc = s.ecc := rfl
@[simp] theorem State.countN_credits (s : State) (f : Fld) (n : Nat) : (s.countN f n).credits = s.credits := rfl
@[simp] theorem State.countN_miq (s : State) (f : Fld) (n : Nat) : (s.countN f n).miq = s.miq := rfl
@[simp] theorem State.countN_lan (s : State) (f : Fld) (n : Nat) : (s.countN f n).lan = s.lan := rfl
@[simp] theorem State.countN_scrub (s : State) (f : Fld) (n : Nat) : (s.countN f n).scrub = s.scrub := rfl
@[simp] theorem State.countN_accrued (s : State) (f : Fld) (n : Nat) : (s.countN f n).accrued = s.accrued := rfl
@[simp] theorem State.countN_ready (s : State) (f : Fld) (n : Nat) : (s.countN f n).ready = s.ready := rfl
@[simp] theorem State.countN_loads (s : State) (f : Fld) (n : Nat) : (s.countN f n).loads = s.loads := rfl
@[simp] theorem State.countN_tenant (s : State) (f : Fld) (n : Nat) (j : Nat) : (s.countN f n).tenant j = s.tenant j := rfl
@[simp] theorem State.countN_geo (s : State) (f : Fld) (n : Nat) (j : Nat) : (s.countN f n).geo j = s.geo j := rfl
@[simp] theorem State.countN_entry (s : State) (f : Fld) (n : Nat) (j : Nat) : (s.countN f n).entry j = s.entry j := rfl
@[simp] theorem State.countN_port (s : State) (f : Fld) (n : Nat) (j : Nat) : (s.countN f n).port j = s.port j := rfl
@[simp] theorem State.countN_sdma (s : State) (f : Fld) (n : Nat) (j : Nat) : (s.countN f n).sdma j = s.sdma j := rfl

/-! countNow -/

@[simp] theorem State.countNow_pending (s : State) (f : Fld) : (s.countNow f).pending = s.pending := by unfold State.countNow; dsimp only; split <;> rfl
@[simp] theorem State.countNow_tick (s : State) (f : Fld) : (s.countNow f).tick = s.tick := by unfold State.countNow; dsimp only; split <;> rfl
@[simp] theorem State.countNow_tenants (s : State) (f : Fld) : (s.countNow f).tenants = s.tenants := by unfold State.countNow; dsimp only; split <;> rfl
@[simp] theorem State.countNow_tb (s : State) (f : Fld) : (s.countNow f).tb = s.tb := by unfold State.countNow; dsimp only; split <;> rfl
@[simp] theorem State.countNow_hbm (s : State) (f : Fld) : (s.countNow f).hbm = s.hbm := by unfold State.countNow; dsimp only; split <;> rfl
@[simp] theorem State.countNow_gate (s : State) (f : Fld) : (s.countNow f).gate = s.gate := by unfold State.countNow; dsimp only; split <;> rfl
@[simp] theorem State.countNow_previews (s : State) (f : Fld) : (s.countNow f).previews = s.previews := by unfold State.countNow; dsimp only; split <;> rfl
@[simp] theorem State.countNow_secDma (s : State) (f : Fld) : (s.countNow f).secDma = s.secDma := by unfold State.countNow; dsimp only; split <;> rfl
@[simp] theorem State.countNow_cmp (s : State) (f : Fld) : (s.countNow f).cmp = s.cmp := by unfold State.countNow; dsimp only; split <;> rfl
@[simp] theorem State.countNow_push (s : State) (f : Fld) : (s.countNow f).push = s.push := by unfold State.countNow; dsimp only; split <;> rfl
@[simp] theorem State.countNow_pushNext (s : State) (f : Fld) : (s.countNow f).pushNext = s.pushNext := by unfold State.countNow; dsimp only; split <;> rfl
@[simp] theorem State.countNow_entries (s : State) (f : Fld) : (s.countNow f).entries = s.entries := by unfold State.countNow; dsimp only; split <;> rfl
@[simp] theorem State.countNow_ports (s : State) (f : Fld) : (s.countNow f).ports = s.ports := by unfold State.countNow; dsimp only; split <;> rfl
@[simp] theorem State.countNow_sinks (s : State) (f : Fld) : (s.countNow f).sinks = s.sinks := by unfold State.countNow; dsimp only; split <;> rfl
@[simp] theorem State.countNow_nvs (s : State) (f : Fld) : (s.countNow f).nvs = s.nvs := by unfold State.countNow; dsimp only; split <;> rfl
@[simp] theorem State.countNow_panel (s : State) (f : Fld) : (s.countNow f).panel = s.panel := by unfold State.countNow; dsimp only; split <;> rfl
@[simp] theorem State.countNow_rtc (s : State) (f : Fld) : (s.countNow f).rtc = s.rtc := by unfold State.countNow; dsimp only; split <;> rfl
@[simp] theorem State.countNow_fwu (s : State) (f : Fld) : (s.countNow f).fwu = s.fwu := by unfold State.countNow; dsimp only; split <;> rfl
@[simp] theorem State.countNow_mt (s : State) (f : Fld) : (s.countNow f).mt = s.mt := by unfold State.countNow; dsimp only; split <;> rfl
@[simp] theorem State.countNow_pio (s : State) (f : Fld) : (s.countNow f).pio = s.pio := by unfold State.countNow; dsimp only; split <;> rfl
@[simp] theorem State.countNow_pins (s : State) (f : Fld) : (s.countNow f).pins = s.pins := by unfold State.countNow; dsimp only; split <;> rfl
@[simp] theorem State.countNow_power (s : State) (f : Fld) : (s.countNow f).power = s.power := by unfold State.countNow; dsimp only; split <;> rfl
@[simp] theorem State.countNow_cont (s : State) (f : Fld) : (s.countNow f).cont = s.cont := by unfold State.countNow; dsimp only; split <;> rfl
@[simp] theorem State.countNow_ecc (s : State) (f : Fld) : (s.countNow f).ecc = s.ecc := by unfold State.countNow; dsimp only; split <;> rfl
@[simp] theorem State.countNow_credits (s : State) (f : Fld) : (s.countNow f).credits = s.credits := by unfold State.countNow; dsimp only; split <;> rfl
@[simp] theorem State.countNow_miq (s : State) (f : Fld) : (s.countNow f).miq = s.miq := by unfold State.countNow; dsimp only; split <;> rfl
@[simp] theorem State.countNow_lan (s : State) (f : Fld) : (s.countNow f).lan = s.lan := by unfold State.countNow; dsimp only; split <;> rfl
@[simp] theorem State.countNow_scrub (s : State) (f : Fld) : (s.countNow f).scrub = s.scrub := by unfold State.countNow; dsimp only; split <;> rfl
@[simp] theorem State.countNow_accrued (s : State) (f : Fld) : (s.countNow f).accrued = s.accrued := by unfold State.countNow; dsimp only; split <;> rfl
@[simp] theorem State.countNow_ready (s : State) (f : Fld) : (s.countNow f).ready = s.ready := by unfold State.countNow; dsimp only; split <;> rfl
@[simp] theorem State.countNow_loads (s : State) (f : Fld) : (s.countNow f).loads = s.loads := by unfold State.countNow; dsimp only; split <;> rfl
@[simp] theorem State.countNow_tenant (s : State) (f : Fld) (j : Nat) : (s.countNow f).tenant j = s.tenant j := by unfold State.countNow; dsimp only; split <;> rfl
@[simp] theorem State.countNow_geo (s : State) (f : Fld) (j : Nat) : (s.countNow f).geo j = s.geo j := by unfold State.countNow; dsimp only; split <;> rfl
@[simp] theorem State.countNow_entry (s : State) (f : Fld) (j : Nat) : (s.countNow f).entry j = s.entry j := by unfold State.countNow; dsimp only; split <;> rfl
@[simp] theorem State.countNow_port (s : State) (f : Fld) (j : Nat) : (s.countNow f).port j = s.port j := by unfold State.countNow; dsimp only; split <;> rfl
@[simp] theorem State.countNow_sdma (s : State) (f : Fld) (j : Nat) : (s.countNow f).sdma j = s.sdma j := by unfold State.countNow; dsimp only; split <;> rfl

/-! raiseNow -/

@[simp] theorem State.raiseNow_pending (s : State) (f : Fld) : (s.raiseNow f).pending = s.pending := rfl
@[simp] theorem State.raiseNow_tick (s : State) (f : Fld) : (s.raiseNow f).tick = s.tick := rfl
@[simp] theorem State.raiseNow_tenants (s : State) (f : Fld) : (s.raiseNow f).tenants = s.tenants := rfl
@[simp] theorem State.raiseNow_tb (s : State) (f : Fld) : (s.raiseNow f).tb = s.tb := rfl
@[simp] theorem State.raiseNow_hbm (s : State) (f : Fld) : (s.raiseNow f).hbm = s.hbm := rfl
@[simp] theorem State.raiseNow_gate (s : State) (f : Fld) : (s.raiseNow f).gate = s.gate := rfl
@[simp] theorem State.raiseNow_previews (s : State) (f : Fld) : (s.raiseNow f).previews = s.previews := rfl
@[simp] theorem State.raiseNow_secDma (s : State) (f : Fld) : (s.raiseNow f).secDma = s.secDma := rfl
@[simp] theorem State.raiseNow_cmp (s : State) (f : Fld) : (s.raiseNow f).cmp = s.cmp := rfl
@[simp] theorem State.raiseNow_push (s : State) (f : Fld) : (s.raiseNow f).push = s.push := rfl
@[simp] theorem State.raiseNow_pushNext (s : State) (f : Fld) : (s.raiseNow f).pushNext = s.pushNext := rfl
@[simp] theorem State.raiseNow_entries (s : State) (f : Fld) : (s.raiseNow f).entries = s.entries := rfl
@[simp] theorem State.raiseNow_ports (s : State) (f : Fld) : (s.raiseNow f).ports = s.ports := rfl
@[simp] theorem State.raiseNow_sinks (s : State) (f : Fld) : (s.raiseNow f).sinks = s.sinks := rfl
@[simp] theorem State.raiseNow_nvs (s : State) (f : Fld) : (s.raiseNow f).nvs = s.nvs := rfl
@[simp] theorem State.raiseNow_panel (s : State) (f : Fld) : (s.raiseNow f).panel = s.panel := rfl
@[simp] theorem State.raiseNow_rtc (s : State) (f : Fld) : (s.raiseNow f).rtc = s.rtc := rfl
@[simp] theorem State.raiseNow_fwu (s : State) (f : Fld) : (s.raiseNow f).fwu = s.fwu := rfl
@[simp] theorem State.raiseNow_mt (s : State) (f : Fld) : (s.raiseNow f).mt = s.mt := rfl
@[simp] theorem State.raiseNow_pio (s : State) (f : Fld) : (s.raiseNow f).pio = s.pio := rfl
@[simp] theorem State.raiseNow_pins (s : State) (f : Fld) : (s.raiseNow f).pins = s.pins := rfl
@[simp] theorem State.raiseNow_power (s : State) (f : Fld) : (s.raiseNow f).power = s.power := rfl
@[simp] theorem State.raiseNow_cont (s : State) (f : Fld) : (s.raiseNow f).cont = s.cont := rfl
@[simp] theorem State.raiseNow_ecc (s : State) (f : Fld) : (s.raiseNow f).ecc = s.ecc := rfl
@[simp] theorem State.raiseNow_credits (s : State) (f : Fld) : (s.raiseNow f).credits = s.credits := rfl
@[simp] theorem State.raiseNow_miq (s : State) (f : Fld) : (s.raiseNow f).miq = s.miq := rfl
@[simp] theorem State.raiseNow_lan (s : State) (f : Fld) : (s.raiseNow f).lan = s.lan := rfl
@[simp] theorem State.raiseNow_scrub (s : State) (f : Fld) : (s.raiseNow f).scrub = s.scrub := rfl
@[simp] theorem State.raiseNow_accrued (s : State) (f : Fld) : (s.raiseNow f).accrued = s.accrued := rfl
@[simp] theorem State.raiseNow_ready (s : State) (f : Fld) : (s.raiseNow f).ready = s.ready := rfl
@[simp] theorem State.raiseNow_loads (s : State) (f : Fld) : (s.raiseNow f).loads = s.loads := rfl
@[simp] theorem State.raiseNow_tenant (s : State) (f : Fld) (j : Nat) : (s.raiseNow f).tenant j = s.tenant j := rfl
@[simp] theorem State.raiseNow_geo (s : State) (f : Fld) (j : Nat) : (s.raiseNow f).geo j = s.geo j := rfl
@[simp] theorem State.raiseNow_entry (s : State) (f : Fld) (j : Nat) : (s.raiseNow f).entry j = s.entry j := rfl
@[simp] theorem State.raiseNow_port (s : State) (f : Fld) (j : Nat) : (s.raiseNow f).port j = s.port j := rfl
@[simp] theorem State.raiseNow_sdma (s : State) (f : Fld) (j : Nat) : (s.raiseNow f).sdma j = s.sdma j := rfl

/-! work -/

@[simp] theorem State.work_pending (s : State) (e : Nat) (h : EngWork → EngWork) : (s.work e h).pending = s.pending := rfl
@[simp] theorem State.work_tick (s : State) (e : Nat) (h : EngWork → EngWork) : (s.work e h).tick = s.tick := rfl
@[simp] theorem State.work_regs (s : State) (e : Nat) (h : EngWork → EngWork) : (s.work e h).regs = s.regs := rfl
@[simp] theorem State.work_tenants (s : State) (e : Nat) (h : EngWork → EngWork) : (s.work e h).tenants = s.tenants := rfl
@[simp] theorem State.work_tb (s : State) (e : Nat) (h : EngWork → EngWork) : (s.work e h).tb = s.tb := rfl
@[simp] theorem State.work_hbm (s : State) (e : Nat) (h : EngWork → EngWork) : (s.work e h).hbm = s.hbm := rfl
@[simp] theorem State.work_gate (s : State) (e : Nat) (h : EngWork → EngWork) : (s.work e h).gate = s.gate := rfl
@[simp] theorem State.work_bus (s : State) (e : Nat) (h : EngWork → EngWork) : (s.work e h).bus = s.bus := rfl
@[simp] theorem State.work_previews (s : State) (e : Nat) (h : EngWork → EngWork) : (s.work e h).previews = s.previews := rfl
@[simp] theorem State.work_secDma (s : State) (e : Nat) (h : EngWork → EngWork) : (s.work e h).secDma = s.secDma := rfl
@[simp] theorem State.work_cmp (s : State) (e : Nat) (h : EngWork → EngWork) : (s.work e h).cmp = s.cmp := rfl
@[simp] theorem State.work_push (s : State) (e : Nat) (h : EngWork → EngWork) : (s.work e h).push = s.push := rfl
@[simp] theorem State.work_pushNext (s : State) (e : Nat) (h : EngWork → EngWork) : (s.work e h).pushNext = s.pushNext := rfl
@[simp] theorem State.work_entries (s : State) (e : Nat) (h : EngWork → EngWork) : (s.work e h).entries = s.entries := rfl
@[simp] theorem State.work_ports (s : State) (e : Nat) (h : EngWork → EngWork) : (s.work e h).ports = s.ports := rfl
@[simp] theorem State.work_sinks (s : State) (e : Nat) (h : EngWork → EngWork) : (s.work e h).sinks = s.sinks := rfl
@[simp] theorem State.work_nvs (s : State) (e : Nat) (h : EngWork → EngWork) : (s.work e h).nvs = s.nvs := rfl
@[simp] theorem State.work_panel (s : State) (e : Nat) (h : EngWork → EngWork) : (s.work e h).panel = s.panel := rfl
@[simp] theorem State.work_rtc (s : State) (e : Nat) (h : EngWork → EngWork) : (s.work e h).rtc = s.rtc := rfl
@[simp] theorem State.work_fwu (s : State) (e : Nat) (h : EngWork → EngWork) : (s.work e h).fwu = s.fwu := rfl
@[simp] theorem State.work_mt (s : State) (e : Nat) (h : EngWork → EngWork) : (s.work e h).mt = s.mt := rfl
@[simp] theorem State.work_pio (s : State) (e : Nat) (h : EngWork → EngWork) : (s.work e h).pio = s.pio := rfl
@[simp] theorem State.work_pins (s : State) (e : Nat) (h : EngWork → EngWork) : (s.work e h).pins = s.pins := rfl
@[simp] theorem State.work_power (s : State) (e : Nat) (h : EngWork → EngWork) : (s.work e h).power = s.power := rfl
@[simp] theorem State.work_cont (s : State) (e : Nat) (h : EngWork → EngWork) : (s.work e h).cont = s.cont := rfl
@[simp] theorem State.work_ecc (s : State) (e : Nat) (h : EngWork → EngWork) : (s.work e h).ecc = s.ecc := rfl
@[simp] theorem State.work_credits (s : State) (e : Nat) (h : EngWork → EngWork) : (s.work e h).credits = s.credits := rfl
@[simp] theorem State.work_miq (s : State) (e : Nat) (h : EngWork → EngWork) : (s.work e h).miq = s.miq := rfl
@[simp] theorem State.work_lan (s : State) (e : Nat) (h : EngWork → EngWork) : (s.work e h).lan = s.lan := rfl
@[simp] theorem State.work_scrub (s : State) (e : Nat) (h : EngWork → EngWork) : (s.work e h).scrub = s.scrub := rfl
@[simp] theorem State.work_accrued (s : State) (e : Nat) (h : EngWork → EngWork) : (s.work e h).accrued = s.accrued := rfl
@[simp] theorem State.work_ready (s : State) (e : Nat) (h : EngWork → EngWork) : (s.work e h).ready = s.ready := rfl
@[simp] theorem State.work_word (s : State) (e : Nat) (h : EngWork → EngWork) (j : Nat) : (s.work e h).word j = s.word j := rfl
@[simp] theorem State.work_fld (s : State) (e : Nat) (h : EngWork → EngWork) (i : Fld) : (s.work e h).fld i = s.fld i := rfl
@[simp] theorem State.work_bit (s : State) (e : Nat) (h : EngWork → EngWork) (i : Fld) : (s.work e h).bit i = s.bit i := rfl
@[simp] theorem State.work_tenant (s : State) (e : Nat) (h : EngWork → EngWork) (j : Nat) : (s.work e h).tenant j = s.tenant j := rfl
@[simp] theorem State.work_geo (s : State) (e : Nat) (h : EngWork → EngWork) (j : Nat) : (s.work e h).geo j = s.geo j := rfl
@[simp] theorem State.work_entry (s : State) (e : Nat) (h : EngWork → EngWork) (j : Nat) : (s.work e h).entry j = s.entry j := rfl
@[simp] theorem State.work_port (s : State) (e : Nat) (h : EngWork → EngWork) (j : Nat) : (s.work e h).port j = s.port j := rfl
@[simp] theorem State.work_sdma (s : State) (e : Nat) (h : EngWork → EngWork) (j : Nat) : (s.work e h).sdma j = s.sdma j := rfl

/-! setTenant -/

@[simp] theorem State.setTenant_pending (s : State) (k : Nat) (t : Tenant) : (s.setTenant k t).pending = s.pending := rfl
@[simp] theorem State.setTenant_tick (s : State) (k : Nat) (t : Tenant) : (s.setTenant k t).tick = s.tick := rfl
@[simp] theorem State.setTenant_regs (s : State) (k : Nat) (t : Tenant) : (s.setTenant k t).regs = s.regs := rfl
@[simp] theorem State.setTenant_tb (s : State) (k : Nat) (t : Tenant) : (s.setTenant k t).tb = s.tb := rfl
@[simp] theorem State.setTenant_hbm (s : State) (k : Nat) (t : Tenant) : (s.setTenant k t).hbm = s.hbm := rfl
@[simp] theorem State.setTenant_gate (s : State) (k : Nat) (t : Tenant) : (s.setTenant k t).gate = s.gate := rfl
@[simp] theorem State.setTenant_bus (s : State) (k : Nat) (t : Tenant) : (s.setTenant k t).bus = s.bus := rfl
@[simp] theorem State.setTenant_previews (s : State) (k : Nat) (t : Tenant) : (s.setTenant k t).previews = s.previews := rfl
@[simp] theorem State.setTenant_secDma (s : State) (k : Nat) (t : Tenant) : (s.setTenant k t).secDma = s.secDma := rfl
@[simp] theorem State.setTenant_cmp (s : State) (k : Nat) (t : Tenant) : (s.setTenant k t).cmp = s.cmp := rfl
@[simp] theorem State.setTenant_push (s : State) (k : Nat) (t : Tenant) : (s.setTenant k t).push = s.push := rfl
@[simp] theorem State.setTenant_pushNext (s : State) (k : Nat) (t : Tenant) : (s.setTenant k t).pushNext = s.pushNext := rfl
@[simp] theorem State.setTenant_entries (s : State) (k : Nat) (t : Tenant) : (s.setTenant k t).entries = s.entries := rfl
@[simp] theorem State.setTenant_ports (s : State) (k : Nat) (t : Tenant) : (s.setTenant k t).ports = s.ports := rfl
@[simp] theorem State.setTenant_sinks (s : State) (k : Nat) (t : Tenant) : (s.setTenant k t).sinks = s.sinks := rfl
@[simp] theorem State.setTenant_nvs (s : State) (k : Nat) (t : Tenant) : (s.setTenant k t).nvs = s.nvs := rfl
@[simp] theorem State.setTenant_panel (s : State) (k : Nat) (t : Tenant) : (s.setTenant k t).panel = s.panel := rfl
@[simp] theorem State.setTenant_rtc (s : State) (k : Nat) (t : Tenant) : (s.setTenant k t).rtc = s.rtc := rfl
@[simp] theorem State.setTenant_fwu (s : State) (k : Nat) (t : Tenant) : (s.setTenant k t).fwu = s.fwu := rfl
@[simp] theorem State.setTenant_mt (s : State) (k : Nat) (t : Tenant) : (s.setTenant k t).mt = s.mt := rfl
@[simp] theorem State.setTenant_pio (s : State) (k : Nat) (t : Tenant) : (s.setTenant k t).pio = s.pio := rfl
@[simp] theorem State.setTenant_pins (s : State) (k : Nat) (t : Tenant) : (s.setTenant k t).pins = s.pins := rfl
@[simp] theorem State.setTenant_power (s : State) (k : Nat) (t : Tenant) : (s.setTenant k t).power = s.power := rfl
@[simp] theorem State.setTenant_cont (s : State) (k : Nat) (t : Tenant) : (s.setTenant k t).cont = s.cont := rfl
@[simp] theorem State.setTenant_ecc (s : State) (k : Nat) (t : Tenant) : (s.setTenant k t).ecc = s.ecc := rfl
@[simp] theorem State.setTenant_credits (s : State) (k : Nat) (t : Tenant) : (s.setTenant k t).credits = s.credits := rfl
@[simp] theorem State.setTenant_miq (s : State) (k : Nat) (t : Tenant) : (s.setTenant k t).miq = s.miq := rfl
@[simp] theorem State.setTenant_lan (s : State) (k : Nat) (t : Tenant) : (s.setTenant k t).lan = s.lan := rfl
@[simp] theorem State.setTenant_scrub (s : State) (k : Nat) (t : Tenant) : (s.setTenant k t).scrub = s.scrub := rfl
@[simp] theorem State.setTenant_accrued (s : State) (k : Nat) (t : Tenant) : (s.setTenant k t).accrued = s.accrued := rfl
@[simp] theorem State.setTenant_ready (s : State) (k : Nat) (t : Tenant) : (s.setTenant k t).ready = s.ready := rfl
@[simp] theorem State.setTenant_loads (s : State) (k : Nat) (t : Tenant) : (s.setTenant k t).loads = s.loads := rfl
@[simp] theorem State.setTenant_word (s : State) (k : Nat) (t : Tenant) (j : Nat) : (s.setTenant k t).word j = s.word j := rfl
@[simp] theorem State.setTenant_fld (s : State) (k : Nat) (t : Tenant) (i : Fld) : (s.setTenant k t).fld i = s.fld i := rfl
@[simp] theorem State.setTenant_bit (s : State) (k : Nat) (t : Tenant) (i : Fld) : (s.setTenant k t).bit i = s.bit i := rfl
@[simp] theorem State.setTenant_entry (s : State) (k : Nat) (t : Tenant) (j : Nat) : (s.setTenant k t).entry j = s.entry j := rfl
@[simp] theorem State.setTenant_port (s : State) (k : Nat) (t : Tenant) (j : Nat) : (s.setTenant k t).port j = s.port j := rfl
@[simp] theorem State.setTenant_sdma (s : State) (k : Nat) (t : Tenant) (j : Nat) : (s.setTenant k t).sdma j = s.sdma j := rfl

/-! onTenant -/

@[simp] theorem State.onTenant_pending (s : State) (k : Nat) (g : Tenant → Tenant) : (s.onTenant k g).pending = s.pending := rfl
@[simp] theorem State.onTenant_tick (s : State) (k : Nat) (g : Tenant → Tenant) : (s.onTenant k g).tick = s.tick := rfl
@[simp] theorem State.onTenant_regs (s : State) (k : Nat) (g : Tenant → Tenant) : (s.onTenant k g).regs = s.regs := rfl
@[simp] theorem State.onTenant_tb (s : State) (k : Nat) (g : Tenant → Tenant) : (s.onTenant k g).tb = s.tb := rfl
@[simp] theorem State.onTenant_hbm (s : State) (k : Nat) (g : Tenant → Tenant) : (s.onTenant k g).hbm = s.hbm := rfl
@[simp] theorem State.onTenant_gate (s : State) (k : Nat) (g : Tenant → Tenant) : (s.onTenant k g).gate = s.gate := rfl
@[simp] theorem State.onTenant_bus (s : State) (k : Nat) (g : Tenant → Tenant) : (s.onTenant k g).bus = s.bus := rfl
@[simp] theorem State.onTenant_previews (s : State) (k : Nat) (g : Tenant → Tenant) : (s.onTenant k g).previews = s.previews := rfl
@[simp] theorem State.onTenant_secDma (s : State) (k : Nat) (g : Tenant → Tenant) : (s.onTenant k g).secDma = s.secDma := rfl
@[simp] theorem State.onTenant_cmp (s : State) (k : Nat) (g : Tenant → Tenant) : (s.onTenant k g).cmp = s.cmp := rfl
@[simp] theorem State.onTenant_push (s : State) (k : Nat) (g : Tenant → Tenant) : (s.onTenant k g).push = s.push := rfl
@[simp] theorem State.onTenant_pushNext (s : State) (k : Nat) (g : Tenant → Tenant) : (s.onTenant k g).pushNext = s.pushNext := rfl
@[simp] theorem State.onTenant_entries (s : State) (k : Nat) (g : Tenant → Tenant) : (s.onTenant k g).entries = s.entries := rfl
@[simp] theorem State.onTenant_ports (s : State) (k : Nat) (g : Tenant → Tenant) : (s.onTenant k g).ports = s.ports := rfl
@[simp] theorem State.onTenant_sinks (s : State) (k : Nat) (g : Tenant → Tenant) : (s.onTenant k g).sinks = s.sinks := rfl
@[simp] theorem State.onTenant_nvs (s : State) (k : Nat) (g : Tenant → Tenant) : (s.onTenant k g).nvs = s.nvs := rfl
@[simp] theorem State.onTenant_panel (s : State) (k : Nat) (g : Tenant → Tenant) : (s.onTenant k g).panel = s.panel := rfl
@[simp] theorem State.onTenant_rtc (s : State) (k : Nat) (g : Tenant → Tenant) : (s.onTenant k g).rtc = s.rtc := rfl
@[simp] theorem State.onTenant_fwu (s : State) (k : Nat) (g : Tenant → Tenant) : (s.onTenant k g).fwu = s.fwu := rfl
@[simp] theorem State.onTenant_mt (s : State) (k : Nat) (g : Tenant → Tenant) : (s.onTenant k g).mt = s.mt := rfl
@[simp] theorem State.onTenant_pio (s : State) (k : Nat) (g : Tenant → Tenant) : (s.onTenant k g).pio = s.pio := rfl
@[simp] theorem State.onTenant_pins (s : State) (k : Nat) (g : Tenant → Tenant) : (s.onTenant k g).pins = s.pins := rfl
@[simp] theorem State.onTenant_power (s : State) (k : Nat) (g : Tenant → Tenant) : (s.onTenant k g).power = s.power := rfl
@[simp] theorem State.onTenant_cont (s : State) (k : Nat) (g : Tenant → Tenant) : (s.onTenant k g).cont = s.cont := rfl
@[simp] theorem State.onTenant_ecc (s : State) (k : Nat) (g : Tenant → Tenant) : (s.onTenant k g).ecc = s.ecc := rfl
@[simp] theorem State.onTenant_credits (s : State) (k : Nat) (g : Tenant → Tenant) : (s.onTenant k g).credits = s.credits := rfl
@[simp] theorem State.onTenant_miq (s : State) (k : Nat) (g : Tenant → Tenant) : (s.onTenant k g).miq = s.miq := rfl
@[simp] theorem State.onTenant_lan (s : State) (k : Nat) (g : Tenant → Tenant) : (s.onTenant k g).lan = s.lan := rfl
@[simp] theorem State.onTenant_scrub (s : State) (k : Nat) (g : Tenant → Tenant) : (s.onTenant k g).scrub = s.scrub := rfl
@[simp] theorem State.onTenant_accrued (s : State) (k : Nat) (g : Tenant → Tenant) : (s.onTenant k g).accrued = s.accrued := rfl
@[simp] theorem State.onTenant_ready (s : State) (k : Nat) (g : Tenant → Tenant) : (s.onTenant k g).ready = s.ready := rfl
@[simp] theorem State.onTenant_loads (s : State) (k : Nat) (g : Tenant → Tenant) : (s.onTenant k g).loads = s.loads := rfl
@[simp] theorem State.onTenant_word (s : State) (k : Nat) (g : Tenant → Tenant) (j : Nat) : (s.onTenant k g).word j = s.word j := rfl
@[simp] theorem State.onTenant_fld (s : State) (k : Nat) (g : Tenant → Tenant) (i : Fld) : (s.onTenant k g).fld i = s.fld i := rfl
@[simp] theorem State.onTenant_bit (s : State) (k : Nat) (g : Tenant → Tenant) (i : Fld) : (s.onTenant k g).bit i = s.bit i := rfl
@[simp] theorem State.onTenant_entry (s : State) (k : Nat) (g : Tenant → Tenant) (j : Nat) : (s.onTenant k g).entry j = s.entry j := rfl
@[simp] theorem State.onTenant_port (s : State) (k : Nat) (g : Tenant → Tenant) (j : Nat) : (s.onTenant k g).port j = s.port j := rfl
@[simp] theorem State.onTenant_sdma (s : State) (k : Nat) (g : Tenant → Tenant) (j : Nat) : (s.onTenant k g).sdma j = s.sdma j := rfl

/-! setSdma -/

@[simp] theorem State.setSdma_pending (s : State) (c : Nat) (x : SecDma) : (s.setSdma c x).pending = s.pending := rfl
@[simp] theorem State.setSdma_tick (s : State) (c : Nat) (x : SecDma) : (s.setSdma c x).tick = s.tick := rfl
@[simp] theorem State.setSdma_regs (s : State) (c : Nat) (x : SecDma) : (s.setSdma c x).regs = s.regs := rfl
@[simp] theorem State.setSdma_tenants (s : State) (c : Nat) (x : SecDma) : (s.setSdma c x).tenants = s.tenants := rfl
@[simp] theorem State.setSdma_tb (s : State) (c : Nat) (x : SecDma) : (s.setSdma c x).tb = s.tb := rfl
@[simp] theorem State.setSdma_hbm (s : State) (c : Nat) (x : SecDma) : (s.setSdma c x).hbm = s.hbm := rfl
@[simp] theorem State.setSdma_gate (s : State) (c : Nat) (x : SecDma) : (s.setSdma c x).gate = s.gate := rfl
@[simp] theorem State.setSdma_bus (s : State) (c : Nat) (x : SecDma) : (s.setSdma c x).bus = s.bus := rfl
@[simp] theorem State.setSdma_previews (s : State) (c : Nat) (x : SecDma) : (s.setSdma c x).previews = s.previews := rfl
@[simp] theorem State.setSdma_cmp (s : State) (c : Nat) (x : SecDma) : (s.setSdma c x).cmp = s.cmp := rfl
@[simp] theorem State.setSdma_push (s : State) (c : Nat) (x : SecDma) : (s.setSdma c x).push = s.push := rfl
@[simp] theorem State.setSdma_pushNext (s : State) (c : Nat) (x : SecDma) : (s.setSdma c x).pushNext = s.pushNext := rfl
@[simp] theorem State.setSdma_entries (s : State) (c : Nat) (x : SecDma) : (s.setSdma c x).entries = s.entries := rfl
@[simp] theorem State.setSdma_ports (s : State) (c : Nat) (x : SecDma) : (s.setSdma c x).ports = s.ports := rfl
@[simp] theorem State.setSdma_sinks (s : State) (c : Nat) (x : SecDma) : (s.setSdma c x).sinks = s.sinks := rfl
@[simp] theorem State.setSdma_nvs (s : State) (c : Nat) (x : SecDma) : (s.setSdma c x).nvs = s.nvs := rfl
@[simp] theorem State.setSdma_panel (s : State) (c : Nat) (x : SecDma) : (s.setSdma c x).panel = s.panel := rfl
@[simp] theorem State.setSdma_rtc (s : State) (c : Nat) (x : SecDma) : (s.setSdma c x).rtc = s.rtc := rfl
@[simp] theorem State.setSdma_fwu (s : State) (c : Nat) (x : SecDma) : (s.setSdma c x).fwu = s.fwu := rfl
@[simp] theorem State.setSdma_mt (s : State) (c : Nat) (x : SecDma) : (s.setSdma c x).mt = s.mt := rfl
@[simp] theorem State.setSdma_pio (s : State) (c : Nat) (x : SecDma) : (s.setSdma c x).pio = s.pio := rfl
@[simp] theorem State.setSdma_pins (s : State) (c : Nat) (x : SecDma) : (s.setSdma c x).pins = s.pins := rfl
@[simp] theorem State.setSdma_power (s : State) (c : Nat) (x : SecDma) : (s.setSdma c x).power = s.power := rfl
@[simp] theorem State.setSdma_cont (s : State) (c : Nat) (x : SecDma) : (s.setSdma c x).cont = s.cont := rfl
@[simp] theorem State.setSdma_ecc (s : State) (c : Nat) (x : SecDma) : (s.setSdma c x).ecc = s.ecc := rfl
@[simp] theorem State.setSdma_credits (s : State) (c : Nat) (x : SecDma) : (s.setSdma c x).credits = s.credits := rfl
@[simp] theorem State.setSdma_miq (s : State) (c : Nat) (x : SecDma) : (s.setSdma c x).miq = s.miq := rfl
@[simp] theorem State.setSdma_lan (s : State) (c : Nat) (x : SecDma) : (s.setSdma c x).lan = s.lan := rfl
@[simp] theorem State.setSdma_scrub (s : State) (c : Nat) (x : SecDma) : (s.setSdma c x).scrub = s.scrub := rfl
@[simp] theorem State.setSdma_accrued (s : State) (c : Nat) (x : SecDma) : (s.setSdma c x).accrued = s.accrued := rfl
@[simp] theorem State.setSdma_ready (s : State) (c : Nat) (x : SecDma) : (s.setSdma c x).ready = s.ready := rfl
@[simp] theorem State.setSdma_loads (s : State) (c : Nat) (x : SecDma) : (s.setSdma c x).loads = s.loads := rfl
@[simp] theorem State.setSdma_word (s : State) (c : Nat) (x : SecDma) (j : Nat) : (s.setSdma c x).word j = s.word j := rfl
@[simp] theorem State.setSdma_fld (s : State) (c : Nat) (x : SecDma) (i : Fld) : (s.setSdma c x).fld i = s.fld i := rfl
@[simp] theorem State.setSdma_bit (s : State) (c : Nat) (x : SecDma) (i : Fld) : (s.setSdma c x).bit i = s.bit i := rfl
@[simp] theorem State.setSdma_tenant (s : State) (c : Nat) (x : SecDma) (j : Nat) : (s.setSdma c x).tenant j = s.tenant j := rfl
@[simp] theorem State.setSdma_geo (s : State) (c : Nat) (x : SecDma) (j : Nat) : (s.setSdma c x).geo j = s.geo j := rfl
@[simp] theorem State.setSdma_entry (s : State) (c : Nat) (x : SecDma) (j : Nat) : (s.setSdma c x).entry j = s.entry j := rfl
@[simp] theorem State.setSdma_port (s : State) (c : Nat) (x : SecDma) (j : Nat) : (s.setSdma c x).port j = s.port j := rfl

/-! setEntry -/

@[simp] theorem State.setEntry_pending (s : State) (e : Nat) (x : Entry) : (s.setEntry e x).pending = s.pending := rfl
@[simp] theorem State.setEntry_tick (s : State) (e : Nat) (x : Entry) : (s.setEntry e x).tick = s.tick := rfl
@[simp] theorem State.setEntry_regs (s : State) (e : Nat) (x : Entry) : (s.setEntry e x).regs = s.regs := rfl
@[simp] theorem State.setEntry_tenants (s : State) (e : Nat) (x : Entry) : (s.setEntry e x).tenants = s.tenants := rfl
@[simp] theorem State.setEntry_tb (s : State) (e : Nat) (x : Entry) : (s.setEntry e x).tb = s.tb := rfl
@[simp] theorem State.setEntry_hbm (s : State) (e : Nat) (x : Entry) : (s.setEntry e x).hbm = s.hbm := rfl
@[simp] theorem State.setEntry_gate (s : State) (e : Nat) (x : Entry) : (s.setEntry e x).gate = s.gate := rfl
@[simp] theorem State.setEntry_bus (s : State) (e : Nat) (x : Entry) : (s.setEntry e x).bus = s.bus := rfl
@[simp] theorem State.setEntry_previews (s : State) (e : Nat) (x : Entry) : (s.setEntry e x).previews = s.previews := rfl
@[simp] theorem State.setEntry_secDma (s : State) (e : Nat) (x : Entry) : (s.setEntry e x).secDma = s.secDma := rfl
@[simp] theorem State.setEntry_cmp (s : State) (e : Nat) (x : Entry) : (s.setEntry e x).cmp = s.cmp := rfl
@[simp] theorem State.setEntry_push (s : State) (e : Nat) (x : Entry) : (s.setEntry e x).push = s.push := rfl
@[simp] theorem State.setEntry_pushNext (s : State) (e : Nat) (x : Entry) : (s.setEntry e x).pushNext = s.pushNext := rfl
@[simp] theorem State.setEntry_ports (s : State) (e : Nat) (x : Entry) : (s.setEntry e x).ports = s.ports := rfl
@[simp] theorem State.setEntry_sinks (s : State) (e : Nat) (x : Entry) : (s.setEntry e x).sinks = s.sinks := rfl
@[simp] theorem State.setEntry_nvs (s : State) (e : Nat) (x : Entry) : (s.setEntry e x).nvs = s.nvs := rfl
@[simp] theorem State.setEntry_panel (s : State) (e : Nat) (x : Entry) : (s.setEntry e x).panel = s.panel := rfl
@[simp] theorem State.setEntry_rtc (s : State) (e : Nat) (x : Entry) : (s.setEntry e x).rtc = s.rtc := rfl
@[simp] theorem State.setEntry_fwu (s : State) (e : Nat) (x : Entry) : (s.setEntry e x).fwu = s.fwu := rfl
@[simp] theorem State.setEntry_mt (s : State) (e : Nat) (x : Entry) : (s.setEntry e x).mt = s.mt := rfl
@[simp] theorem State.setEntry_pio (s : State) (e : Nat) (x : Entry) : (s.setEntry e x).pio = s.pio := rfl
@[simp] theorem State.setEntry_pins (s : State) (e : Nat) (x : Entry) : (s.setEntry e x).pins = s.pins := rfl
@[simp] theorem State.setEntry_power (s : State) (e : Nat) (x : Entry) : (s.setEntry e x).power = s.power := rfl
@[simp] theorem State.setEntry_cont (s : State) (e : Nat) (x : Entry) : (s.setEntry e x).cont = s.cont := rfl
@[simp] theorem State.setEntry_ecc (s : State) (e : Nat) (x : Entry) : (s.setEntry e x).ecc = s.ecc := rfl
@[simp] theorem State.setEntry_credits (s : State) (e : Nat) (x : Entry) : (s.setEntry e x).credits = s.credits := rfl
@[simp] theorem State.setEntry_miq (s : State) (e : Nat) (x : Entry) : (s.setEntry e x).miq = s.miq := rfl
@[simp] theorem State.setEntry_lan (s : State) (e : Nat) (x : Entry) : (s.setEntry e x).lan = s.lan := rfl
@[simp] theorem State.setEntry_scrub (s : State) (e : Nat) (x : Entry) : (s.setEntry e x).scrub = s.scrub := rfl
@[simp] theorem State.setEntry_accrued (s : State) (e : Nat) (x : Entry) : (s.setEntry e x).accrued = s.accrued := rfl
@[simp] theorem State.setEntry_ready (s : State) (e : Nat) (x : Entry) : (s.setEntry e x).ready = s.ready := rfl
@[simp] theorem State.setEntry_loads (s : State) (e : Nat) (x : Entry) : (s.setEntry e x).loads = s.loads := rfl
@[simp] theorem State.setEntry_word (s : State) (e : Nat) (x : Entry) (j : Nat) : (s.setEntry e x).word j = s.word j := rfl
@[simp] theorem State.setEntry_fld (s : State) (e : Nat) (x : Entry) (i : Fld) : (s.setEntry e x).fld i = s.fld i := rfl
@[simp] theorem State.setEntry_bit (s : State) (e : Nat) (x : Entry) (i : Fld) : (s.setEntry e x).bit i = s.bit i := rfl
@[simp] theorem State.setEntry_tenant (s : State) (e : Nat) (x : Entry) (j : Nat) : (s.setEntry e x).tenant j = s.tenant j := rfl
@[simp] theorem State.setEntry_geo (s : State) (e : Nat) (x : Entry) (j : Nat) : (s.setEntry e x).geo j = s.geo j := rfl
@[simp] theorem State.setEntry_port (s : State) (e : Nat) (x : Entry) (j : Nat) : (s.setEntry e x).port j = s.port j := rfl
@[simp] theorem State.setEntry_sdma (s : State) (e : Nat) (x : Entry) (j : Nat) : (s.setEntry e x).sdma j = s.sdma j := rfl

/-! setPort -/

@[simp] theorem State.setPort_pending (s : State) (p : Nat) (x : Port) : (s.setPort p x).pending = s.pending := rfl
@[simp] theorem State.setPort_tick (s : State) (p : Nat) (x : Port) : (s.setPort p x).tick = s.tick := rfl
@[simp] theorem State.setPort_regs (s : State) (p : Nat) (x : Port) : (s.setPort p x).regs = s.regs := rfl
@[simp] theorem State.setPort_tenants (s : State) (p : Nat) (x : Port) : (s.setPort p x).tenants = s.tenants := rfl
@[simp] theorem State.setPort_tb (s : State) (p : Nat) (x : Port) : (s.setPort p x).tb = s.tb := rfl
@[simp] theorem State.setPort_hbm (s : State) (p : Nat) (x : Port) : (s.setPort p x).hbm = s.hbm := rfl
@[simp] theorem State.setPort_gate (s : State) (p : Nat) (x : Port) : (s.setPort p x).gate = s.gate := rfl
@[simp] theorem State.setPort_bus (s : State) (p : Nat) (x : Port) : (s.setPort p x).bus = s.bus := rfl
@[simp] theorem State.setPort_previews (s : State) (p : Nat) (x : Port) : (s.setPort p x).previews = s.previews := rfl
@[simp] theorem State.setPort_secDma (s : State) (p : Nat) (x : Port) : (s.setPort p x).secDma = s.secDma := rfl
@[simp] theorem State.setPort_cmp (s : State) (p : Nat) (x : Port) : (s.setPort p x).cmp = s.cmp := rfl
@[simp] theorem State.setPort_push (s : State) (p : Nat) (x : Port) : (s.setPort p x).push = s.push := rfl
@[simp] theorem State.setPort_pushNext (s : State) (p : Nat) (x : Port) : (s.setPort p x).pushNext = s.pushNext := rfl
@[simp] theorem State.setPort_entries (s : State) (p : Nat) (x : Port) : (s.setPort p x).entries = s.entries := rfl
@[simp] theorem State.setPort_sinks (s : State) (p : Nat) (x : Port) : (s.setPort p x).sinks = s.sinks := rfl
@[simp] theorem State.setPort_nvs (s : State) (p : Nat) (x : Port) : (s.setPort p x).nvs = s.nvs := rfl
@[simp] theorem State.setPort_panel (s : State) (p : Nat) (x : Port) : (s.setPort p x).panel = s.panel := rfl
@[simp] theorem State.setPort_rtc (s : State) (p : Nat) (x : Port) : (s.setPort p x).rtc = s.rtc := rfl
@[simp] theorem State.setPort_fwu (s : State) (p : Nat) (x : Port) : (s.setPort p x).fwu = s.fwu := rfl
@[simp] theorem State.setPort_mt (s : State) (p : Nat) (x : Port) : (s.setPort p x).mt = s.mt := rfl
@[simp] theorem State.setPort_pio (s : State) (p : Nat) (x : Port) : (s.setPort p x).pio = s.pio := rfl
@[simp] theorem State.setPort_pins (s : State) (p : Nat) (x : Port) : (s.setPort p x).pins = s.pins := rfl
@[simp] theorem State.setPort_power (s : State) (p : Nat) (x : Port) : (s.setPort p x).power = s.power := rfl
@[simp] theorem State.setPort_cont (s : State) (p : Nat) (x : Port) : (s.setPort p x).cont = s.cont := rfl
@[simp] theorem State.setPort_ecc (s : State) (p : Nat) (x : Port) : (s.setPort p x).ecc = s.ecc := rfl
@[simp] theorem State.setPort_credits (s : State) (p : Nat) (x : Port) : (s.setPort p x).credits = s.credits := rfl
@[simp] theorem State.setPort_miq (s : State) (p : Nat) (x : Port) : (s.setPort p x).miq = s.miq := rfl
@[simp] theorem State.setPort_lan (s : State) (p : Nat) (x : Port) : (s.setPort p x).lan = s.lan := rfl
@[simp] theorem State.setPort_scrub (s : State) (p : Nat) (x : Port) : (s.setPort p x).scrub = s.scrub := rfl
@[simp] theorem State.setPort_accrued (s : State) (p : Nat) (x : Port) : (s.setPort p x).accrued = s.accrued := rfl
@[simp] theorem State.setPort_ready (s : State) (p : Nat) (x : Port) : (s.setPort p x).ready = s.ready := rfl
@[simp] theorem State.setPort_loads (s : State) (p : Nat) (x : Port) : (s.setPort p x).loads = s.loads := rfl
@[simp] theorem State.setPort_word (s : State) (p : Nat) (x : Port) (j : Nat) : (s.setPort p x).word j = s.word j := rfl
@[simp] theorem State.setPort_fld (s : State) (p : Nat) (x : Port) (i : Fld) : (s.setPort p x).fld i = s.fld i := rfl
@[simp] theorem State.setPort_bit (s : State) (p : Nat) (x : Port) (i : Fld) : (s.setPort p x).bit i = s.bit i := rfl
@[simp] theorem State.setPort_tenant (s : State) (p : Nat) (x : Port) (j : Nat) : (s.setPort p x).tenant j = s.tenant j := rfl
@[simp] theorem State.setPort_geo (s : State) (p : Nat) (x : Port) (j : Nat) : (s.setPort p x).geo j = s.geo j := rfl
@[simp] theorem State.setPort_entry (s : State) (p : Nat) (x : Port) (j : Nat) : (s.setPort p x).entry j = s.entry j := rfl
@[simp] theorem State.setPort_sdma (s : State) (p : Nat) (x : Port) (j : Nat) : (s.setPort p x).sdma j = s.sdma j := rfl

/-! settle -/

@[simp] theorem State.settle_pending (s : State) : (s.settle).pending = s.pending := rfl
@[simp] theorem State.settle_tick (s : State) : (s.settle).tick = s.tick := rfl
@[simp] theorem State.settle_regs (s : State) : (s.settle).regs = s.regs := rfl
@[simp] theorem State.settle_tenants (s : State) : (s.settle).tenants = s.tenants := rfl
@[simp] theorem State.settle_tb (s : State) : (s.settle).tb = s.tb := rfl
@[simp] theorem State.settle_hbm (s : State) : (s.settle).hbm = s.hbm := rfl
@[simp] theorem State.settle_gate (s : State) : (s.settle).gate = s.gate := rfl
@[simp] theorem State.settle_previews (s : State) : (s.settle).previews = s.previews := rfl
@[simp] theorem State.settle_secDma (s : State) : (s.settle).secDma = s.secDma := rfl
@[simp] theorem State.settle_cmp (s : State) : (s.settle).cmp = s.cmp := rfl
@[simp] theorem State.settle_push (s : State) : (s.settle).push = s.push := rfl
@[simp] theorem State.settle_pushNext (s : State) : (s.settle).pushNext = s.pushNext := rfl
@[simp] theorem State.settle_entries (s : State) : (s.settle).entries = s.entries := rfl
@[simp] theorem State.settle_ports (s : State) : (s.settle).ports = s.ports := rfl
@[simp] theorem State.settle_sinks (s : State) : (s.settle).sinks = s.sinks := rfl
@[simp] theorem State.settle_nvs (s : State) : (s.settle).nvs = s.nvs := rfl
@[simp] theorem State.settle_panel (s : State) : (s.settle).panel = s.panel := rfl
@[simp] theorem State.settle_rtc (s : State) : (s.settle).rtc = s.rtc := rfl
@[simp] theorem State.settle_fwu (s : State) : (s.settle).fwu = s.fwu := rfl
@[simp] theorem State.settle_mt (s : State) : (s.settle).mt = s.mt := rfl
@[simp] theorem State.settle_pio (s : State) : (s.settle).pio = s.pio := rfl
@[simp] theorem State.settle_pins (s : State) : (s.settle).pins = s.pins := rfl
@[simp] theorem State.settle_power (s : State) : (s.settle).power = s.power := rfl
@[simp] theorem State.settle_cont (s : State) : (s.settle).cont = s.cont := rfl
@[simp] theorem State.settle_ecc (s : State) : (s.settle).ecc = s.ecc := rfl
@[simp] theorem State.settle_credits (s : State) : (s.settle).credits = s.credits := rfl
@[simp] theorem State.settle_lan (s : State) : (s.settle).lan = s.lan := rfl
@[simp] theorem State.settle_scrub (s : State) : (s.settle).scrub = s.scrub := rfl
@[simp] theorem State.settle_accrued (s : State) : (s.settle).accrued = s.accrued := rfl
@[simp] theorem State.settle_ready (s : State) : (s.settle).ready = s.ready := rfl
@[simp] theorem State.settle_loads (s : State) : (s.settle).loads = s.loads := rfl
@[simp] theorem State.settle_word (s : State) (j : Nat) : (s.settle).word j = s.word j := rfl
@[simp] theorem State.settle_fld (s : State) (i : Fld) : (s.settle).fld i = s.fld i := rfl
@[simp] theorem State.settle_bit (s : State) (i : Fld) : (s.settle).bit i = s.bit i := rfl
@[simp] theorem State.settle_tenant (s : State) (j : Nat) : (s.settle).tenant j = s.tenant j := rfl
@[simp] theorem State.settle_geo (s : State) (j : Nat) : (s.settle).geo j = s.geo j := rfl
@[simp] theorem State.settle_entry (s : State) (j : Nat) : (s.settle).entry j = s.entry j := rfl
@[simp] theorem State.settle_port (s : State) (j : Nat) : (s.settle).port j = s.port j := rfl
@[simp] theorem State.settle_sdma (s : State) (j : Nat) : (s.settle).sdma j = s.sdma j := rfl

/-! toHost -/

@[simp] theorem State.toHost_pending (s : State) (h : HostId) (m : HostMsg) : (s.toHost h m).pending = s.pending := by
  obtain ⟨_, _, _, e, _⟩ := s.toHost_sent h m; rw [e]
@[simp] theorem State.toHost_tick (s : State) (h : HostId) (m : HostMsg) : (s.toHost h m).tick = s.tick := by
  obtain ⟨_, _, _, e, _⟩ := s.toHost_sent h m; rw [e]
@[simp] theorem State.toHost_tenants (s : State) (h : HostId) (m : HostMsg) : (s.toHost h m).tenants = s.tenants := by
  obtain ⟨_, _, _, e, _⟩ := s.toHost_sent h m; rw [e]
@[simp] theorem State.toHost_tb (s : State) (h : HostId) (m : HostMsg) : (s.toHost h m).tb = s.tb := by
  obtain ⟨_, _, _, e, _⟩ := s.toHost_sent h m; rw [e]
@[simp] theorem State.toHost_hbm (s : State) (h : HostId) (m : HostMsg) : (s.toHost h m).hbm = s.hbm := by
  obtain ⟨_, _, _, e, _⟩ := s.toHost_sent h m; rw [e]
@[simp] theorem State.toHost_bus (s : State) (h : HostId) (m : HostMsg) : (s.toHost h m).bus = s.bus := by
  obtain ⟨_, _, _, e, _⟩ := s.toHost_sent h m; rw [e]
@[simp] theorem State.toHost_previews (s : State) (h : HostId) (m : HostMsg) : (s.toHost h m).previews = s.previews := by
  obtain ⟨_, _, _, e, _⟩ := s.toHost_sent h m; rw [e]
@[simp] theorem State.toHost_secDma (s : State) (h : HostId) (m : HostMsg) : (s.toHost h m).secDma = s.secDma := by
  obtain ⟨_, _, _, e, _⟩ := s.toHost_sent h m; rw [e]
@[simp] theorem State.toHost_cmp (s : State) (h : HostId) (m : HostMsg) : (s.toHost h m).cmp = s.cmp := by
  obtain ⟨_, _, _, e, _⟩ := s.toHost_sent h m; rw [e]
@[simp] theorem State.toHost_push (s : State) (h : HostId) (m : HostMsg) : (s.toHost h m).push = s.push := by
  obtain ⟨_, _, _, e, _⟩ := s.toHost_sent h m; rw [e]
@[simp] theorem State.toHost_pushNext (s : State) (h : HostId) (m : HostMsg) : (s.toHost h m).pushNext = s.pushNext := by
  obtain ⟨_, _, _, e, _⟩ := s.toHost_sent h m; rw [e]
@[simp] theorem State.toHost_entries (s : State) (h : HostId) (m : HostMsg) : (s.toHost h m).entries = s.entries := by
  obtain ⟨_, _, _, e, _⟩ := s.toHost_sent h m; rw [e]
@[simp] theorem State.toHost_ports (s : State) (h : HostId) (m : HostMsg) : (s.toHost h m).ports = s.ports := by
  obtain ⟨_, _, _, e, _⟩ := s.toHost_sent h m; rw [e]
@[simp] theorem State.toHost_sinks (s : State) (h : HostId) (m : HostMsg) : (s.toHost h m).sinks = s.sinks := by
  obtain ⟨_, _, _, e, _⟩ := s.toHost_sent h m; rw [e]
@[simp] theorem State.toHost_panel (s : State) (h : HostId) (m : HostMsg) : (s.toHost h m).panel = s.panel := by
  obtain ⟨_, _, _, e, _⟩ := s.toHost_sent h m; rw [e]
@[simp] theorem State.toHost_rtc (s : State) (h : HostId) (m : HostMsg) : (s.toHost h m).rtc = s.rtc := by
  obtain ⟨_, _, _, e, _⟩ := s.toHost_sent h m; rw [e]
@[simp] theorem State.toHost_fwu (s : State) (h : HostId) (m : HostMsg) : (s.toHost h m).fwu = s.fwu := by
  obtain ⟨_, _, _, e, _⟩ := s.toHost_sent h m; rw [e]
@[simp] theorem State.toHost_mt (s : State) (h : HostId) (m : HostMsg) : (s.toHost h m).mt = s.mt := by
  obtain ⟨_, _, _, e, _⟩ := s.toHost_sent h m; rw [e]
@[simp] theorem State.toHost_pio (s : State) (h : HostId) (m : HostMsg) : (s.toHost h m).pio = s.pio := by
  obtain ⟨_, _, _, e, _⟩ := s.toHost_sent h m; rw [e]
@[simp] theorem State.toHost_pins (s : State) (h : HostId) (m : HostMsg) : (s.toHost h m).pins = s.pins := by
  obtain ⟨_, _, _, e, _⟩ := s.toHost_sent h m; rw [e]
@[simp] theorem State.toHost_power (s : State) (h : HostId) (m : HostMsg) : (s.toHost h m).power = s.power := by
  obtain ⟨_, _, _, e, _⟩ := s.toHost_sent h m; rw [e]
@[simp] theorem State.toHost_cont (s : State) (h : HostId) (m : HostMsg) : (s.toHost h m).cont = s.cont := by
  obtain ⟨_, _, _, e, _⟩ := s.toHost_sent h m; rw [e]
@[simp] theorem State.toHost_ecc (s : State) (h : HostId) (m : HostMsg) : (s.toHost h m).ecc = s.ecc := by
  obtain ⟨_, _, _, e, _⟩ := s.toHost_sent h m; rw [e]
@[simp] theorem State.toHost_credits (s : State) (h : HostId) (m : HostMsg) : (s.toHost h m).credits = s.credits := by
  obtain ⟨_, _, _, e, _⟩ := s.toHost_sent h m; rw [e]
@[simp] theorem State.toHost_miq (s : State) (h : HostId) (m : HostMsg) : (s.toHost h m).miq = s.miq := by
  obtain ⟨_, _, _, e, _⟩ := s.toHost_sent h m; rw [e]
@[simp] theorem State.toHost_lan (s : State) (h : HostId) (m : HostMsg) : (s.toHost h m).lan = s.lan := by
  obtain ⟨_, _, _, e, _⟩ := s.toHost_sent h m; rw [e]
@[simp] theorem State.toHost_scrub (s : State) (h : HostId) (m : HostMsg) : (s.toHost h m).scrub = s.scrub := by
  obtain ⟨_, _, _, e, _⟩ := s.toHost_sent h m; rw [e]
@[simp] theorem State.toHost_accrued (s : State) (h : HostId) (m : HostMsg) : (s.toHost h m).accrued = s.accrued := by
  obtain ⟨_, _, _, e, _⟩ := s.toHost_sent h m; rw [e]
@[simp] theorem State.toHost_ready (s : State) (h : HostId) (m : HostMsg) : (s.toHost h m).ready = s.ready := by
  obtain ⟨_, _, _, e, _⟩ := s.toHost_sent h m; rw [e]
@[simp] theorem State.toHost_loads (s : State) (h : HostId) (m : HostMsg) : (s.toHost h m).loads = s.loads := by
  obtain ⟨_, _, _, e, _⟩ := s.toHost_sent h m; rw [e]
@[simp] theorem State.toHost_tenant (s : State) (h : HostId) (m : HostMsg) (j : Nat) : (s.toHost h m).tenant j = s.tenant j := by
  obtain ⟨_, _, _, e, _⟩ := s.toHost_sent h m; rw [e]; rfl
@[simp] theorem State.toHost_geo (s : State) (h : HostId) (m : HostMsg) (j : Nat) : (s.toHost h m).geo j = s.geo j := by
  obtain ⟨_, _, _, e, _⟩ := s.toHost_sent h m; rw [e]; rfl
@[simp] theorem State.toHost_entry (s : State) (h : HostId) (m : HostMsg) (j : Nat) : (s.toHost h m).entry j = s.entry j := by
  obtain ⟨_, _, _, e, _⟩ := s.toHost_sent h m; rw [e]; rfl
@[simp] theorem State.toHost_port (s : State) (h : HostId) (m : HostMsg) (j : Nat) : (s.toHost h m).port j = s.port j := by
  obtain ⟨_, _, _, e, _⟩ := s.toHost_sent h m; rw [e]; rfl
@[simp] theorem State.toHost_sdma (s : State) (h : HostId) (m : HostMsg) (j : Nat) : (s.toHost h m).sdma j = s.sdma j := by
  obtain ⟨_, _, _, e, _⟩ := s.toHost_sent h m; rw [e]; rfl

/-! toHosts -/

@[simp] theorem State.toHosts_pending (s : State) (m : HostMsg) : (s.toHosts m).pending = s.pending := by
  obtain ⟨_, _, _, e, _⟩ := s.toHosts_sent m; rw [e]
@[simp] theorem State.toHosts_tick (s : State) (m : HostMsg) : (s.toHosts m).tick = s.tick := by
  obtain ⟨_, _, _, e, _⟩ := s.toHosts_sent m; rw [e]
@[simp] theorem State.toHosts_tenants (s : State) (m : HostMsg) : (s.toHosts m).tenants = s.tenants := by
  obtain ⟨_, _, _, e, _⟩ := s.toHosts_sent m; rw [e]
@[simp] theorem State.toHosts_tb (s : State) (m : HostMsg) : (s.toHosts m).tb = s.tb := by
  obtain ⟨_, _, _, e, _⟩ := s.toHosts_sent m; rw [e]
@[simp] theorem State.toHosts_hbm (s : State) (m : HostMsg) : (s.toHosts m).hbm = s.hbm := by
  obtain ⟨_, _, _, e, _⟩ := s.toHosts_sent m; rw [e]
@[simp] theorem State.toHosts_bus (s : State) (m : HostMsg) : (s.toHosts m).bus = s.bus := by
  obtain ⟨_, _, _, e, _⟩ := s.toHosts_sent m; rw [e]
@[simp] theorem State.toHosts_previews (s : State) (m : HostMsg) : (s.toHosts m).previews = s.previews := by
  obtain ⟨_, _, _, e, _⟩ := s.toHosts_sent m; rw [e]
@[simp] theorem State.toHosts_secDma (s : State) (m : HostMsg) : (s.toHosts m).secDma = s.secDma := by
  obtain ⟨_, _, _, e, _⟩ := s.toHosts_sent m; rw [e]
@[simp] theorem State.toHosts_cmp (s : State) (m : HostMsg) : (s.toHosts m).cmp = s.cmp := by
  obtain ⟨_, _, _, e, _⟩ := s.toHosts_sent m; rw [e]
@[simp] theorem State.toHosts_push (s : State) (m : HostMsg) : (s.toHosts m).push = s.push := by
  obtain ⟨_, _, _, e, _⟩ := s.toHosts_sent m; rw [e]
@[simp] theorem State.toHosts_pushNext (s : State) (m : HostMsg) : (s.toHosts m).pushNext = s.pushNext := by
  obtain ⟨_, _, _, e, _⟩ := s.toHosts_sent m; rw [e]
@[simp] theorem State.toHosts_entries (s : State) (m : HostMsg) : (s.toHosts m).entries = s.entries := by
  obtain ⟨_, _, _, e, _⟩ := s.toHosts_sent m; rw [e]
@[simp] theorem State.toHosts_ports (s : State) (m : HostMsg) : (s.toHosts m).ports = s.ports := by
  obtain ⟨_, _, _, e, _⟩ := s.toHosts_sent m; rw [e]
@[simp] theorem State.toHosts_sinks (s : State) (m : HostMsg) : (s.toHosts m).sinks = s.sinks := by
  obtain ⟨_, _, _, e, _⟩ := s.toHosts_sent m; rw [e]
@[simp] theorem State.toHosts_panel (s : State) (m : HostMsg) : (s.toHosts m).panel = s.panel := by
  obtain ⟨_, _, _, e, _⟩ := s.toHosts_sent m; rw [e]
@[simp] theorem State.toHosts_rtc (s : State) (m : HostMsg) : (s.toHosts m).rtc = s.rtc := by
  obtain ⟨_, _, _, e, _⟩ := s.toHosts_sent m; rw [e]
@[simp] theorem State.toHosts_fwu (s : State) (m : HostMsg) : (s.toHosts m).fwu = s.fwu := by
  obtain ⟨_, _, _, e, _⟩ := s.toHosts_sent m; rw [e]
@[simp] theorem State.toHosts_mt (s : State) (m : HostMsg) : (s.toHosts m).mt = s.mt := by
  obtain ⟨_, _, _, e, _⟩ := s.toHosts_sent m; rw [e]
@[simp] theorem State.toHosts_pio (s : State) (m : HostMsg) : (s.toHosts m).pio = s.pio := by
  obtain ⟨_, _, _, e, _⟩ := s.toHosts_sent m; rw [e]
@[simp] theorem State.toHosts_pins (s : State) (m : HostMsg) : (s.toHosts m).pins = s.pins := by
  obtain ⟨_, _, _, e, _⟩ := s.toHosts_sent m; rw [e]
@[simp] theorem State.toHosts_power (s : State) (m : HostMsg) : (s.toHosts m).power = s.power := by
  obtain ⟨_, _, _, e, _⟩ := s.toHosts_sent m; rw [e]
@[simp] theorem State.toHosts_cont (s : State) (m : HostMsg) : (s.toHosts m).cont = s.cont := by
  obtain ⟨_, _, _, e, _⟩ := s.toHosts_sent m; rw [e]
@[simp] theorem State.toHosts_ecc (s : State) (m : HostMsg) : (s.toHosts m).ecc = s.ecc := by
  obtain ⟨_, _, _, e, _⟩ := s.toHosts_sent m; rw [e]
@[simp] theorem State.toHosts_credits (s : State) (m : HostMsg) : (s.toHosts m).credits = s.credits := by
  obtain ⟨_, _, _, e, _⟩ := s.toHosts_sent m; rw [e]
@[simp] theorem State.toHosts_miq (s : State) (m : HostMsg) : (s.toHosts m).miq = s.miq := by
  obtain ⟨_, _, _, e, _⟩ := s.toHosts_sent m; rw [e]
@[simp] theorem State.toHosts_lan (s : State) (m : HostMsg) : (s.toHosts m).lan = s.lan := by
  obtain ⟨_, _, _, e, _⟩ := s.toHosts_sent m; rw [e]
@[simp] theorem State.toHosts_scrub (s : State) (m : HostMsg) : (s.toHosts m).scrub = s.scrub := by
  obtain ⟨_, _, _, e, _⟩ := s.toHosts_sent m; rw [e]
@[simp] theorem State.toHosts_accrued (s : State) (m : HostMsg) : (s.toHosts m).accrued = s.accrued := by
  obtain ⟨_, _, _, e, _⟩ := s.toHosts_sent m; rw [e]
@[simp] theorem State.toHosts_ready (s : State) (m : HostMsg) : (s.toHosts m).ready = s.ready := by
  obtain ⟨_, _, _, e, _⟩ := s.toHosts_sent m; rw [e]
@[simp] theorem State.toHosts_loads (s : State) (m : HostMsg) : (s.toHosts m).loads = s.loads := by
  obtain ⟨_, _, _, e, _⟩ := s.toHosts_sent m; rw [e]
@[simp] theorem State.toHosts_tenant (s : State) (m : HostMsg) (j : Nat) : (s.toHosts m).tenant j = s.tenant j := by
  obtain ⟨_, _, _, e, _⟩ := s.toHosts_sent m; rw [e]; rfl
@[simp] theorem State.toHosts_geo (s : State) (m : HostMsg) (j : Nat) : (s.toHosts m).geo j = s.geo j := by
  obtain ⟨_, _, _, e, _⟩ := s.toHosts_sent m; rw [e]; rfl
@[simp] theorem State.toHosts_entry (s : State) (m : HostMsg) (j : Nat) : (s.toHosts m).entry j = s.entry j := by
  obtain ⟨_, _, _, e, _⟩ := s.toHosts_sent m; rw [e]; rfl
@[simp] theorem State.toHosts_port (s : State) (m : HostMsg) (j : Nat) : (s.toHosts m).port j = s.port j := by
  obtain ⟨_, _, _, e, _⟩ := s.toHosts_sent m; rw [e]; rfl
@[simp] theorem State.toHosts_sdma (s : State) (m : HostMsg) (j : Nat) : (s.toHosts m).sdma j = s.sdma j := by
  obtain ⟨_, _, _, e, _⟩ := s.toHosts_sent m; rw [e]; rfl

/-! sendEvent -/

@[simp] theorem State.sendEvent_pending (s : State) (m : HostMsg) : (s.sendEvent m).pending = s.pending := by
  obtain ⟨_, _, _, e, _⟩ := s.sendEvent_sent m; rw [e]
@[simp] theorem State.sendEvent_tick (s : State) (m : HostMsg) : (s.sendEvent m).tick = s.tick := by
  obtain ⟨_, _, _, e, _⟩ := s.sendEvent_sent m; rw [e]
@[simp] theorem State.sendEvent_tenants (s : State) (m : HostMsg) : (s.sendEvent m).tenants = s.tenants := by
  obtain ⟨_, _, _, e, _⟩ := s.sendEvent_sent m; rw [e]
@[simp] theorem State.sendEvent_tb (s : State) (m : HostMsg) : (s.sendEvent m).tb = s.tb := by
  obtain ⟨_, _, _, e, _⟩ := s.sendEvent_sent m; rw [e]
@[simp] theorem State.sendEvent_hbm (s : State) (m : HostMsg) : (s.sendEvent m).hbm = s.hbm := by
  obtain ⟨_, _, _, e, _⟩ := s.sendEvent_sent m; rw [e]
@[simp] theorem State.sendEvent_bus (s : State) (m : HostMsg) : (s.sendEvent m).bus = s.bus := by
  obtain ⟨_, _, _, e, _⟩ := s.sendEvent_sent m; rw [e]
@[simp] theorem State.sendEvent_previews (s : State) (m : HostMsg) : (s.sendEvent m).previews = s.previews := by
  obtain ⟨_, _, _, e, _⟩ := s.sendEvent_sent m; rw [e]
@[simp] theorem State.sendEvent_secDma (s : State) (m : HostMsg) : (s.sendEvent m).secDma = s.secDma := by
  obtain ⟨_, _, _, e, _⟩ := s.sendEvent_sent m; rw [e]
@[simp] theorem State.sendEvent_cmp (s : State) (m : HostMsg) : (s.sendEvent m).cmp = s.cmp := by
  obtain ⟨_, _, _, e, _⟩ := s.sendEvent_sent m; rw [e]
@[simp] theorem State.sendEvent_push (s : State) (m : HostMsg) : (s.sendEvent m).push = s.push := by
  obtain ⟨_, _, _, e, _⟩ := s.sendEvent_sent m; rw [e]
@[simp] theorem State.sendEvent_pushNext (s : State) (m : HostMsg) : (s.sendEvent m).pushNext = s.pushNext := by
  obtain ⟨_, _, _, e, _⟩ := s.sendEvent_sent m; rw [e]
@[simp] theorem State.sendEvent_entries (s : State) (m : HostMsg) : (s.sendEvent m).entries = s.entries := by
  obtain ⟨_, _, _, e, _⟩ := s.sendEvent_sent m; rw [e]
@[simp] theorem State.sendEvent_ports (s : State) (m : HostMsg) : (s.sendEvent m).ports = s.ports := by
  obtain ⟨_, _, _, e, _⟩ := s.sendEvent_sent m; rw [e]
@[simp] theorem State.sendEvent_sinks (s : State) (m : HostMsg) : (s.sendEvent m).sinks = s.sinks := by
  obtain ⟨_, _, _, e, _⟩ := s.sendEvent_sent m; rw [e]
@[simp] theorem State.sendEvent_panel (s : State) (m : HostMsg) : (s.sendEvent m).panel = s.panel := by
  obtain ⟨_, _, _, e, _⟩ := s.sendEvent_sent m; rw [e]
@[simp] theorem State.sendEvent_rtc (s : State) (m : HostMsg) : (s.sendEvent m).rtc = s.rtc := by
  obtain ⟨_, _, _, e, _⟩ := s.sendEvent_sent m; rw [e]
@[simp] theorem State.sendEvent_fwu (s : State) (m : HostMsg) : (s.sendEvent m).fwu = s.fwu := by
  obtain ⟨_, _, _, e, _⟩ := s.sendEvent_sent m; rw [e]
@[simp] theorem State.sendEvent_mt (s : State) (m : HostMsg) : (s.sendEvent m).mt = s.mt := by
  obtain ⟨_, _, _, e, _⟩ := s.sendEvent_sent m; rw [e]
@[simp] theorem State.sendEvent_pio (s : State) (m : HostMsg) : (s.sendEvent m).pio = s.pio := by
  obtain ⟨_, _, _, e, _⟩ := s.sendEvent_sent m; rw [e]
@[simp] theorem State.sendEvent_pins (s : State) (m : HostMsg) : (s.sendEvent m).pins = s.pins := by
  obtain ⟨_, _, _, e, _⟩ := s.sendEvent_sent m; rw [e]
@[simp] theorem State.sendEvent_power (s : State) (m : HostMsg) : (s.sendEvent m).power = s.power := by
  obtain ⟨_, _, _, e, _⟩ := s.sendEvent_sent m; rw [e]
@[simp] theorem State.sendEvent_cont (s : State) (m : HostMsg) : (s.sendEvent m).cont = s.cont := by
  obtain ⟨_, _, _, e, _⟩ := s.sendEvent_sent m; rw [e]
@[simp] theorem State.sendEvent_ecc (s : State) (m : HostMsg) : (s.sendEvent m).ecc = s.ecc := by
  obtain ⟨_, _, _, e, _⟩ := s.sendEvent_sent m; rw [e]
@[simp] theorem State.sendEvent_credits (s : State) (m : HostMsg) : (s.sendEvent m).credits = s.credits := by
  obtain ⟨_, _, _, e, _⟩ := s.sendEvent_sent m; rw [e]
@[simp] theorem State.sendEvent_miq (s : State) (m : HostMsg) : (s.sendEvent m).miq = s.miq := by
  obtain ⟨_, _, _, e, _⟩ := s.sendEvent_sent m; rw [e]
@[simp] theorem State.sendEvent_lan (s : State) (m : HostMsg) : (s.sendEvent m).lan = s.lan := by
  obtain ⟨_, _, _, e, _⟩ := s.sendEvent_sent m; rw [e]
@[simp] theorem State.sendEvent_scrub (s : State) (m : HostMsg) : (s.sendEvent m).scrub = s.scrub := by
  obtain ⟨_, _, _, e, _⟩ := s.sendEvent_sent m; rw [e]
@[simp] theorem State.sendEvent_accrued (s : State) (m : HostMsg) : (s.sendEvent m).accrued = s.accrued := by
  obtain ⟨_, _, _, e, _⟩ := s.sendEvent_sent m; rw [e]
@[simp] theorem State.sendEvent_ready (s : State) (m : HostMsg) : (s.sendEvent m).ready = s.ready := by
  obtain ⟨_, _, _, e, _⟩ := s.sendEvent_sent m; rw [e]
@[simp] theorem State.sendEvent_loads (s : State) (m : HostMsg) : (s.sendEvent m).loads = s.loads := by
  obtain ⟨_, _, _, e, _⟩ := s.sendEvent_sent m; rw [e]
@[simp] theorem State.sendEvent_tenant (s : State) (m : HostMsg) (j : Nat) : (s.sendEvent m).tenant j = s.tenant j := by
  obtain ⟨_, _, _, e, _⟩ := s.sendEvent_sent m; rw [e]; rfl
@[simp] theorem State.sendEvent_geo (s : State) (m : HostMsg) (j : Nat) : (s.sendEvent m).geo j = s.geo j := by
  obtain ⟨_, _, _, e, _⟩ := s.sendEvent_sent m; rw [e]; rfl
@[simp] theorem State.sendEvent_entry (s : State) (m : HostMsg) (j : Nat) : (s.sendEvent m).entry j = s.entry j := by
  obtain ⟨_, _, _, e, _⟩ := s.sendEvent_sent m; rw [e]; rfl
@[simp] theorem State.sendEvent_port (s : State) (m : HostMsg) (j : Nat) : (s.sendEvent m).port j = s.port j := by
  obtain ⟨_, _, _, e, _⟩ := s.sendEvent_sent m; rw [e]; rfl
@[simp] theorem State.sendEvent_sdma (s : State) (m : HostMsg) (j : Nat) : (s.sendEvent m).sdma j = s.sdma j := by
  obtain ⟨_, _, _, e, _⟩ := s.sendEvent_sent m; rw [e]; rfl

/-! notify -/

@[simp] theorem State.notify_pending (s : State) (c : Nat) (l : List (Nat × Nat)) : (s.notify c l).pending = s.pending := by
  obtain ⟨_, _, _, e, _⟩ := s.notify_sent c l; rw [e]
@[simp] theorem State.notify_tick (s : State) (c : Nat) (l : List (Nat × Nat)) : (s.notify c l).tick = s.tick := by
  obtain ⟨_, _, _, e, _⟩ := s.notify_sent c l; rw [e]
@[simp] theorem State.notify_tenants (s : State) (c : Nat) (l : List (Nat × Nat)) : (s.notify c l).tenants = s.tenants := by
  obtain ⟨_, _, _, e, _⟩ := s.notify_sent c l; rw [e]
@[simp] theorem State.notify_tb (s : State) (c : Nat) (l : List (Nat × Nat)) : (s.notify c l).tb = s.tb := by
  obtain ⟨_, _, _, e, _⟩ := s.notify_sent c l; rw [e]
@[simp] theorem State.notify_hbm (s : State) (c : Nat) (l : List (Nat × Nat)) : (s.notify c l).hbm = s.hbm := by
  obtain ⟨_, _, _, e, _⟩ := s.notify_sent c l; rw [e]
@[simp] theorem State.notify_bus (s : State) (c : Nat) (l : List (Nat × Nat)) : (s.notify c l).bus = s.bus := by
  obtain ⟨_, _, _, e, _⟩ := s.notify_sent c l; rw [e]
@[simp] theorem State.notify_previews (s : State) (c : Nat) (l : List (Nat × Nat)) : (s.notify c l).previews = s.previews := by
  obtain ⟨_, _, _, e, _⟩ := s.notify_sent c l; rw [e]
@[simp] theorem State.notify_secDma (s : State) (c : Nat) (l : List (Nat × Nat)) : (s.notify c l).secDma = s.secDma := by
  obtain ⟨_, _, _, e, _⟩ := s.notify_sent c l; rw [e]
@[simp] theorem State.notify_cmp (s : State) (c : Nat) (l : List (Nat × Nat)) : (s.notify c l).cmp = s.cmp := by
  obtain ⟨_, _, _, e, _⟩ := s.notify_sent c l; rw [e]
@[simp] theorem State.notify_push (s : State) (c : Nat) (l : List (Nat × Nat)) : (s.notify c l).push = s.push := by
  obtain ⟨_, _, _, e, _⟩ := s.notify_sent c l; rw [e]
@[simp] theorem State.notify_pushNext (s : State) (c : Nat) (l : List (Nat × Nat)) : (s.notify c l).pushNext = s.pushNext := by
  obtain ⟨_, _, _, e, _⟩ := s.notify_sent c l; rw [e]
@[simp] theorem State.notify_entries (s : State) (c : Nat) (l : List (Nat × Nat)) : (s.notify c l).entries = s.entries := by
  obtain ⟨_, _, _, e, _⟩ := s.notify_sent c l; rw [e]
@[simp] theorem State.notify_ports (s : State) (c : Nat) (l : List (Nat × Nat)) : (s.notify c l).ports = s.ports := by
  obtain ⟨_, _, _, e, _⟩ := s.notify_sent c l; rw [e]
@[simp] theorem State.notify_sinks (s : State) (c : Nat) (l : List (Nat × Nat)) : (s.notify c l).sinks = s.sinks := by
  obtain ⟨_, _, _, e, _⟩ := s.notify_sent c l; rw [e]
@[simp] theorem State.notify_panel (s : State) (c : Nat) (l : List (Nat × Nat)) : (s.notify c l).panel = s.panel := by
  obtain ⟨_, _, _, e, _⟩ := s.notify_sent c l; rw [e]
@[simp] theorem State.notify_rtc (s : State) (c : Nat) (l : List (Nat × Nat)) : (s.notify c l).rtc = s.rtc := by
  obtain ⟨_, _, _, e, _⟩ := s.notify_sent c l; rw [e]
@[simp] theorem State.notify_fwu (s : State) (c : Nat) (l : List (Nat × Nat)) : (s.notify c l).fwu = s.fwu := by
  obtain ⟨_, _, _, e, _⟩ := s.notify_sent c l; rw [e]
@[simp] theorem State.notify_mt (s : State) (c : Nat) (l : List (Nat × Nat)) : (s.notify c l).mt = s.mt := by
  obtain ⟨_, _, _, e, _⟩ := s.notify_sent c l; rw [e]
@[simp] theorem State.notify_pio (s : State) (c : Nat) (l : List (Nat × Nat)) : (s.notify c l).pio = s.pio := by
  obtain ⟨_, _, _, e, _⟩ := s.notify_sent c l; rw [e]
@[simp] theorem State.notify_pins (s : State) (c : Nat) (l : List (Nat × Nat)) : (s.notify c l).pins = s.pins := by
  obtain ⟨_, _, _, e, _⟩ := s.notify_sent c l; rw [e]
@[simp] theorem State.notify_power (s : State) (c : Nat) (l : List (Nat × Nat)) : (s.notify c l).power = s.power := by
  obtain ⟨_, _, _, e, _⟩ := s.notify_sent c l; rw [e]
@[simp] theorem State.notify_cont (s : State) (c : Nat) (l : List (Nat × Nat)) : (s.notify c l).cont = s.cont := by
  obtain ⟨_, _, _, e, _⟩ := s.notify_sent c l; rw [e]
@[simp] theorem State.notify_ecc (s : State) (c : Nat) (l : List (Nat × Nat)) : (s.notify c l).ecc = s.ecc := by
  obtain ⟨_, _, _, e, _⟩ := s.notify_sent c l; rw [e]
@[simp] theorem State.notify_credits (s : State) (c : Nat) (l : List (Nat × Nat)) : (s.notify c l).credits = s.credits := by
  obtain ⟨_, _, _, e, _⟩ := s.notify_sent c l; rw [e]
@[simp] theorem State.notify_miq (s : State) (c : Nat) (l : List (Nat × Nat)) : (s.notify c l).miq = s.miq := by
  obtain ⟨_, _, _, e, _⟩ := s.notify_sent c l; rw [e]
@[simp] theorem State.notify_lan (s : State) (c : Nat) (l : List (Nat × Nat)) : (s.notify c l).lan = s.lan := by
  obtain ⟨_, _, _, e, _⟩ := s.notify_sent c l; rw [e]
@[simp] theorem State.notify_scrub (s : State) (c : Nat) (l : List (Nat × Nat)) : (s.notify c l).scrub = s.scrub := by
  obtain ⟨_, _, _, e, _⟩ := s.notify_sent c l; rw [e]
@[simp] theorem State.notify_accrued (s : State) (c : Nat) (l : List (Nat × Nat)) : (s.notify c l).accrued = s.accrued := by
  obtain ⟨_, _, _, e, _⟩ := s.notify_sent c l; rw [e]
@[simp] theorem State.notify_ready (s : State) (c : Nat) (l : List (Nat × Nat)) : (s.notify c l).ready = s.ready := by
  obtain ⟨_, _, _, e, _⟩ := s.notify_sent c l; rw [e]
@[simp] theorem State.notify_loads (s : State) (c : Nat) (l : List (Nat × Nat)) : (s.notify c l).loads = s.loads := by
  obtain ⟨_, _, _, e, _⟩ := s.notify_sent c l; rw [e]
@[simp] theorem State.notify_tenant (s : State) (c : Nat) (l : List (Nat × Nat)) (j : Nat) : (s.notify c l).tenant j = s.tenant j := by
  obtain ⟨_, _, _, e, _⟩ := s.notify_sent c l; rw [e]; rfl
@[simp] theorem State.notify_geo (s : State) (c : Nat) (l : List (Nat × Nat)) (j : Nat) : (s.notify c l).geo j = s.geo j := by
  obtain ⟨_, _, _, e, _⟩ := s.notify_sent c l; rw [e]; rfl
@[simp] theorem State.notify_entry (s : State) (c : Nat) (l : List (Nat × Nat)) (j : Nat) : (s.notify c l).entry j = s.entry j := by
  obtain ⟨_, _, _, e, _⟩ := s.notify_sent c l; rw [e]; rfl
@[simp] theorem State.notify_port (s : State) (c : Nat) (l : List (Nat × Nat)) (j : Nat) : (s.notify c l).port j = s.port j := by
  obtain ⟨_, _, _, e, _⟩ := s.notify_sent c l; rw [e]; rfl
@[simp] theorem State.notify_sdma (s : State) (c : Nat) (l : List (Nat × Nat)) (j : Nat) : (s.notify c l).sdma j = s.sdma j := by
  obtain ⟨_, _, _, e, _⟩ := s.notify_sent c l; rw [e]; rfl

/-! tell -/

@[simp] theorem State.tell_pending (s : State) (c n : Nat) : (s.tell c n).pending = s.pending := by
  obtain ⟨_, _, _, e, _⟩ := s.tell_sent c n; rw [e]
@[simp] theorem State.tell_tick (s : State) (c n : Nat) : (s.tell c n).tick = s.tick := by
  obtain ⟨_, _, _, e, _⟩ := s.tell_sent c n; rw [e]
@[simp] theorem State.tell_tenants (s : State) (c n : Nat) : (s.tell c n).tenants = s.tenants := by
  obtain ⟨_, _, _, e, _⟩ := s.tell_sent c n; rw [e]
@[simp] theorem State.tell_tb (s : State) (c n : Nat) : (s.tell c n).tb = s.tb := by
  obtain ⟨_, _, _, e, _⟩ := s.tell_sent c n; rw [e]
@[simp] theorem State.tell_hbm (s : State) (c n : Nat) : (s.tell c n).hbm = s.hbm := by
  obtain ⟨_, _, _, e, _⟩ := s.tell_sent c n; rw [e]
@[simp] theorem State.tell_bus (s : State) (c n : Nat) : (s.tell c n).bus = s.bus := by
  obtain ⟨_, _, _, e, _⟩ := s.tell_sent c n; rw [e]
@[simp] theorem State.tell_previews (s : State) (c n : Nat) : (s.tell c n).previews = s.previews := by
  obtain ⟨_, _, _, e, _⟩ := s.tell_sent c n; rw [e]
@[simp] theorem State.tell_secDma (s : State) (c n : Nat) : (s.tell c n).secDma = s.secDma := by
  obtain ⟨_, _, _, e, _⟩ := s.tell_sent c n; rw [e]
@[simp] theorem State.tell_cmp (s : State) (c n : Nat) : (s.tell c n).cmp = s.cmp := by
  obtain ⟨_, _, _, e, _⟩ := s.tell_sent c n; rw [e]
@[simp] theorem State.tell_push (s : State) (c n : Nat) : (s.tell c n).push = s.push := by
  obtain ⟨_, _, _, e, _⟩ := s.tell_sent c n; rw [e]
@[simp] theorem State.tell_pushNext (s : State) (c n : Nat) : (s.tell c n).pushNext = s.pushNext := by
  obtain ⟨_, _, _, e, _⟩ := s.tell_sent c n; rw [e]
@[simp] theorem State.tell_entries (s : State) (c n : Nat) : (s.tell c n).entries = s.entries := by
  obtain ⟨_, _, _, e, _⟩ := s.tell_sent c n; rw [e]
@[simp] theorem State.tell_ports (s : State) (c n : Nat) : (s.tell c n).ports = s.ports := by
  obtain ⟨_, _, _, e, _⟩ := s.tell_sent c n; rw [e]
@[simp] theorem State.tell_sinks (s : State) (c n : Nat) : (s.tell c n).sinks = s.sinks := by
  obtain ⟨_, _, _, e, _⟩ := s.tell_sent c n; rw [e]
@[simp] theorem State.tell_panel (s : State) (c n : Nat) : (s.tell c n).panel = s.panel := by
  obtain ⟨_, _, _, e, _⟩ := s.tell_sent c n; rw [e]
@[simp] theorem State.tell_rtc (s : State) (c n : Nat) : (s.tell c n).rtc = s.rtc := by
  obtain ⟨_, _, _, e, _⟩ := s.tell_sent c n; rw [e]
@[simp] theorem State.tell_fwu (s : State) (c n : Nat) : (s.tell c n).fwu = s.fwu := by
  obtain ⟨_, _, _, e, _⟩ := s.tell_sent c n; rw [e]
@[simp] theorem State.tell_mt (s : State) (c n : Nat) : (s.tell c n).mt = s.mt := by
  obtain ⟨_, _, _, e, _⟩ := s.tell_sent c n; rw [e]
@[simp] theorem State.tell_pio (s : State) (c n : Nat) : (s.tell c n).pio = s.pio := by
  obtain ⟨_, _, _, e, _⟩ := s.tell_sent c n; rw [e]
@[simp] theorem State.tell_pins (s : State) (c n : Nat) : (s.tell c n).pins = s.pins := by
  obtain ⟨_, _, _, e, _⟩ := s.tell_sent c n; rw [e]
@[simp] theorem State.tell_power (s : State) (c n : Nat) : (s.tell c n).power = s.power := by
  obtain ⟨_, _, _, e, _⟩ := s.tell_sent c n; rw [e]
@[simp] theorem State.tell_cont (s : State) (c n : Nat) : (s.tell c n).cont = s.cont := by
  obtain ⟨_, _, _, e, _⟩ := s.tell_sent c n; rw [e]
@[simp] theorem State.tell_ecc (s : State) (c n : Nat) : (s.tell c n).ecc = s.ecc := by
  obtain ⟨_, _, _, e, _⟩ := s.tell_sent c n; rw [e]
@[simp] theorem State.tell_credits (s : State) (c n : Nat) : (s.tell c n).credits = s.credits := by
  obtain ⟨_, _, _, e, _⟩ := s.tell_sent c n; rw [e]
@[simp] theorem State.tell_miq (s : State) (c n : Nat) : (s.tell c n).miq = s.miq := by
  obtain ⟨_, _, _, e, _⟩ := s.tell_sent c n; rw [e]
@[simp] theorem State.tell_lan (s : State) (c n : Nat) : (s.tell c n).lan = s.lan := by
  obtain ⟨_, _, _, e, _⟩ := s.tell_sent c n; rw [e]
@[simp] theorem State.tell_scrub (s : State) (c n : Nat) : (s.tell c n).scrub = s.scrub := by
  obtain ⟨_, _, _, e, _⟩ := s.tell_sent c n; rw [e]
@[simp] theorem State.tell_accrued (s : State) (c n : Nat) : (s.tell c n).accrued = s.accrued := by
  obtain ⟨_, _, _, e, _⟩ := s.tell_sent c n; rw [e]
@[simp] theorem State.tell_ready (s : State) (c n : Nat) : (s.tell c n).ready = s.ready := by
  obtain ⟨_, _, _, e, _⟩ := s.tell_sent c n; rw [e]
@[simp] theorem State.tell_loads (s : State) (c n : Nat) : (s.tell c n).loads = s.loads := by
  obtain ⟨_, _, _, e, _⟩ := s.tell_sent c n; rw [e]
@[simp] theorem State.tell_tenant (s : State) (c n : Nat) (j : Nat) : (s.tell c n).tenant j = s.tenant j := by
  obtain ⟨_, _, _, e, _⟩ := s.tell_sent c n; rw [e]; rfl
@[simp] theorem State.tell_geo (s : State) (c n : Nat) (j : Nat) : (s.tell c n).geo j = s.geo j := by
  obtain ⟨_, _, _, e, _⟩ := s.tell_sent c n; rw [e]; rfl
@[simp] theorem State.tell_entry (s : State) (c n : Nat) (j : Nat) : (s.tell c n).entry j = s.entry j := by
  obtain ⟨_, _, _, e, _⟩ := s.tell_sent c n; rw [e]; rfl
@[simp] theorem State.tell_port (s : State) (c n : Nat) (j : Nat) : (s.tell c n).port j = s.port j := by
  obtain ⟨_, _, _, e, _⟩ := s.tell_sent c n; rw [e]; rfl
@[simp] theorem State.tell_sdma (s : State) (c n : Nat) (j : Nat) : (s.tell c n).sdma j = s.sdma j := by
  obtain ⟨_, _, _, e, _⟩ := s.tell_sent c n; rw [e]; rfl

/-! reply -/

@[simp] theorem State.reply_pending (s : State) (m : Msg) (b : Bool) (r : Byte) (d : Word) : (s.reply m b r d).pending = s.pending := by
  obtain ⟨_, _, _, e, _⟩ := s.reply_sent m b r d; rw [e]
@[simp] theorem State.reply_tick (s : State) (m : Msg) (b : Bool) (r : Byte) (d : Word) : (s.reply m b r d).tick = s.tick := by
  obtain ⟨_, _, _, e, _⟩ := s.reply_sent m b r d; rw [e]
@[simp] theorem State.reply_tenants (s : State) (m : Msg) (b : Bool) (r : Byte) (d : Word) : (s.reply m b r d).tenants = s.tenants := by
  obtain ⟨_, _, _, e, _⟩ := s.reply_sent m b r d; rw [e]
@[simp] theorem State.reply_tb (s : State) (m : Msg) (b : Bool) (r : Byte) (d : Word) : (s.reply m b r d).tb = s.tb := by
  obtain ⟨_, _, _, e, _⟩ := s.reply_sent m b r d; rw [e]
@[simp] theorem State.reply_hbm (s : State) (m : Msg) (b : Bool) (r : Byte) (d : Word) : (s.reply m b r d).hbm = s.hbm := by
  obtain ⟨_, _, _, e, _⟩ := s.reply_sent m b r d; rw [e]
@[simp] theorem State.reply_bus (s : State) (m : Msg) (b : Bool) (r : Byte) (d : Word) : (s.reply m b r d).bus = s.bus := by
  obtain ⟨_, _, _, e, _⟩ := s.reply_sent m b r d; rw [e]
@[simp] theorem State.reply_previews (s : State) (m : Msg) (b : Bool) (r : Byte) (d : Word) : (s.reply m b r d).previews = s.previews := by
  obtain ⟨_, _, _, e, _⟩ := s.reply_sent m b r d; rw [e]
@[simp] theorem State.reply_secDma (s : State) (m : Msg) (b : Bool) (r : Byte) (d : Word) : (s.reply m b r d).secDma = s.secDma := by
  obtain ⟨_, _, _, e, _⟩ := s.reply_sent m b r d; rw [e]
@[simp] theorem State.reply_cmp (s : State) (m : Msg) (b : Bool) (r : Byte) (d : Word) : (s.reply m b r d).cmp = s.cmp := by
  obtain ⟨_, _, _, e, _⟩ := s.reply_sent m b r d; rw [e]
@[simp] theorem State.reply_push (s : State) (m : Msg) (b : Bool) (r : Byte) (d : Word) : (s.reply m b r d).push = s.push := by
  obtain ⟨_, _, _, e, _⟩ := s.reply_sent m b r d; rw [e]
@[simp] theorem State.reply_pushNext (s : State) (m : Msg) (b : Bool) (r : Byte) (d : Word) : (s.reply m b r d).pushNext = s.pushNext := by
  obtain ⟨_, _, _, e, _⟩ := s.reply_sent m b r d; rw [e]
@[simp] theorem State.reply_entries (s : State) (m : Msg) (b : Bool) (r : Byte) (d : Word) : (s.reply m b r d).entries = s.entries := by
  obtain ⟨_, _, _, e, _⟩ := s.reply_sent m b r d; rw [e]
@[simp] theorem State.reply_ports (s : State) (m : Msg) (b : Bool) (r : Byte) (d : Word) : (s.reply m b r d).ports = s.ports := by
  obtain ⟨_, _, _, e, _⟩ := s.reply_sent m b r d; rw [e]
@[simp] theorem State.reply_sinks (s : State) (m : Msg) (b : Bool) (r : Byte) (d : Word) : (s.reply m b r d).sinks = s.sinks := by
  obtain ⟨_, _, _, e, _⟩ := s.reply_sent m b r d; rw [e]
@[simp] theorem State.reply_panel (s : State) (m : Msg) (b : Bool) (r : Byte) (d : Word) : (s.reply m b r d).panel = s.panel := by
  obtain ⟨_, _, _, e, _⟩ := s.reply_sent m b r d; rw [e]
@[simp] theorem State.reply_rtc (s : State) (m : Msg) (b : Bool) (r : Byte) (d : Word) : (s.reply m b r d).rtc = s.rtc := by
  obtain ⟨_, _, _, e, _⟩ := s.reply_sent m b r d; rw [e]
@[simp] theorem State.reply_fwu (s : State) (m : Msg) (b : Bool) (r : Byte) (d : Word) : (s.reply m b r d).fwu = s.fwu := by
  obtain ⟨_, _, _, e, _⟩ := s.reply_sent m b r d; rw [e]
@[simp] theorem State.reply_mt (s : State) (m : Msg) (b : Bool) (r : Byte) (d : Word) : (s.reply m b r d).mt = s.mt := by
  obtain ⟨_, _, _, e, _⟩ := s.reply_sent m b r d; rw [e]
@[simp] theorem State.reply_pio (s : State) (m : Msg) (b : Bool) (r : Byte) (d : Word) : (s.reply m b r d).pio = s.pio := by
  obtain ⟨_, _, _, e, _⟩ := s.reply_sent m b r d; rw [e]
@[simp] theorem State.reply_pins (s : State) (m : Msg) (b : Bool) (r : Byte) (d : Word) : (s.reply m b r d).pins = s.pins := by
  obtain ⟨_, _, _, e, _⟩ := s.reply_sent m b r d; rw [e]
@[simp] theorem State.reply_power (s : State) (m : Msg) (b : Bool) (r : Byte) (d : Word) : (s.reply m b r d).power = s.power := by
  obtain ⟨_, _, _, e, _⟩ := s.reply_sent m b r d; rw [e]
@[simp] theorem State.reply_cont (s : State) (m : Msg) (b : Bool) (r : Byte) (d : Word) : (s.reply m b r d).cont = s.cont := by
  obtain ⟨_, _, _, e, _⟩ := s.reply_sent m b r d; rw [e]
@[simp] theorem State.reply_ecc (s : State) (m : Msg) (b : Bool) (r : Byte) (d : Word) : (s.reply m b r d).ecc = s.ecc := by
  obtain ⟨_, _, _, e, _⟩ := s.reply_sent m b r d; rw [e]
@[simp] theorem State.reply_credits (s : State) (m : Msg) (b : Bool) (r : Byte) (d : Word) : (s.reply m b r d).credits = s.credits := by
  obtain ⟨_, _, _, e, _⟩ := s.reply_sent m b r d; rw [e]
@[simp] theorem State.reply_miq (s : State) (m : Msg) (b : Bool) (r : Byte) (d : Word) : (s.reply m b r d).miq = s.miq := by
  obtain ⟨_, _, _, e, _⟩ := s.reply_sent m b r d; rw [e]
@[simp] theorem State.reply_lan (s : State) (m : Msg) (b : Bool) (r : Byte) (d : Word) : (s.reply m b r d).lan = s.lan := by
  obtain ⟨_, _, _, e, _⟩ := s.reply_sent m b r d; rw [e]
@[simp] theorem State.reply_scrub (s : State) (m : Msg) (b : Bool) (r : Byte) (d : Word) : (s.reply m b r d).scrub = s.scrub := by
  obtain ⟨_, _, _, e, _⟩ := s.reply_sent m b r d; rw [e]
@[simp] theorem State.reply_accrued (s : State) (m : Msg) (b : Bool) (r : Byte) (d : Word) : (s.reply m b r d).accrued = s.accrued := by
  obtain ⟨_, _, _, e, _⟩ := s.reply_sent m b r d; rw [e]
@[simp] theorem State.reply_ready (s : State) (m : Msg) (b : Bool) (r : Byte) (d : Word) : (s.reply m b r d).ready = s.ready := by
  obtain ⟨_, _, _, e, _⟩ := s.reply_sent m b r d; rw [e]
@[simp] theorem State.reply_loads (s : State) (m : Msg) (b : Bool) (r : Byte) (d : Word) : (s.reply m b r d).loads = s.loads := by
  obtain ⟨_, _, _, e, _⟩ := s.reply_sent m b r d; rw [e]
@[simp] theorem State.reply_tenant (s : State) (m : Msg) (b : Bool) (r : Byte) (d : Word) (j : Nat) : (s.reply m b r d).tenant j = s.tenant j := by
  obtain ⟨_, _, _, e, _⟩ := s.reply_sent m b r d; rw [e]; rfl
@[simp] theorem State.reply_geo (s : State) (m : Msg) (b : Bool) (r : Byte) (d : Word) (j : Nat) : (s.reply m b r d).geo j = s.geo j := by
  obtain ⟨_, _, _, e, _⟩ := s.reply_sent m b r d; rw [e]; rfl
@[simp] theorem State.reply_entry (s : State) (m : Msg) (b : Bool) (r : Byte) (d : Word) (j : Nat) : (s.reply m b r d).entry j = s.entry j := by
  obtain ⟨_, _, _, e, _⟩ := s.reply_sent m b r d; rw [e]; rfl
@[simp] theorem State.reply_port (s : State) (m : Msg) (b : Bool) (r : Byte) (d : Word) (j : Nat) : (s.reply m b r d).port j = s.port j := by
  obtain ⟨_, _, _, e, _⟩ := s.reply_sent m b r d; rw [e]; rfl
@[simp] theorem State.reply_sdma (s : State) (m : Msg) (b : Bool) (r : Byte) (d : Word) (j : Nat) : (s.reply m b r d).sdma j = s.sdma j := by
  obtain ⟨_, _, _, e, _⟩ := s.reply_sent m b r d; rw [e]; rfl

/-! Registers read back. -/

theorem State.word_setWord (s : State) (k j : Nat) (v : Word) : (s.setWord k v).word j = if j = k then v else s.word j := by
  exact Store.get_setAt moduleRst _ _ _ _

@[simp] theorem State.word_setWord_self (s : State) (k : Nat) (v : Word) : (s.setWord k v).word k = v := by
  rw [State.word_setWord, if_pos rfl]

theorem State.word_setFld (s : State) (f : Fld) (v j : Nat) :
    (s.setFld f v).word j = if j = f.key then setBits (s.word f.key) f.lo f.w v else s.word j := s.word_setWord _ _ _

/-- A field set reads as the value set. -/
theorem State.fld_setFld (s : State) (f : Fld) (v : Nat) (h : f.lo + f.w ≤ 32) : (s.setFld f v).fld f = v % 2 ^ f.w := by
  rw [State.fld, State.word_setFld, if_pos rfl, getBits_setBits _ _ _ _ h]

/-- A field set leaves every other field. -/
theorem State.fld_setFld_of_ne (s : State) (f h : Fld) (v : Nat)
    (d : h.key ≠ f.key ∨ h.lo + h.w ≤ f.lo ∨ f.lo + f.w ≤ h.lo) : (s.setFld f v).fld h = s.fld h := by
  rw [State.fld, State.word_setFld]
  split
  · next e =>
    rw [getBits_setBits_of_disjoint _ _ _ _ _ _ (by rcases d with d | d <;> [exact absurd e d; exact d]), State.fld, e]
  · rfl

theorem State.bit_setBit (s : State) (f : Fld) (b : Bool) (h : f.lo + 1 ≤ 32) (w : f.w = 1) : (s.setBit f b).bit f = b := by
  rw [State.bit, State.setBit, State.fld_setFld _ _ _ (by omega), w]
  cases b <;> rfl

theorem State.bit_setBit_of_ne (s : State) (f h : Fld) (b : Bool)
    (d : h.key ≠ f.key ∨ h.lo + h.w ≤ f.lo ∨ f.lo + f.w ≤ h.lo) : (s.setBit f b).bit h = s.bit h := by
  rw [State.bit, State.setBit, State.fld_setFld_of_ne _ _ _ _ d, State.bit]

theorem State.word_count (s : State) (f : Fld) (j : Nat) :
    (s.count f).word j = if j = f.key then satInc (s.word j) else s.word j := by
  rw [State.count, State.word_setWord]
  split
  · next h => rw [h]
  · rfl

theorem State.fld_count_of_ne (s : State) (f h : Fld) (d : h.key ≠ f.key) : (s.count f).fld h = s.fld h := by
  rw [State.fld, State.word_count, if_neg d, State.fld]

theorem State.bit_count_of_ne (s : State) (f h : Fld) (d : h.key ≠ f.key) : (s.count f).bit h = s.bit h := by
  rw [State.bit, State.fld_count_of_ne _ _ _ d, State.bit]

theorem State.word_countN_of_ne (s : State) (f : Fld) (n j : Nat) (d : j ≠ f.key) : (s.countN f n).word j = s.word j := by
  rw [State.countN, State.word_setWord, if_neg d]

theorem State.tenant_setTenant (s : State) (k j : Nat) (t : Tenant) :
    (s.setTenant k t).tenant j = if j = k then t else s.tenant j := Store.get_put _ _ _ _ _

@[simp] theorem State.tenant_setTenant_self (s : State) (k : Nat) (t : Tenant) : (s.setTenant k t).tenant k = t := by
  rw [State.tenant_setTenant, if_pos rfl]

theorem State.tenant_onTenant (s : State) (k j : Nat) (g : Tenant → Tenant) :
    (s.onTenant k g).tenant j = if j = k then g (s.tenant k) else s.tenant j := s.tenant_setTenant _ _ _

@[simp] theorem State.tenant_onTenant_self (s : State) (k : Nat) (g : Tenant → Tenant) :
    (s.onTenant k g).tenant k = g (s.tenant k) := s.tenant_setTenant_self _ _

@[simp] theorem State.entry_setEntry_self (s : State) (e : Nat) (x : Entry) : (s.setEntry e x).entry e = x := Store.get_set_self _ _ _ _

@[simp] theorem State.port_setPort_self (s : State) (p : Nat) (x : Port) : (s.setPort p x).port p = x := Store.get_set_self _ _ _ _

@[simp] theorem State.sdma_setSdma_self (s : State) (c : Nat) (x : SecDma) : (s.setSdma c x).sdma c = x := Store.get_set_self _ _ _ _

/-! The registers of a tenant. -/

/-! setWord -/

@[simp] theorem Tenant.setWord_image (t : Tenant) (k : Nat) (v : Word) : (t.setWord k v).image = t.image := by
  unfold Tenant.setWord; split <;> rfl
@[simp] theorem Tenant.setWord_bindLine (t : Tenant) (k : Nat) (v : Word) : (t.setWord k v).bindLine = t.bindLine := by
  unfold Tenant.setWord; split <;> rfl
@[simp] theorem Tenant.setWord_bindTick (t : Tenant) (k : Nat) (v : Word) : (t.setWord k v).bindTick = t.bindTick := by
  unfold Tenant.setWord; split <;> rfl
@[simp] theorem Tenant.setWord_oldLine (t : Tenant) (k : Nat) (v : Word) : (t.setWord k v).oldLine = t.oldLine := by
  unfold Tenant.setWord; split <;> rfl
@[simp] theorem Tenant.setWord_oldTick (t : Tenant) (k : Nat) (v : Word) : (t.setWord k v).oldTick = t.oldTick := by
  unfold Tenant.setWord; split <;> rfl
@[simp] theorem Tenant.setWord_stop (t : Tenant) (k : Nat) (v : Word) : (t.setWord k v).stop = t.stop := by
  unfold Tenant.setWord; split <;> rfl
@[simp] theorem Tenant.setWord_parkedByModule (t : Tenant) (k : Nat) (v : Word) : (t.setWord k v).parkedByModule = t.parkedByModule := by
  unfold Tenant.setWord; split <;> rfl
@[simp] theorem Tenant.setWord_heldByModule (t : Tenant) (k : Nat) (v : Word) : (t.setWord k v).heldByModule = t.heldByModule := by
  unfold Tenant.setWord; split <;> rfl
@[simp] theorem Tenant.setWord_resumeJ (t : Tenant) (k : Nat) (v : Word) : (t.setWord k v).resumeJ = t.resumeJ := by
  unfold Tenant.setWord; split <;> rfl
@[simp] theorem Tenant.setWord_inputs (t : Tenant) (k : Nat) (v : Word) : (t.setWord k v).inputs = t.inputs := by
  unfold Tenant.setWord; split <;> rfl
@[simp] theorem Tenant.setWord_reports (t : Tenant) (k : Nat) (v : Word) : (t.setWord k v).reports = t.reports := by
  unfold Tenant.setWord; split <;> rfl
@[simp] theorem Tenant.setWord_journal (t : Tenant) (k : Nat) (v : Word) : (t.setWord k v).journal = t.journal := by
  unfold Tenant.setWord; split <;> rfl
@[simp] theorem Tenant.setWord_replay (t : Tenant) (k : Nat) (v : Word) : (t.setWord k v).replay = t.replay := by
  unfold Tenant.setWord; split <;> rfl
@[simp] theorem Tenant.setWord_afterReset (t : Tenant) (k : Nat) (v : Word) : (t.setWord k v).afterReset = t.afterReset := by
  unfold Tenant.setWord; split <;> rfl
@[simp] theorem Tenant.setWord_ring (t : Tenant) (k : Nat) (v : Word) : (t.setWord k v).ring = t.ring := by
  unfold Tenant.setWord; split <;> rfl
@[simp] theorem Tenant.setWord_record (t : Tenant) (k : Nat) (v : Word) : (t.setWord k v).record = t.record := by
  unfold Tenant.setWord; split <;> rfl
@[simp] theorem Tenant.setWord_recordValid (t : Tenant) (k : Nat) (v : Word) : (t.setWord k v).recordValid = t.recordValid := by
  unfold Tenant.setWord; split <;> rfl
@[simp] theorem Tenant.setWord_handed (t : Tenant) (k : Nat) (v : Word) : (t.setWord k v).handed = t.handed := by
  unfold Tenant.setWord; split <;> rfl
@[simp] theorem Tenant.setWord_rendered (t : Tenant) (k : Nat) (v : Word) : (t.setWord k v).rendered = t.rendered := by
  unfold Tenant.setWord; split <;> rfl
@[simp] theorem Tenant.setWord_mirror (t : Tenant) (k : Nat) (v : Word) : (t.setWord k v).mirror = t.mirror := by
  unfold Tenant.setWord; split <;> rfl
@[simp] theorem Tenant.setWord_move (t : Tenant) (k : Nat) (v : Word) : (t.setWord k v).move = t.move := by
  unfold Tenant.setWord; split <;> rfl
@[simp] theorem Tenant.setWord_mirrorMove (t : Tenant) (k : Nat) (v : Word) : (t.setWord k v).mirrorMove = t.mirrorMove := by
  unfold Tenant.setWord; split <;> rfl
@[simp] theorem Tenant.setWord_waitPromotion (t : Tenant) (k : Nat) (v : Word) : (t.setWord k v).waitPromotion = t.waitPromotion := by
  unfold Tenant.setWord; split <;> rfl
@[simp] theorem Tenant.setWord_resetWait (t : Tenant) (k : Nat) (v : Word) : (t.setWord k v).resetWait = t.resetWait := by
  unfold Tenant.setWord; split <;> rfl
@[simp] theorem Tenant.setWord_redo (t : Tenant) (k : Nat) (v : Word) : (t.setWord k v).redo = t.redo := by
  unfold Tenant.setWord; split <;> rfl
@[simp] theorem Tenant.setWord_lostMirror (t : Tenant) (k : Nat) (v : Word) : (t.setWord k v).lostMirror = t.lostMirror := by
  unfold Tenant.setWord; split <;> rfl
@[simp] theorem Tenant.setWord_bufs (t : Tenant) (k : Nat) (v : Word) : (t.setWord k v).bufs = t.bufs := by
  unfold Tenant.setWord; split <;> rfl
@[simp] theorem Tenant.setWord_compo (t : Tenant) (k : Nat) (v : Word) : (t.setWord k v).compo = t.compo := by
  unfold Tenant.setWord; split <;> rfl
@[simp] theorem Tenant.setWord_routed (t : Tenant) (k : Nat) (v : Word) : (t.setWord k v).routed = t.routed := by
  unfold Tenant.setWord; split <;> rfl
@[simp] theorem Tenant.setWord_audioNext (t : Tenant) (k : Nat) (v : Word) : (t.setWord k v).audioNext = t.audioNext := by
  unfold Tenant.setWord; split <;> rfl
@[simp] theorem Tenant.setWord_lagWarned (t : Tenant) (k : Nat) (v : Word) : (t.setWord k v).lagWarned = t.lagWarned := by
  unfold Tenant.setWord; split <;> rfl
@[simp] theorem Tenant.setWord_savSeen (t : Tenant) (k : Nat) (v : Word) : (t.setWord k v).savSeen = t.savSeen := by
  unfold Tenant.setWord; split <;> rfl
@[simp] theorem Tenant.setWord_savJobs (t : Tenant) (k : Nat) (v : Word) : (t.setWord k v).savJobs = t.savJobs := by
  unfold Tenant.setWord; split <;> rfl
@[simp] theorem Tenant.setWord_core_cpu (t : Tenant) (k : Nat) (v : Word) : (t.setWord k v).core.cpu = t.core.cpu := by
  unfold Tenant.setWord; split <;> rfl
@[simp] theorem Tenant.setWord_core_mem (t : Tenant) (k : Nat) (v : Word) : (t.setWord k v).core.mem = t.core.mem := by
  unfold Tenant.setWord; split <;> rfl
@[simp] theorem Tenant.setWord_core_now (t : Tenant) (k : Nat) (v : Word) : (t.setWord k v).core.now = t.core.now := by
  unfold Tenant.setWord; split <;> rfl
@[simp] theorem Tenant.setWord_core_begun (t : Tenant) (k : Nat) (v : Word) : (t.setWord k v).core.begun = t.core.begun := by
  unfold Tenant.setWord; split <;> rfl
@[simp] theorem Tenant.setWord_core_nextRing (t : Tenant) (k : Nat) (v : Word) : (t.setWord k v).core.nextRing = t.core.nextRing := by
  unfold Tenant.setWord; split <;> rfl
@[simp] theorem Tenant.setWord_core_ringNo (t : Tenant) (k : Nat) (v : Word) : (t.setWord k v).core.ringNo = t.core.ringNo := by
  unfold Tenant.setWord; split <;> rfl
@[simp] theorem Tenant.setWord_core_entered (t : Tenant) (k : Nat) (v : Word) : (t.setWord k v).core.entered = t.core.entered := by
  unfold Tenant.setWord; split <;> rfl
@[simp] theorem Tenant.setWord_core_posted (t : Tenant) (k : Nat) (v : Word) : (t.setWord k v).core.posted = t.core.posted := by
  unfold Tenant.setWord; split <;> rfl
@[simp] theorem Tenant.setWord_core_vread (t : Tenant) (k : Nat) (v : Word) : (t.setWord k v).core.vread = t.core.vread := by
  unfold Tenant.setWord; split <;> rfl
@[simp] theorem Tenant.setWord_core_atc (t : Tenant) (k : Nat) (v : Word) : (t.setWord k v).core.atc = t.core.atc := by
  unfold Tenant.setWord; split <;> rfl
@[simp] theorem Tenant.setWord_core_rlog (t : Tenant) (k : Nat) (v : Word) : (t.setWord k v).core.rlog = t.core.rlog := by
  unfold Tenant.setWord; split <;> rfl
@[simp] theorem Tenant.setWord_core_vold (t : Tenant) (k : Nat) (v : Word) : (t.setWord k v).core.vold = t.core.vold := by
  unfold Tenant.setWord; split <;> rfl
@[simp] theorem Tenant.setWord_core_sat (t : Tenant) (k : Nat) (v : Word) : (t.setWord k v).core.sat = t.core.sat := by
  unfold Tenant.setWord; split <;> rfl
@[simp] theorem Tenant.setWord_core_evalNext (t : Tenant) (k : Nat) (v : Word) : (t.setWord k v).core.evalNext = t.core.evalNext := by
  unfold Tenant.setWord; split <;> rfl
@[simp] theorem Tenant.setWord_core_kept (t : Tenant) (k : Nat) (v : Word) : (t.setWord k v).core.kept = t.core.kept := by
  unfold Tenant.setWord; split <;> rfl
@[simp] theorem Tenant.setWord_core_pal (t : Tenant) (k : Nat) (v : Word) : (t.setWord k v).core.pal = t.core.pal := by
  unfold Tenant.setWord; split <;> rfl
@[simp] theorem Tenant.setWord_core_palBytes (t : Tenant) (k : Nat) (v : Word) : (t.setWord k v).core.palBytes = t.core.palBytes := by
  unfold Tenant.setWord; split <;> rfl
@[simp] theorem Tenant.setWord_core_palValid (t : Tenant) (k : Nat) (v : Word) : (t.setWord k v).core.palValid = t.core.palValid := by
  unfold Tenant.setWord; split <;> rfl
@[simp] theorem Tenant.setWord_core_ras (t : Tenant) (k : Nat) (v : Word) : (t.setWord k v).core.ras = t.core.ras := by
  unfold Tenant.setWord; split <;> rfl
@[simp] theorem Tenant.setWord_core_lmFrom0 (t : Tenant) (k : Nat) (v : Word) : (t.setWord k v).core.lmFrom0 = t.core.lmFrom0 := by
  unfold Tenant.setWord; split <;> rfl
@[simp] theorem Tenant.setWord_core_lmFrom1 (t : Tenant) (k : Nat) (v : Word) : (t.setWord k v).core.lmFrom1 = t.core.lmFrom1 := by
  unfold Tenant.setWord; split <;> rfl
@[simp] theorem Tenant.setWord_core_lmFrom2 (t : Tenant) (k : Nat) (v : Word) : (t.setWord k v).core.lmFrom2 = t.core.lmFrom2 := by
  unfold Tenant.setWord; split <;> rfl
@[simp] theorem Tenant.setWord_core_lmFrom3 (t : Tenant) (k : Nat) (v : Word) : (t.setWord k v).core.lmFrom3 = t.core.lmFrom3 := by
  unfold Tenant.setWord; split <;> rfl
@[simp] theorem Tenant.setWord_core_snd (t : Tenant) (k : Nat) (v : Word) : (t.setWord k v).core.snd = t.core.snd := by
  unfold Tenant.setWord; split <;> rfl
@[simp] theorem Tenant.setWord_core_bal (t : Tenant) (k : Nat) (v : Word) : (t.setWord k v).core.bal = t.core.bal := by
  unfold Tenant.setWord; split <;> rfl
@[simp] theorem Tenant.setWord_core_trail (t : Tenant) (k : Nat) (v : Word) : (t.setWord k v).core.trail = t.core.trail := by
  unfold Tenant.setWord; split <;> rfl
@[simp] theorem Tenant.setWord_core_qdm (t : Tenant) (k : Nat) (v : Word) : (t.setWord k v).core.qdm = t.core.qdm := by
  unfold Tenant.setWord; split <;> rfl
@[simp] theorem Tenant.setWord_core_dma0 (t : Tenant) (k : Nat) (v : Word) : (t.setWord k v).core.dma0 = t.core.dma0 := by
  unfold Tenant.setWord; split <;> rfl
@[simp] theorem Tenant.setWord_core_dma1 (t : Tenant) (k : Nat) (v : Word) : (t.setWord k v).core.dma1 = t.core.dma1 := by
  unfold Tenant.setWord; split <;> rfl
@[simp] theorem Tenant.setWord_core_tmr0 (t : Tenant) (k : Nat) (v : Word) : (t.setWord k v).core.tmr0 = t.core.tmr0 := by
  unfold Tenant.setWord; split <;> rfl
@[simp] theorem Tenant.setWord_core_tmr1 (t : Tenant) (k : Nat) (v : Word) : (t.setWord k v).core.tmr1 = t.core.tmr1 := by
  unfold Tenant.setWord; split <;> rfl
@[simp] theorem Tenant.setWord_core_tmr2 (t : Tenant) (k : Nat) (v : Word) : (t.setWord k v).core.tmr2 = t.core.tmr2 := by
  unfold Tenant.setWord; split <;> rfl
@[simp] theorem Tenant.setWord_core_tmr3 (t : Tenant) (k : Nat) (v : Word) : (t.setWord k v).core.tmr3 = t.core.tmr3 := by
  unfold Tenant.setWord; split <;> rfl
@[simp] theorem Tenant.setWord_core_sav (t : Tenant) (k : Nat) (v : Word) : (t.setWord k v).core.sav = t.core.sav := by
  unfold Tenant.setWord; split <;> rfl

/-! setFld -/

@[simp] theorem Tenant.setFld_image (t : Tenant) (f : Fld) (v : Nat) : (t.setFld f v).image = t.image := t.setWord_image _ _
@[simp] theorem Tenant.setFld_bindLine (t : Tenant) (f : Fld) (v : Nat) : (t.setFld f v).bindLine = t.bindLine := t.setWord_bindLine _ _
@[simp] theorem Tenant.setFld_bindTick (t : Tenant) (f : Fld) (v : Nat) : (t.setFld f v).bindTick = t.bindTick := t.setWord_bindTick _ _
@[simp] theorem Tenant.setFld_oldLine (t : Tenant) (f : Fld) (v : Nat) : (t.setFld f v).oldLine = t.oldLine := t.setWord_oldLine _ _
@[simp] theorem Tenant.setFld_oldTick (t : Tenant) (f : Fld) (v : Nat) : (t.setFld f v).oldTick = t.oldTick := t.setWord_oldTick _ _
@[simp] theorem Tenant.setFld_stop (t : Tenant) (f : Fld) (v : Nat) : (t.setFld f v).stop = t.stop := t.setWord_stop _ _
@[simp] theorem Tenant.setFld_parkedByModule (t : Tenant) (f : Fld) (v : Nat) : (t.setFld f v).parkedByModule = t.parkedByModule := t.setWord_parkedByModule _ _
@[simp] theorem Tenant.setFld_heldByModule (t : Tenant) (f : Fld) (v : Nat) : (t.setFld f v).heldByModule = t.heldByModule := t.setWord_heldByModule _ _
@[simp] theorem Tenant.setFld_resumeJ (t : Tenant) (f : Fld) (v : Nat) : (t.setFld f v).resumeJ = t.resumeJ := t.setWord_resumeJ _ _
@[simp] theorem Tenant.setFld_inputs (t : Tenant) (f : Fld) (v : Nat) : (t.setFld f v).inputs = t.inputs := t.setWord_inputs _ _
@[simp] theorem Tenant.setFld_reports (t : Tenant) (f : Fld) (v : Nat) : (t.setFld f v).reports = t.reports := t.setWord_reports _ _
@[simp] theorem Tenant.setFld_journal (t : Tenant) (f : Fld) (v : Nat) : (t.setFld f v).journal = t.journal := t.setWord_journal _ _
@[simp] theorem Tenant.setFld_replay (t : Tenant) (f : Fld) (v : Nat) : (t.setFld f v).replay = t.replay := t.setWord_replay _ _
@[simp] theorem Tenant.setFld_afterReset (t : Tenant) (f : Fld) (v : Nat) : (t.setFld f v).afterReset = t.afterReset := t.setWord_afterReset _ _
@[simp] theorem Tenant.setFld_ring (t : Tenant) (f : Fld) (v : Nat) : (t.setFld f v).ring = t.ring := t.setWord_ring _ _
@[simp] theorem Tenant.setFld_record (t : Tenant) (f : Fld) (v : Nat) : (t.setFld f v).record = t.record := t.setWord_record _ _
@[simp] theorem Tenant.setFld_recordValid (t : Tenant) (f : Fld) (v : Nat) : (t.setFld f v).recordValid = t.recordValid := t.setWord_recordValid _ _
@[simp] theorem Tenant.setFld_handed (t : Tenant) (f : Fld) (v : Nat) : (t.setFld f v).handed = t.handed := t.setWord_handed _ _
@[simp] theorem Tenant.setFld_rendered (t : Tenant) (f : Fld) (v : Nat) : (t.setFld f v).rendered = t.rendered := t.setWord_rendered _ _
@[simp] theorem Tenant.setFld_mirror (t : Tenant) (f : Fld) (v : Nat) : (t.setFld f v).mirror = t.mirror := t.setWord_mirror _ _
@[simp] theorem Tenant.setFld_move (t : Tenant) (f : Fld) (v : Nat) : (t.setFld f v).move = t.move := t.setWord_move _ _
@[simp] theorem Tenant.setFld_mirrorMove (t : Tenant) (f : Fld) (v : Nat) : (t.setFld f v).mirrorMove = t.mirrorMove := t.setWord_mirrorMove _ _
@[simp] theorem Tenant.setFld_waitPromotion (t : Tenant) (f : Fld) (v : Nat) : (t.setFld f v).waitPromotion = t.waitPromotion := t.setWord_waitPromotion _ _
@[simp] theorem Tenant.setFld_resetWait (t : Tenant) (f : Fld) (v : Nat) : (t.setFld f v).resetWait = t.resetWait := t.setWord_resetWait _ _
@[simp] theorem Tenant.setFld_redo (t : Tenant) (f : Fld) (v : Nat) : (t.setFld f v).redo = t.redo := t.setWord_redo _ _
@[simp] theorem Tenant.setFld_lostMirror (t : Tenant) (f : Fld) (v : Nat) : (t.setFld f v).lostMirror = t.lostMirror := t.setWord_lostMirror _ _
@[simp] theorem Tenant.setFld_bufs (t : Tenant) (f : Fld) (v : Nat) : (t.setFld f v).bufs = t.bufs := t.setWord_bufs _ _
@[simp] theorem Tenant.setFld_compo (t : Tenant) (f : Fld) (v : Nat) : (t.setFld f v).compo = t.compo := t.setWord_compo _ _
@[simp] theorem Tenant.setFld_routed (t : Tenant) (f : Fld) (v : Nat) : (t.setFld f v).routed = t.routed := t.setWord_routed _ _
@[simp] theorem Tenant.setFld_audioNext (t : Tenant) (f : Fld) (v : Nat) : (t.setFld f v).audioNext = t.audioNext := t.setWord_audioNext _ _
@[simp] theorem Tenant.setFld_lagWarned (t : Tenant) (f : Fld) (v : Nat) : (t.setFld f v).lagWarned = t.lagWarned := t.setWord_lagWarned _ _
@[simp] theorem Tenant.setFld_savSeen (t : Tenant) (f : Fld) (v : Nat) : (t.setFld f v).savSeen = t.savSeen := t.setWord_savSeen _ _
@[simp] theorem Tenant.setFld_savJobs (t : Tenant) (f : Fld) (v : Nat) : (t.setFld f v).savJobs = t.savJobs := t.setWord_savJobs _ _
@[simp] theorem Tenant.setFld_core_cpu (t : Tenant) (f : Fld) (v : Nat) : (t.setFld f v).core.cpu = t.core.cpu := t.setWord_core_cpu _ _
@[simp] theorem Tenant.setFld_core_mem (t : Tenant) (f : Fld) (v : Nat) : (t.setFld f v).core.mem = t.core.mem := t.setWord_core_mem _ _
@[simp] theorem Tenant.setFld_core_now (t : Tenant) (f : Fld) (v : Nat) : (t.setFld f v).core.now = t.core.now := t.setWord_core_now _ _
@[simp] theorem Tenant.setFld_core_begun (t : Tenant) (f : Fld) (v : Nat) : (t.setFld f v).core.begun = t.core.begun := t.setWord_core_begun _ _
@[simp] theorem Tenant.setFld_core_nextRing (t : Tenant) (f : Fld) (v : Nat) : (t.setFld f v).core.nextRing = t.core.nextRing := t.setWord_core_nextRing _ _
@[simp] theorem Tenant.setFld_core_ringNo (t : Tenant) (f : Fld) (v : Nat) : (t.setFld f v).core.ringNo = t.core.ringNo := t.setWord_core_ringNo _ _
@[simp] theorem Tenant.setFld_core_entered (t : Tenant) (f : Fld) (v : Nat) : (t.setFld f v).core.entered = t.core.entered := t.setWord_core_entered _ _
@[simp] theorem Tenant.setFld_core_posted (t : Tenant) (f : Fld) (v : Nat) : (t.setFld f v).core.posted = t.core.posted := t.setWord_core_posted _ _
@[simp] theorem Tenant.setFld_core_vread (t : Tenant) (f : Fld) (v : Nat) : (t.setFld f v).core.vread = t.core.vread := t.setWord_core_vread _ _
@[simp] theorem Tenant.setFld_core_atc (t : Tenant) (f : Fld) (v : Nat) : (t.setFld f v).core.atc = t.core.atc := t.setWord_core_atc _ _
@[simp] theorem Tenant.setFld_core_rlog (t : Tenant) (f : Fld) (v : Nat) : (t.setFld f v).core.rlog = t.core.rlog := t.setWord_core_rlog _ _
@[simp] theorem Tenant.setFld_core_vold (t : Tenant) (f : Fld) (v : Nat) : (t.setFld f v).core.vold = t.core.vold := t.setWord_core_vold _ _
@[simp] theorem Tenant.setFld_core_sat (t : Tenant) (f : Fld) (v : Nat) : (t.setFld f v).core.sat = t.core.sat := t.setWord_core_sat _ _
@[simp] theorem Tenant.setFld_core_evalNext (t : Tenant) (f : Fld) (v : Nat) : (t.setFld f v).core.evalNext = t.core.evalNext := t.setWord_core_evalNext _ _
@[simp] theorem Tenant.setFld_core_kept (t : Tenant) (f : Fld) (v : Nat) : (t.setFld f v).core.kept = t.core.kept := t.setWord_core_kept _ _
@[simp] theorem Tenant.setFld_core_pal (t : Tenant) (f : Fld) (v : Nat) : (t.setFld f v).core.pal = t.core.pal := t.setWord_core_pal _ _
@[simp] theorem Tenant.setFld_core_palBytes (t : Tenant) (f : Fld) (v : Nat) : (t.setFld f v).core.palBytes = t.core.palBytes := t.setWord_core_palBytes _ _
@[simp] theorem Tenant.setFld_core_palValid (t : Tenant) (f : Fld) (v : Nat) : (t.setFld f v).core.palValid = t.core.palValid := t.setWord_core_palValid _ _
@[simp] theorem Tenant.setFld_core_ras (t : Tenant) (f : Fld) (v : Nat) : (t.setFld f v).core.ras = t.core.ras := t.setWord_core_ras _ _
@[simp] theorem Tenant.setFld_core_lmFrom0 (t : Tenant) (f : Fld) (v : Nat) : (t.setFld f v).core.lmFrom0 = t.core.lmFrom0 := t.setWord_core_lmFrom0 _ _
@[simp] theorem Tenant.setFld_core_lmFrom1 (t : Tenant) (f : Fld) (v : Nat) : (t.setFld f v).core.lmFrom1 = t.core.lmFrom1 := t.setWord_core_lmFrom1 _ _
@[simp] theorem Tenant.setFld_core_lmFrom2 (t : Tenant) (f : Fld) (v : Nat) : (t.setFld f v).core.lmFrom2 = t.core.lmFrom2 := t.setWord_core_lmFrom2 _ _
@[simp] theorem Tenant.setFld_core_lmFrom3 (t : Tenant) (f : Fld) (v : Nat) : (t.setFld f v).core.lmFrom3 = t.core.lmFrom3 := t.setWord_core_lmFrom3 _ _
@[simp] theorem Tenant.setFld_core_snd (t : Tenant) (f : Fld) (v : Nat) : (t.setFld f v).core.snd = t.core.snd := t.setWord_core_snd _ _
@[simp] theorem Tenant.setFld_core_bal (t : Tenant) (f : Fld) (v : Nat) : (t.setFld f v).core.bal = t.core.bal := t.setWord_core_bal _ _
@[simp] theorem Tenant.setFld_core_trail (t : Tenant) (f : Fld) (v : Nat) : (t.setFld f v).core.trail = t.core.trail := t.setWord_core_trail _ _
@[simp] theorem Tenant.setFld_core_qdm (t : Tenant) (f : Fld) (v : Nat) : (t.setFld f v).core.qdm = t.core.qdm := t.setWord_core_qdm _ _
@[simp] theorem Tenant.setFld_core_dma0 (t : Tenant) (f : Fld) (v : Nat) : (t.setFld f v).core.dma0 = t.core.dma0 := t.setWord_core_dma0 _ _
@[simp] theorem Tenant.setFld_core_dma1 (t : Tenant) (f : Fld) (v : Nat) : (t.setFld f v).core.dma1 = t.core.dma1 := t.setWord_core_dma1 _ _
@[simp] theorem Tenant.setFld_core_tmr0 (t : Tenant) (f : Fld) (v : Nat) : (t.setFld f v).core.tmr0 = t.core.tmr0 := t.setWord_core_tmr0 _ _
@[simp] theorem Tenant.setFld_core_tmr1 (t : Tenant) (f : Fld) (v : Nat) : (t.setFld f v).core.tmr1 = t.core.tmr1 := t.setWord_core_tmr1 _ _
@[simp] theorem Tenant.setFld_core_tmr2 (t : Tenant) (f : Fld) (v : Nat) : (t.setFld f v).core.tmr2 = t.core.tmr2 := t.setWord_core_tmr2 _ _
@[simp] theorem Tenant.setFld_core_tmr3 (t : Tenant) (f : Fld) (v : Nat) : (t.setFld f v).core.tmr3 = t.core.tmr3 := t.setWord_core_tmr3 _ _
@[simp] theorem Tenant.setFld_core_sav (t : Tenant) (f : Fld) (v : Nat) : (t.setFld f v).core.sav = t.core.sav := t.setWord_core_sav _ _

/-! setBit -/

@[simp] theorem Tenant.setBit_image (t : Tenant) (f : Fld) (b : Bool) : (t.setBit f b).image = t.image := t.setFld_image _ _
@[simp] theorem Tenant.setBit_bindLine (t : Tenant) (f : Fld) (b : Bool) : (t.setBit f b).bindLine = t.bindLine := t.setFld_bindLine _ _
@[simp] theorem Tenant.setBit_bindTick (t : Tenant) (f : Fld) (b : Bool) : (t.setBit f b).bindTick = t.bindTick := t.setFld_bindTick _ _
@[simp] theorem Tenant.setBit_oldLine (t : Tenant) (f : Fld) (b : Bool) : (t.setBit f b).oldLine = t.oldLine := t.setFld_oldLine _ _
@[simp] theorem Tenant.setBit_oldTick (t : Tenant) (f : Fld) (b : Bool) : (t.setBit f b).oldTick = t.oldTick := t.setFld_oldTick _ _
@[simp] theorem Tenant.setBit_stop (t : Tenant) (f : Fld) (b : Bool) : (t.setBit f b).stop = t.stop := t.setFld_stop _ _
@[simp] theorem Tenant.setBit_parkedByModule (t : Tenant) (f : Fld) (b : Bool) : (t.setBit f b).parkedByModule = t.parkedByModule := t.setFld_parkedByModule _ _
@[simp] theorem Tenant.setBit_heldByModule (t : Tenant) (f : Fld) (b : Bool) : (t.setBit f b).heldByModule = t.heldByModule := t.setFld_heldByModule _ _
@[simp] theorem Tenant.setBit_resumeJ (t : Tenant) (f : Fld) (b : Bool) : (t.setBit f b).resumeJ = t.resumeJ := t.setFld_resumeJ _ _
@[simp] theorem Tenant.setBit_inputs (t : Tenant) (f : Fld) (b : Bool) : (t.setBit f b).inputs = t.inputs := t.setFld_inputs _ _
@[simp] theorem Tenant.setBit_reports (t : Tenant) (f : Fld) (b : Bool) : (t.setBit f b).reports = t.reports := t.setFld_reports _ _
@[simp] theorem Tenant.setBit_journal (t : Tenant) (f : Fld) (b : Bool) : (t.setBit f b).journal = t.journal := t.setFld_journal _ _
@[simp] theorem Tenant.setBit_replay (t : Tenant) (f : Fld) (b : Bool) : (t.setBit f b).replay = t.replay := t.setFld_replay _ _
@[simp] theorem Tenant.setBit_afterReset (t : Tenant) (f : Fld) (b : Bool) : (t.setBit f b).afterReset = t.afterReset := t.setFld_afterReset _ _
@[simp] theorem Tenant.setBit_ring (t : Tenant) (f : Fld) (b : Bool) : (t.setBit f b).ring = t.ring := t.setFld_ring _ _
@[simp] theorem Tenant.setBit_record (t : Tenant) (f : Fld) (b : Bool) : (t.setBit f b).record = t.record := t.setFld_record _ _
@[simp] theorem Tenant.setBit_recordValid (t : Tenant) (f : Fld) (b : Bool) : (t.setBit f b).recordValid = t.recordValid := t.setFld_recordValid _ _
@[simp] theorem Tenant.setBit_handed (t : Tenant) (f : Fld) (b : Bool) : (t.setBit f b).handed = t.handed := t.setFld_handed _ _
@[simp] theorem Tenant.setBit_rendered (t : Tenant) (f : Fld) (b : Bool) : (t.setBit f b).rendered = t.rendered := t.setFld_rendered _ _
@[simp] theorem Tenant.setBit_mirror (t : Tenant) (f : Fld) (b : Bool) : (t.setBit f b).mirror = t.mirror := t.setFld_mirror _ _
@[simp] theorem Tenant.setBit_move (t : Tenant) (f : Fld) (b : Bool) : (t.setBit f b).move = t.move := t.setFld_move _ _
@[simp] theorem Tenant.setBit_mirrorMove (t : Tenant) (f : Fld) (b : Bool) : (t.setBit f b).mirrorMove = t.mirrorMove := t.setFld_mirrorMove _ _
@[simp] theorem Tenant.setBit_waitPromotion (t : Tenant) (f : Fld) (b : Bool) : (t.setBit f b).waitPromotion = t.waitPromotion := t.setFld_waitPromotion _ _
@[simp] theorem Tenant.setBit_resetWait (t : Tenant) (f : Fld) (b : Bool) : (t.setBit f b).resetWait = t.resetWait := t.setFld_resetWait _ _
@[simp] theorem Tenant.setBit_redo (t : Tenant) (f : Fld) (b : Bool) : (t.setBit f b).redo = t.redo := t.setFld_redo _ _
@[simp] theorem Tenant.setBit_lostMirror (t : Tenant) (f : Fld) (b : Bool) : (t.setBit f b).lostMirror = t.lostMirror := t.setFld_lostMirror _ _
@[simp] theorem Tenant.setBit_bufs (t : Tenant) (f : Fld) (b : Bool) : (t.setBit f b).bufs = t.bufs := t.setFld_bufs _ _
@[simp] theorem Tenant.setBit_compo (t : Tenant) (f : Fld) (b : Bool) : (t.setBit f b).compo = t.compo := t.setFld_compo _ _
@[simp] theorem Tenant.setBit_routed (t : Tenant) (f : Fld) (b : Bool) : (t.setBit f b).routed = t.routed := t.setFld_routed _ _
@[simp] theorem Tenant.setBit_audioNext (t : Tenant) (f : Fld) (b : Bool) : (t.setBit f b).audioNext = t.audioNext := t.setFld_audioNext _ _
@[simp] theorem Tenant.setBit_lagWarned (t : Tenant) (f : Fld) (b : Bool) : (t.setBit f b).lagWarned = t.lagWarned := t.setFld_lagWarned _ _
@[simp] theorem Tenant.setBit_savSeen (t : Tenant) (f : Fld) (b : Bool) : (t.setBit f b).savSeen = t.savSeen := t.setFld_savSeen _ _
@[simp] theorem Tenant.setBit_savJobs (t : Tenant) (f : Fld) (b : Bool) : (t.setBit f b).savJobs = t.savJobs := t.setFld_savJobs _ _
@[simp] theorem Tenant.setBit_core_cpu (t : Tenant) (f : Fld) (b : Bool) : (t.setBit f b).core.cpu = t.core.cpu := t.setFld_core_cpu _ _
@[simp] theorem Tenant.setBit_core_mem (t : Tenant) (f : Fld) (b : Bool) : (t.setBit f b).core.mem = t.core.mem := t.setFld_core_mem _ _
@[simp] theorem Tenant.setBit_core_now (t : Tenant) (f : Fld) (b : Bool) : (t.setBit f b).core.now = t.core.now := t.setFld_core_now _ _
@[simp] theorem Tenant.setBit_core_begun (t : Tenant) (f : Fld) (b : Bool) : (t.setBit f b).core.begun = t.core.begun := t.setFld_core_begun _ _
@[simp] theorem Tenant.setBit_core_nextRing (t : Tenant) (f : Fld) (b : Bool) : (t.setBit f b).core.nextRing = t.core.nextRing := t.setFld_core_nextRing _ _
@[simp] theorem Tenant.setBit_core_ringNo (t : Tenant) (f : Fld) (b : Bool) : (t.setBit f b).core.ringNo = t.core.ringNo := t.setFld_core_ringNo _ _
@[simp] theorem Tenant.setBit_core_entered (t : Tenant) (f : Fld) (b : Bool) : (t.setBit f b).core.entered = t.core.entered := t.setFld_core_entered _ _
@[simp] theorem Tenant.setBit_core_posted (t : Tenant) (f : Fld) (b : Bool) : (t.setBit f b).core.posted = t.core.posted := t.setFld_core_posted _ _
@[simp] theorem Tenant.setBit_core_vread (t : Tenant) (f : Fld) (b : Bool) : (t.setBit f b).core.vread = t.core.vread := t.setFld_core_vread _ _
@[simp] theorem Tenant.setBit_core_atc (t : Tenant) (f : Fld) (b : Bool) : (t.setBit f b).core.atc = t.core.atc := t.setFld_core_atc _ _
@[simp] theorem Tenant.setBit_core_rlog (t : Tenant) (f : Fld) (b : Bool) : (t.setBit f b).core.rlog = t.core.rlog := t.setFld_core_rlog _ _
@[simp] theorem Tenant.setBit_core_vold (t : Tenant) (f : Fld) (b : Bool) : (t.setBit f b).core.vold = t.core.vold := t.setFld_core_vold _ _
@[simp] theorem Tenant.setBit_core_sat (t : Tenant) (f : Fld) (b : Bool) : (t.setBit f b).core.sat = t.core.sat := t.setFld_core_sat _ _
@[simp] theorem Tenant.setBit_core_evalNext (t : Tenant) (f : Fld) (b : Bool) : (t.setBit f b).core.evalNext = t.core.evalNext := t.setFld_core_evalNext _ _
@[simp] theorem Tenant.setBit_core_kept (t : Tenant) (f : Fld) (b : Bool) : (t.setBit f b).core.kept = t.core.kept := t.setFld_core_kept _ _
@[simp] theorem Tenant.setBit_core_pal (t : Tenant) (f : Fld) (b : Bool) : (t.setBit f b).core.pal = t.core.pal := t.setFld_core_pal _ _
@[simp] theorem Tenant.setBit_core_palBytes (t : Tenant) (f : Fld) (b : Bool) : (t.setBit f b).core.palBytes = t.core.palBytes := t.setFld_core_palBytes _ _
@[simp] theorem Tenant.setBit_core_palValid (t : Tenant) (f : Fld) (b : Bool) : (t.setBit f b).core.palValid = t.core.palValid := t.setFld_core_palValid _ _
@[simp] theorem Tenant.setBit_core_ras (t : Tenant) (f : Fld) (b : Bool) : (t.setBit f b).core.ras = t.core.ras := t.setFld_core_ras _ _
@[simp] theorem Tenant.setBit_core_lmFrom0 (t : Tenant) (f : Fld) (b : Bool) : (t.setBit f b).core.lmFrom0 = t.core.lmFrom0 := t.setFld_core_lmFrom0 _ _
@[simp] theorem Tenant.setBit_core_lmFrom1 (t : Tenant) (f : Fld) (b : Bool) : (t.setBit f b).core.lmFrom1 = t.core.lmFrom1 := t.setFld_core_lmFrom1 _ _
@[simp] theorem Tenant.setBit_core_lmFrom2 (t : Tenant) (f : Fld) (b : Bool) : (t.setBit f b).core.lmFrom2 = t.core.lmFrom2 := t.setFld_core_lmFrom2 _ _
@[simp] theorem Tenant.setBit_core_lmFrom3 (t : Tenant) (f : Fld) (b : Bool) : (t.setBit f b).core.lmFrom3 = t.core.lmFrom3 := t.setFld_core_lmFrom3 _ _
@[simp] theorem Tenant.setBit_core_snd (t : Tenant) (f : Fld) (b : Bool) : (t.setBit f b).core.snd = t.core.snd := t.setFld_core_snd _ _
@[simp] theorem Tenant.setBit_core_bal (t : Tenant) (f : Fld) (b : Bool) : (t.setBit f b).core.bal = t.core.bal := t.setFld_core_bal _ _
@[simp] theorem Tenant.setBit_core_trail (t : Tenant) (f : Fld) (b : Bool) : (t.setBit f b).core.trail = t.core.trail := t.setFld_core_trail _ _
@[simp] theorem Tenant.setBit_core_qdm (t : Tenant) (f : Fld) (b : Bool) : (t.setBit f b).core.qdm = t.core.qdm := t.setFld_core_qdm _ _
@[simp] theorem Tenant.setBit_core_dma0 (t : Tenant) (f : Fld) (b : Bool) : (t.setBit f b).core.dma0 = t.core.dma0 := t.setFld_core_dma0 _ _
@[simp] theorem Tenant.setBit_core_dma1 (t : Tenant) (f : Fld) (b : Bool) : (t.setBit f b).core.dma1 = t.core.dma1 := t.setFld_core_dma1 _ _
@[simp] theorem Tenant.setBit_core_tmr0 (t : Tenant) (f : Fld) (b : Bool) : (t.setBit f b).core.tmr0 = t.core.tmr0 := t.setFld_core_tmr0 _ _
@[simp] theorem Tenant.setBit_core_tmr1 (t : Tenant) (f : Fld) (b : Bool) : (t.setBit f b).core.tmr1 = t.core.tmr1 := t.setFld_core_tmr1 _ _
@[simp] theorem Tenant.setBit_core_tmr2 (t : Tenant) (f : Fld) (b : Bool) : (t.setBit f b).core.tmr2 = t.core.tmr2 := t.setFld_core_tmr2 _ _
@[simp] theorem Tenant.setBit_core_tmr3 (t : Tenant) (f : Fld) (b : Bool) : (t.setBit f b).core.tmr3 = t.core.tmr3 := t.setFld_core_tmr3 _ _
@[simp] theorem Tenant.setBit_core_sav (t : Tenant) (f : Fld) (b : Bool) : (t.setBit f b).core.sav = t.core.sav := t.setFld_core_sav _ _

/-! count -/

@[simp] theorem Tenant.count_image (t : Tenant) (f : Fld) : (t.count f).image = t.image := t.setWord_image _ _
@[simp] theorem Tenant.count_bindLine (t : Tenant) (f : Fld) : (t.count f).bindLine = t.bindLine := t.setWord_bindLine _ _
@[simp] theorem Tenant.count_bindTick (t : Tenant) (f : Fld) : (t.count f).bindTick = t.bindTick := t.setWord_bindTick _ _
@[simp] theorem Tenant.count_oldLine (t : Tenant) (f : Fld) : (t.count f).oldLine = t.oldLine := t.setWord_oldLine _ _
@[simp] theorem Tenant.count_oldTick (t : Tenant) (f : Fld) : (t.count f).oldTick = t.oldTick := t.setWord_oldTick _ _
@[simp] theorem Tenant.count_stop (t : Tenant) (f : Fld) : (t.count f).stop = t.stop := t.setWord_stop _ _
@[simp] theorem Tenant.count_parkedByModule (t : Tenant) (f : Fld) : (t.count f).parkedByModule = t.parkedByModule := t.setWord_parkedByModule _ _
@[simp] theorem Tenant.count_heldByModule (t : Tenant) (f : Fld) : (t.count f).heldByModule = t.heldByModule := t.setWord_heldByModule _ _
@[simp] theorem Tenant.count_resumeJ (t : Tenant) (f : Fld) : (t.count f).resumeJ = t.resumeJ := t.setWord_resumeJ _ _
@[simp] theorem Tenant.count_inputs (t : Tenant) (f : Fld) : (t.count f).inputs = t.inputs := t.setWord_inputs _ _
@[simp] theorem Tenant.count_reports (t : Tenant) (f : Fld) : (t.count f).reports = t.reports := t.setWord_reports _ _
@[simp] theorem Tenant.count_journal (t : Tenant) (f : Fld) : (t.count f).journal = t.journal := t.setWord_journal _ _
@[simp] theorem Tenant.count_replay (t : Tenant) (f : Fld) : (t.count f).replay = t.replay := t.setWord_replay _ _
@[simp] theorem Tenant.count_afterReset (t : Tenant) (f : Fld) : (t.count f).afterReset = t.afterReset := t.setWord_afterReset _ _
@[simp] theorem Tenant.count_ring (t : Tenant) (f : Fld) : (t.count f).ring = t.ring := t.setWord_ring _ _
@[simp] theorem Tenant.count_record (t : Tenant) (f : Fld) : (t.count f).record = t.record := t.setWord_record _ _
@[simp] theorem Tenant.count_recordValid (t : Tenant) (f : Fld) : (t.count f).recordValid = t.recordValid := t.setWord_recordValid _ _
@[simp] theorem Tenant.count_handed (t : Tenant) (f : Fld) : (t.count f).handed = t.handed := t.setWord_handed _ _
@[simp] theorem Tenant.count_rendered (t : Tenant) (f : Fld) : (t.count f).rendered = t.rendered := t.setWord_rendered _ _
@[simp] theorem Tenant.count_mirror (t : Tenant) (f : Fld) : (t.count f).mirror = t.mirror := t.setWord_mirror _ _
@[simp] theorem Tenant.count_move (t : Tenant) (f : Fld) : (t.count f).move = t.move := t.setWord_move _ _
@[simp] theorem Tenant.count_mirrorMove (t : Tenant) (f : Fld) : (t.count f).mirrorMove = t.mirrorMove := t.setWord_mirrorMove _ _
@[simp] theorem Tenant.count_waitPromotion (t : Tenant) (f : Fld) : (t.count f).waitPromotion = t.waitPromotion := t.setWord_waitPromotion _ _
@[simp] theorem Tenant.count_resetWait (t : Tenant) (f : Fld) : (t.count f).resetWait = t.resetWait := t.setWord_resetWait _ _
@[simp] theorem Tenant.count_redo (t : Tenant) (f : Fld) : (t.count f).redo = t.redo := t.setWord_redo _ _
@[simp] theorem Tenant.count_lostMirror (t : Tenant) (f : Fld) : (t.count f).lostMirror = t.lostMirror := t.setWord_lostMirror _ _
@[simp] theorem Tenant.count_bufs (t : Tenant) (f : Fld) : (t.count f).bufs = t.bufs := t.setWord_bufs _ _
@[simp] theorem Tenant.count_compo (t : Tenant) (f : Fld) : (t.count f).compo = t.compo := t.setWord_compo _ _
@[simp] theorem Tenant.count_routed (t : Tenant) (f : Fld) : (t.count f).routed = t.routed := t.setWord_routed _ _
@[simp] theorem Tenant.count_audioNext (t : Tenant) (f : Fld) : (t.count f).audioNext = t.audioNext := t.setWord_audioNext _ _
@[simp] theorem Tenant.count_lagWarned (t : Tenant) (f : Fld) : (t.count f).lagWarned = t.lagWarned := t.setWord_lagWarned _ _
@[simp] theorem Tenant.count_savSeen (t : Tenant) (f : Fld) : (t.count f).savSeen = t.savSeen := t.setWord_savSeen _ _
@[simp] theorem Tenant.count_savJobs (t : Tenant) (f : Fld) : (t.count f).savJobs = t.savJobs := t.setWord_savJobs _ _
@[simp] theorem Tenant.count_core_cpu (t : Tenant) (f : Fld) : (t.count f).core.cpu = t.core.cpu := t.setWord_core_cpu _ _
@[simp] theorem Tenant.count_core_mem (t : Tenant) (f : Fld) : (t.count f).core.mem = t.core.mem := t.setWord_core_mem _ _
@[simp] theorem Tenant.count_core_now (t : Tenant) (f : Fld) : (t.count f).core.now = t.core.now := t.setWord_core_now _ _
@[simp] theorem Tenant.count_core_begun (t : Tenant) (f : Fld) : (t.count f).core.begun = t.core.begun := t.setWord_core_begun _ _
@[simp] theorem Tenant.count_core_nextRing (t : Tenant) (f : Fld) : (t.count f).core.nextRing = t.core.nextRing := t.setWord_core_nextRing _ _
@[simp] theorem Tenant.count_core_ringNo (t : Tenant) (f : Fld) : (t.count f).core.ringNo = t.core.ringNo := t.setWord_core_ringNo _ _
@[simp] theorem Tenant.count_core_entered (t : Tenant) (f : Fld) : (t.count f).core.entered = t.core.entered := t.setWord_core_entered _ _
@[simp] theorem Tenant.count_core_posted (t : Tenant) (f : Fld) : (t.count f).core.posted = t.core.posted := t.setWord_core_posted _ _
@[simp] theorem Tenant.count_core_vread (t : Tenant) (f : Fld) : (t.count f).core.vread = t.core.vread := t.setWord_core_vread _ _
@[simp] theorem Tenant.count_core_atc (t : Tenant) (f : Fld) : (t.count f).core.atc = t.core.atc := t.setWord_core_atc _ _
@[simp] theorem Tenant.count_core_rlog (t : Tenant) (f : Fld) : (t.count f).core.rlog = t.core.rlog := t.setWord_core_rlog _ _
@[simp] theorem Tenant.count_core_vold (t : Tenant) (f : Fld) : (t.count f).core.vold = t.core.vold := t.setWord_core_vold _ _
@[simp] theorem Tenant.count_core_sat (t : Tenant) (f : Fld) : (t.count f).core.sat = t.core.sat := t.setWord_core_sat _ _
@[simp] theorem Tenant.count_core_evalNext (t : Tenant) (f : Fld) : (t.count f).core.evalNext = t.core.evalNext := t.setWord_core_evalNext _ _
@[simp] theorem Tenant.count_core_kept (t : Tenant) (f : Fld) : (t.count f).core.kept = t.core.kept := t.setWord_core_kept _ _
@[simp] theorem Tenant.count_core_pal (t : Tenant) (f : Fld) : (t.count f).core.pal = t.core.pal := t.setWord_core_pal _ _
@[simp] theorem Tenant.count_core_palBytes (t : Tenant) (f : Fld) : (t.count f).core.palBytes = t.core.palBytes := t.setWord_core_palBytes _ _
@[simp] theorem Tenant.count_core_palValid (t : Tenant) (f : Fld) : (t.count f).core.palValid = t.core.palValid := t.setWord_core_palValid _ _
@[simp] theorem Tenant.count_core_ras (t : Tenant) (f : Fld) : (t.count f).core.ras = t.core.ras := t.setWord_core_ras _ _
@[simp] theorem Tenant.count_core_lmFrom0 (t : Tenant) (f : Fld) : (t.count f).core.lmFrom0 = t.core.lmFrom0 := t.setWord_core_lmFrom0 _ _
@[simp] theorem Tenant.count_core_lmFrom1 (t : Tenant) (f : Fld) : (t.count f).core.lmFrom1 = t.core.lmFrom1 := t.setWord_core_lmFrom1 _ _
@[simp] theorem Tenant.count_core_lmFrom2 (t : Tenant) (f : Fld) : (t.count f).core.lmFrom2 = t.core.lmFrom2 := t.setWord_core_lmFrom2 _ _
@[simp] theorem Tenant.count_core_lmFrom3 (t : Tenant) (f : Fld) : (t.count f).core.lmFrom3 = t.core.lmFrom3 := t.setWord_core_lmFrom3 _ _
@[simp] theorem Tenant.count_core_snd (t : Tenant) (f : Fld) : (t.count f).core.snd = t.core.snd := t.setWord_core_snd _ _
@[simp] theorem Tenant.count_core_bal (t : Tenant) (f : Fld) : (t.count f).core.bal = t.core.bal := t.setWord_core_bal _ _
@[simp] theorem Tenant.count_core_trail (t : Tenant) (f : Fld) : (t.count f).core.trail = t.core.trail := t.setWord_core_trail _ _
@[simp] theorem Tenant.count_core_qdm (t : Tenant) (f : Fld) : (t.count f).core.qdm = t.core.qdm := t.setWord_core_qdm _ _
@[simp] theorem Tenant.count_core_dma0 (t : Tenant) (f : Fld) : (t.count f).core.dma0 = t.core.dma0 := t.setWord_core_dma0 _ _
@[simp] theorem Tenant.count_core_dma1 (t : Tenant) (f : Fld) : (t.count f).core.dma1 = t.core.dma1 := t.setWord_core_dma1 _ _
@[simp] theorem Tenant.count_core_tmr0 (t : Tenant) (f : Fld) : (t.count f).core.tmr0 = t.core.tmr0 := t.setWord_core_tmr0 _ _
@[simp] theorem Tenant.count_core_tmr1 (t : Tenant) (f : Fld) : (t.count f).core.tmr1 = t.core.tmr1 := t.setWord_core_tmr1 _ _
@[simp] theorem Tenant.count_core_tmr2 (t : Tenant) (f : Fld) : (t.count f).core.tmr2 = t.core.tmr2 := t.setWord_core_tmr2 _ _
@[simp] theorem Tenant.count_core_tmr3 (t : Tenant) (f : Fld) : (t.count f).core.tmr3 = t.core.tmr3 := t.setWord_core_tmr3 _ _
@[simp] theorem Tenant.count_core_sav (t : Tenant) (f : Fld) : (t.count f).core.sav = t.core.sav := t.setWord_core_sav _ _

/-! countN -/

@[simp] theorem Tenant.countN_image (t : Tenant) (f : Fld) (n : Nat) : (t.countN f n).image = t.image := t.setWord_image _ _
@[simp] theorem Tenant.countN_bindLine (t : Tenant) (f : Fld) (n : Nat) : (t.countN f n).bindLine = t.bindLine := t.setWord_bindLine _ _
@[simp] theorem Tenant.countN_bindTick (t : Tenant) (f : Fld) (n : Nat) : (t.countN f n).bindTick = t.bindTick := t.setWord_bindTick _ _
@[simp] theorem Tenant.countN_oldLine (t : Tenant) (f : Fld) (n : Nat) : (t.countN f n).oldLine = t.oldLine := t.setWord_oldLine _ _
@[simp] theorem Tenant.countN_oldTick (t : Tenant) (f : Fld) (n : Nat) : (t.countN f n).oldTick = t.oldTick := t.setWord_oldTick _ _
@[simp] theorem Tenant.countN_stop (t : Tenant) (f : Fld) (n : Nat) : (t.countN f n).stop = t.stop := t.setWord_stop _ _
@[simp] theorem Tenant.countN_parkedByModule (t : Tenant) (f : Fld) (n : Nat) : (t.countN f n).parkedByModule = t.parkedByModule := t.setWord_parkedByModule _ _
@[simp] theorem Tenant.countN_heldByModule (t : Tenant) (f : Fld) (n : Nat) : (t.countN f n).heldByModule = t.heldByModule := t.setWord_heldByModule _ _
@[simp] theorem Tenant.countN_resumeJ (t : Tenant) (f : Fld) (n : Nat) : (t.countN f n).resumeJ = t.resumeJ := t.setWord_resumeJ _ _
@[simp] theorem Tenant.countN_inputs (t : Tenant) (f : Fld) (n : Nat) : (t.countN f n).inputs = t.inputs := t.setWord_inputs _ _
@[simp] theorem Tenant.countN_reports (t : Tenant) (f : Fld) (n : Nat) : (t.countN f n).reports = t.reports := t.setWord_reports _ _
@[simp] theorem Tenant.countN_journal (t : Tenant) (f : Fld) (n : Nat) : (t.countN f n).journal = t.journal := t.setWord_journal _ _
@[simp] theorem Tenant.countN_replay (t : Tenant) (f : Fld) (n : Nat) : (t.countN f n).replay = t.replay := t.setWord_replay _ _
@[simp] theorem Tenant.countN_afterReset (t : Tenant) (f : Fld) (n : Nat) : (t.countN f n).afterReset = t.afterReset := t.setWord_afterReset _ _
@[simp] theorem Tenant.countN_ring (t : Tenant) (f : Fld) (n : Nat) : (t.countN f n).ring = t.ring := t.setWord_ring _ _
@[simp] theorem Tenant.countN_record (t : Tenant) (f : Fld) (n : Nat) : (t.countN f n).record = t.record := t.setWord_record _ _
@[simp] theorem Tenant.countN_recordValid (t : Tenant) (f : Fld) (n : Nat) : (t.countN f n).recordValid = t.recordValid := t.setWord_recordValid _ _
@[simp] theorem Tenant.countN_handed (t : Tenant) (f : Fld) (n : Nat) : (t.countN f n).handed = t.handed := t.setWord_handed _ _
@[simp] theorem Tenant.countN_rendered (t : Tenant) (f : Fld) (n : Nat) : (t.countN f n).rendered = t.rendered := t.setWord_rendered _ _
@[simp] theorem Tenant.countN_mirror (t : Tenant) (f : Fld) (n : Nat) : (t.countN f n).mirror = t.mirror := t.setWord_mirror _ _
@[simp] theorem Tenant.countN_move (t : Tenant) (f : Fld) (n : Nat) : (t.countN f n).move = t.move := t.setWord_move _ _
@[simp] theorem Tenant.countN_mirrorMove (t : Tenant) (f : Fld) (n : Nat) : (t.countN f n).mirrorMove = t.mirrorMove := t.setWord_mirrorMove _ _
@[simp] theorem Tenant.countN_waitPromotion (t : Tenant) (f : Fld) (n : Nat) : (t.countN f n).waitPromotion = t.waitPromotion := t.setWord_waitPromotion _ _
@[simp] theorem Tenant.countN_resetWait (t : Tenant) (f : Fld) (n : Nat) : (t.countN f n).resetWait = t.resetWait := t.setWord_resetWait _ _
@[simp] theorem Tenant.countN_redo (t : Tenant) (f : Fld) (n : Nat) : (t.countN f n).redo = t.redo := t.setWord_redo _ _
@[simp] theorem Tenant.countN_lostMirror (t : Tenant) (f : Fld) (n : Nat) : (t.countN f n).lostMirror = t.lostMirror := t.setWord_lostMirror _ _
@[simp] theorem Tenant.countN_bufs (t : Tenant) (f : Fld) (n : Nat) : (t.countN f n).bufs = t.bufs := t.setWord_bufs _ _
@[simp] theorem Tenant.countN_compo (t : Tenant) (f : Fld) (n : Nat) : (t.countN f n).compo = t.compo := t.setWord_compo _ _
@[simp] theorem Tenant.countN_routed (t : Tenant) (f : Fld) (n : Nat) : (t.countN f n).routed = t.routed := t.setWord_routed _ _
@[simp] theorem Tenant.countN_audioNext (t : Tenant) (f : Fld) (n : Nat) : (t.countN f n).audioNext = t.audioNext := t.setWord_audioNext _ _
@[simp] theorem Tenant.countN_lagWarned (t : Tenant) (f : Fld) (n : Nat) : (t.countN f n).lagWarned = t.lagWarned := t.setWord_lagWarned _ _
@[simp] theorem Tenant.countN_savSeen (t : Tenant) (f : Fld) (n : Nat) : (t.countN f n).savSeen = t.savSeen := t.setWord_savSeen _ _
@[simp] theorem Tenant.countN_savJobs (t : Tenant) (f : Fld) (n : Nat) : (t.countN f n).savJobs = t.savJobs := t.setWord_savJobs _ _
@[simp] theorem Tenant.countN_core_cpu (t : Tenant) (f : Fld) (n : Nat) : (t.countN f n).core.cpu = t.core.cpu := t.setWord_core_cpu _ _
@[simp] theorem Tenant.countN_core_mem (t : Tenant) (f : Fld) (n : Nat) : (t.countN f n).core.mem = t.core.mem := t.setWord_core_mem _ _
@[simp] theorem Tenant.countN_core_now (t : Tenant) (f : Fld) (n : Nat) : (t.countN f n).core.now = t.core.now := t.setWord_core_now _ _
@[simp] theorem Tenant.countN_core_begun (t : Tenant) (f : Fld) (n : Nat) : (t.countN f n).core.begun = t.core.begun := t.setWord_core_begun _ _
@[simp] theorem Tenant.countN_core_nextRing (t : Tenant) (f : Fld) (n : Nat) : (t.countN f n).core.nextRing = t.core.nextRing := t.setWord_core_nextRing _ _
@[simp] theorem Tenant.countN_core_ringNo (t : Tenant) (f : Fld) (n : Nat) : (t.countN f n).core.ringNo = t.core.ringNo := t.setWord_core_ringNo _ _
@[simp] theorem Tenant.countN_core_entered (t : Tenant) (f : Fld) (n : Nat) : (t.countN f n).core.entered = t.core.entered := t.setWord_core_entered _ _
@[simp] theorem Tenant.countN_core_posted (t : Tenant) (f : Fld) (n : Nat) : (t.countN f n).core.posted = t.core.posted := t.setWord_core_posted _ _
@[simp] theorem Tenant.countN_core_vread (t : Tenant) (f : Fld) (n : Nat) : (t.countN f n).core.vread = t.core.vread := t.setWord_core_vread _ _
@[simp] theorem Tenant.countN_core_atc (t : Tenant) (f : Fld) (n : Nat) : (t.countN f n).core.atc = t.core.atc := t.setWord_core_atc _ _
@[simp] theorem Tenant.countN_core_rlog (t : Tenant) (f : Fld) (n : Nat) : (t.countN f n).core.rlog = t.core.rlog := t.setWord_core_rlog _ _
@[simp] theorem Tenant.countN_core_vold (t : Tenant) (f : Fld) (n : Nat) : (t.countN f n).core.vold = t.core.vold := t.setWord_core_vold _ _
@[simp] theorem Tenant.countN_core_sat (t : Tenant) (f : Fld) (n : Nat) : (t.countN f n).core.sat = t.core.sat := t.setWord_core_sat _ _
@[simp] theorem Tenant.countN_core_evalNext (t : Tenant) (f : Fld) (n : Nat) : (t.countN f n).core.evalNext = t.core.evalNext := t.setWord_core_evalNext _ _
@[simp] theorem Tenant.countN_core_kept (t : Tenant) (f : Fld) (n : Nat) : (t.countN f n).core.kept = t.core.kept := t.setWord_core_kept _ _
@[simp] theorem Tenant.countN_core_pal (t : Tenant) (f : Fld) (n : Nat) : (t.countN f n).core.pal = t.core.pal := t.setWord_core_pal _ _
@[simp] theorem Tenant.countN_core_palBytes (t : Tenant) (f : Fld) (n : Nat) : (t.countN f n).core.palBytes = t.core.palBytes := t.setWord_core_palBytes _ _
@[simp] theorem Tenant.countN_core_palValid (t : Tenant) (f : Fld) (n : Nat) : (t.countN f n).core.palValid = t.core.palValid := t.setWord_core_palValid _ _
@[simp] theorem Tenant.countN_core_ras (t : Tenant) (f : Fld) (n : Nat) : (t.countN f n).core.ras = t.core.ras := t.setWord_core_ras _ _
@[simp] theorem Tenant.countN_core_lmFrom0 (t : Tenant) (f : Fld) (n : Nat) : (t.countN f n).core.lmFrom0 = t.core.lmFrom0 := t.setWord_core_lmFrom0 _ _
@[simp] theorem Tenant.countN_core_lmFrom1 (t : Tenant) (f : Fld) (n : Nat) : (t.countN f n).core.lmFrom1 = t.core.lmFrom1 := t.setWord_core_lmFrom1 _ _
@[simp] theorem Tenant.countN_core_lmFrom2 (t : Tenant) (f : Fld) (n : Nat) : (t.countN f n).core.lmFrom2 = t.core.lmFrom2 := t.setWord_core_lmFrom2 _ _
@[simp] theorem Tenant.countN_core_lmFrom3 (t : Tenant) (f : Fld) (n : Nat) : (t.countN f n).core.lmFrom3 = t.core.lmFrom3 := t.setWord_core_lmFrom3 _ _
@[simp] theorem Tenant.countN_core_snd (t : Tenant) (f : Fld) (n : Nat) : (t.countN f n).core.snd = t.core.snd := t.setWord_core_snd _ _
@[simp] theorem Tenant.countN_core_bal (t : Tenant) (f : Fld) (n : Nat) : (t.countN f n).core.bal = t.core.bal := t.setWord_core_bal _ _
@[simp] theorem Tenant.countN_core_trail (t : Tenant) (f : Fld) (n : Nat) : (t.countN f n).core.trail = t.core.trail := t.setWord_core_trail _ _
@[simp] theorem Tenant.countN_core_qdm (t : Tenant) (f : Fld) (n : Nat) : (t.countN f n).core.qdm = t.core.qdm := t.setWord_core_qdm _ _
@[simp] theorem Tenant.countN_core_dma0 (t : Tenant) (f : Fld) (n : Nat) : (t.countN f n).core.dma0 = t.core.dma0 := t.setWord_core_dma0 _ _
@[simp] theorem Tenant.countN_core_dma1 (t : Tenant) (f : Fld) (n : Nat) : (t.countN f n).core.dma1 = t.core.dma1 := t.setWord_core_dma1 _ _
@[simp] theorem Tenant.countN_core_tmr0 (t : Tenant) (f : Fld) (n : Nat) : (t.countN f n).core.tmr0 = t.core.tmr0 := t.setWord_core_tmr0 _ _
@[simp] theorem Tenant.countN_core_tmr1 (t : Tenant) (f : Fld) (n : Nat) : (t.countN f n).core.tmr1 = t.core.tmr1 := t.setWord_core_tmr1 _ _
@[simp] theorem Tenant.countN_core_tmr2 (t : Tenant) (f : Fld) (n : Nat) : (t.countN f n).core.tmr2 = t.core.tmr2 := t.setWord_core_tmr2 _ _
@[simp] theorem Tenant.countN_core_tmr3 (t : Tenant) (f : Fld) (n : Nat) : (t.countN f n).core.tmr3 = t.core.tmr3 := t.setWord_core_tmr3 _ _
@[simp] theorem Tenant.countN_core_sav (t : Tenant) (f : Fld) (n : Nat) : (t.countN f n).core.sav = t.core.sav := t.setWord_core_sav _ _

theorem Tenant.word_setWord (t : Tenant) (k j : Nat) (v : Word) :
    (t.setWord k v).word j = if j = k then v else t.word j := by
  unfold Tenant.setWord
  by_cases hk : isCoreWord k = true
  · rw [if_pos hk]
    unfold Tenant.word
    by_cases hj : isCoreWord j = true
    · simp only [if_pos hj]
      exact Store.get_setAt tenantRst _ _ _ _
    · simp only [if_neg hj]
      rw [if_neg]
      exact fun e => hj (e ▸ hk)
  · rw [if_neg hk]
    unfold Tenant.word
    by_cases hj : isCoreWord j = true
    · simp only [if_pos hj]
      rw [if_neg]
      exact fun e => hk (e ▸ hj)
    · simp only [if_neg hj]
      exact Store.get_setAt tenantRst _ _ _ _

theorem Tenant.word_setFld (t : Tenant) (f : Fld) (v j : Nat) :
    (t.setFld f v).word j = if j = f.key then setBits (t.word f.key) f.lo f.w v else t.word j := t.word_setWord _ _ _

/-- A field set reads as the value set. -/
theorem Tenant.fld_setFld (t : Tenant) (f : Fld) (v : Nat) (h : f.lo + f.w ≤ 32) : (t.setFld f v).fld f = v % 2 ^ f.w := by
  rw [Tenant.fld, Tenant.word_setFld, if_pos rfl, getBits_setBits _ _ _ _ h]

/-- A field set leaves every other field. -/
theorem Tenant.fld_setFld_of_ne (t : Tenant) (f h : Fld) (v : Nat)
    (d : h.key ≠ f.key ∨ h.lo + h.w ≤ f.lo ∨ f.lo + f.w ≤ h.lo) : (t.setFld f v).fld h = t.fld h := by
  rw [Tenant.fld, Tenant.word_setFld]
  split
  · next e =>
    rw [getBits_setBits_of_disjoint _ _ _ _ _ _ (by rcases d with d | d <;> [exact absurd e d; exact d]), Tenant.fld, e]
  · rfl

theorem Tenant.bit_setBit (t : Tenant) (f : Fld) (b : Bool) (h : f.lo + 1 ≤ 32) (w : f.w = 1) : (t.setBit f b).bit f = b := by
  rw [Tenant.bit, Tenant.setBit, Tenant.fld_setFld _ _ _ (by omega), w]
  cases b <;> rfl

theorem Tenant.bit_setBit_of_ne (t : Tenant) (f h : Fld) (b : Bool)
    (d : h.key ≠ f.key ∨ h.lo + h.w ≤ f.lo ∨ f.lo + f.w ≤ h.lo) : (t.setBit f b).bit h = t.bit h := by
  rw [Tenant.bit, Tenant.setBit, Tenant.fld_setFld_of_ne _ _ _ _ d, Tenant.bit]

theorem Tenant.word_count (t : Tenant) (f : Fld) (j : Nat) :
    (t.count f).word j = if j = f.key then satInc (t.word j) else t.word j := by
  rw [Tenant.count, Tenant.word_setWord]
  split
  · next h => rw [h]
  · rfl

theorem Tenant.fld_count_of_ne (t : Tenant) (f h : Fld) (d : h.key ≠ f.key) : (t.count f).fld h = t.fld h := by
  rw [Tenant.fld, Tenant.word_count, if_neg d, Tenant.fld]

theorem Tenant.bit_count_of_ne (t : Tenant) (f h : Fld) (d : h.key ≠ f.key) : (t.count f).bit h = t.bit h := by
  rw [Tenant.bit, Tenant.fld_count_of_ne _ _ _ d, Tenant.bit]

end Sys2Proof.Machine
end

