-- ==== Sys2Proof/Tests/Slice0.lean ====
section
/-! SUPPORT. Tests of the model: ill-formed commands that each check refuses, encodings written out from the spec's tables,
single steps, and states that meet the hypotheses of the statements. -/

namespace Sys2Proof.Tests

open Sys2Proof.Machine

set_option Elab.async false

/-! Helpers. -/

/-- A gate whose submission ring of 16 slots holds a message. -/
def ringed : Gate :=
  ((Gate.reset.setFld F.BAR4_RING_CTRL_EN 1).setFld F.BAR4_SQ_SIZE_SIZE 16).setFld F.BAR4_SQ_TAIL_TAIL 1

/-- A module that is on and enabled, with both gate links up, a message in its submission ring and no tenant. -/
def on : State :=
  let s := { State.reset with power := { State.reset.power with mode := .on }, gate := ringed }
  (((s.setFld F.GTE_STATUS_LINK 3).setBit F.MOD_EN true).setBit F.MOD_STATUS_ENGINES_UP true).setBit F.MOD_STATUS_READY true

/-- A RUNNING tenant 0 in home slot 0 with an execution state. -/
def tenant (c : Core) : Tenant :=
  ({ Tenant.reset with core := c }.setFld F.TEN_CONT_STATE 2).setFld F.TEN_PLACE_SLOT 0

/-- The execution state at cycle 10 of line 0, with a program at 0x200 in work RAM. -/
def prog (hs : List Half) : Core :=
  { Core.reset with
    cpu := { Cpu.reset with pc := 0x200 }
    mem := memPut [] 0x200 (hs.flatMap (leBytes 2))
    now := 10, begun := 1, entered := true, nextRing := 1000, evalNext := 100
    snd := { Sound.reset with ticks := 1 } }

/-- The module with tenant 0 in an execution state. -/
def run (c : Core) : State := on.setTenant 0 (tenant c)

/-- The module with tenant 0 before a program. -/
def cpu (hs : List Half) : State := run (prog hs)

/-- Whether instruction `i` of tenant 0 is ready in the module whose tenant 0 stands before it, and its condition has the
value `c`. -/
def meets (c : Bool) (i : Instr) : Bool :=
  match zencode i with
  | none => false
  | some (a, b) =>
    let s := cpu (a :: b.toList)
    (s.cpuReady 0 i).any fun t =>
      [Cond.al, .cs].any fun cc => ((encodeShort i).map (fun x => x.1) == some cc
        || (encodeLong i).map (fun x => x.1) == some cc) && t.holds (s.geo 0) cc == c

/-- The next state of a command, where it has one. -/
def after (i : Instr) (s : State) : Option State :=
  match exec i s with
  | .next u => some u
  | _ => none

/-- A message of HOST-A about tenant 0 and one about the module. -/
def msg : Msg := ⟨.a, 1, .one, none, none, 0, 7, 0, 0, 0, 0, 0, ⟨false, 0, 0⟩, 0⟩

/-! Well-formed commands. -/

theorem test_wf_short_condition : shortCondOk (.nop 0 .vs) = false := by decide +kernel
theorem test_wf_data_length : dataLenOk (.imageChunk msg 0 0 []) = false := by decide +kernel
theorem test_wf_scrub_address : scrubAddrOk (.scrubRead 0 0x2B0000 .clean) = false := by decide +kernel
theorem test_wf_credit_path : creditPathOk (.creditReturn (.mirror 0 1)) = false := by decide +kernel
theorem test_wf_good : (Instr.add 0 .al 1 2).wf = true := by decide +kernel

/-! Encodings (R113, R114), bit by bit. -/

theorem test_encoding_add : zdecode 0 0b0_000_0010_00_011_101 0 = some (.add 0 .al 3 5) := by decide +kernel
theorem test_encoding_ldiw : zdecode 0 0b1_0000_0000001_0_100 0x1234 = some (.ldiw 0 .al 2 0x1234) := by decide +kernel
theorem test_encoding_bra : zdecode 0 0b0_000_0110_11111110 0 = some (.bra 0 .al 0xFE) := by decide +kernel
theorem test_encoding_reserved : zdecode 0 0b0_000_0000_00001110 0 = none := by decide +kernel

/-! CPU statements: each instruction is ready in some state with its condition true; one with its condition false. -/

theorem test_ready_arithmetic8 : [Instr.add 0 .al 1 2, .adc 0 .al 1 2, .addi 0 .al (.long 3) 7, .inc 0 .al 4].all (meets true)
    = true := by decide +kernel
theorem test_ready_arithmetic16 : [Instr.addw 0 .al 1 2, .mul 0 .al 1 2 3].all (meets true) = true := by decide +kernel
theorem test_ready_moves : [Instr.mov 0 .al 1 2, .ldiw 0 .al 2 0x1234, .sel 0 .al 1 2 3 .cs].all (meets true) = true := by
  decide +kernel
theorem test_ready_select_skipped : meets false (.sel 0 .cs 1 2 3 .al) = true := by decide +kernel
theorem test_ready_condition_false : meets false (.add 0 .cs 1 2) = true := by decide +kernel
theorem test_ready_pointers : [Instr.ldpi 0 .al 1 0x4000, .lea 0 .al 1 6].all (meets true) = true := by decide +kernel
theorem test_ready_loads : [Instr.ld 0 .al 1 (.short 2 true), .pop 0 .al 1].all (meets true) = true := by decide +kernel
theorem test_ready_stores : [Instr.st 0 .al 1 (.long 2 4), .push 0 .al 1].all (meets true) = true := by decide +kernel
theorem test_ready_transfers : [Instr.bra 0 .al 0x10, .call 0 .al (.rel8 4), .ret 0 .al, .dbnz 0 .al 1 0xFFF0].all
    (meets true) = true := by decide +kernel
theorem test_ready_system : [Instr.nop 0 .al, .wait 0 .al, .fence 0 .al, .rtt 0 .al].all (meets true) = true := by
  decide +kernel
theorem test_ready_decimal : [Instr.dajA 0 .al, .addp 0 .al 1 2 3 true].all (meets true) = true := by decide +kernel


/-- The module whose tenant 0 is `f` of the one in an execution state. -/
def runWith (f : Tenant → Tenant) (c : Core) : State := on.setTenant 0 (f (tenant c))

/-- The execution state before a NOP. -/
def idle : Core := prog [0]

/-- Whether event `ev` of tenant 0 is ready and the tenant meets `p`. -/
def due (s : State) (ev : Ev) (p : Tenant → Nat → Bool) : Bool :=
  ((s.tenant 0).ready (s.geo 0) ev).any fun x => x.1.executes && p x.1 x.2

theorem test_ready_reserved : ((cpu [0x000E]).trapReady 0).any (fun t => !t.core.cpu.fT &&
    (t.fetch ((cpu [0x000E]).geo 0)).any fun h => zdecode 0 h.1 h.2 == none) = true := by decide +kernel
theorem test_ready_double_trap : ((run { prog [0x000E] with cpu := { (prog []).cpu with f := 0x40 } }).trapReady 0).any
    (fun t => t.core.cpu.fT) = true := by decide +kernel
theorem test_ready_fetch_fault : ((run { idle with cpu := { idle.cpu with pc := 0xFFFFF0 } }).trapReady 0).any
    (fun t => !t.core.cpu.fT && t.fetch (on.geo 0) == none) = true := by decide +kernel

/-- A tenant whose software source 16 is pending at priority 3. -/
def pending16 (t : Tenant) : Tenant :=
  ((t.setFld ⟨0x8008 / 4, 0, 1⟩ 1).setFld F.IRQ_SWI_SWI 1).setFld (F.IRQ_PRIO_PRIO_LO 8) 3

/-- The CPU with interrupts enabled. -/
def enabled : Core := { idle with cpu := { idle.cpu with f := 0x20 } }

theorem test_ready_interrupt : (((runWith pending16 enabled).tenant 0).atBoundary (on.geo 0)).any
    (fun t => t.interrupt == some (16, 3)) = true := by decide +kernel
theorem test_ready_wait_end :
    let t := (runWith pending16 { enabled with cpu := { enabled.cpu with wait := some 5 } }).tenant 0
    (t.executes && t.wakes && t.ring == none && allEvents.all fun x =>
      match t.due (on.geo 0) x with
      | some c => decide (10 < c)
      | none => true) = true := by decide +kernel
theorem test_ready_boundary : (((cpu [0]).tenant 0).atBoundary ((cpu [0]).geo 0)).isSome = true := by decide +kernel

/-- A tenant whose timer 0 runs on tenant cycles. -/
def timing (t : Tenant) : Tenant := (t.setFld ⟨0x7008 / 4, 0, 1⟩ 1).setFld (F.TMR_CFG_RUN 0) 1

theorem test_ready_timer_wrap : due (runWith (fun t => (timing t).setFld (F.TMR_RELOAD_RELOAD 0) 0) idle) (.timer 0)
    (fun t _ => decide (t.fld (F.TMR_RELOAD_RELOAD 0) ≤ (t.core.timer 0).count.toNat)) = true := by decide +kernel
theorem test_ready_timer_tick : due (runWith (fun t => (timing t).setFld (F.TMR_RELOAD_RELOAD 0) 9) idle) (.timer 0)
    (fun t _ => decide ((t.core.timer 0).count.toNat < t.fld (F.TMR_RELOAD_RELOAD 0))) = true := by decide +kernel

/-- The module with the sector blitter enabled and a trail of tenant 0 at the entry `b`. -/
def trail (b : BitVec 128) : State :=
  (run { idle with now := 100, trail := some ⟨0x4000, some b, 20, 20, false, false, ⟨0, 0⟩⟩ }).setBit (F.SBLT_EN 0) true

/-- Whether the entry of a trail is ready with code `op`, and does not stop the trail. -/
def trailAt (op : Nat) (b : BitVec 128) : Bool :=
  ((trail b).trailReady 0).any fun x => x.2.2.1.op == op && x.2.2.1.stop ((trail b).geo 0) x.2.1.entry == none

/-- A trail entry that fills 2 by 1 pixels of 8 bits at 0x5000 with 0xAB. -/
def fill : BitVec 128 := 2 + 2 ^ 4 + 0xAB * 2 ^ 8 + 2 * 2 ^ 16 + 1 * 2 ^ 32 + 0x5000 * 2 ^ 72

theorem test_ready_trail_end : trailAt 0 0 = true := by decide +kernel
theorem test_ready_trail_link : trailAt 5 (5 + 0x4100 * 2 ^ 48) = true := by decide +kernel
theorem test_ready_trail_wait :
    let s := (run { idle with now := 20400, begun := 21, nextRing := 30000, snd := { Sound.reset with ticks := 40 }
                              trail := some ⟨0x4000, some (6 + 20 * 2 ^ 16), 20, 20, false, false, ⟨0, 0⟩⟩ }).setBit (F.SBLT_EN 0) true
    (s.trailReady 0).any (fun x => x.2.2.1.op == 6 && x.2.2.1.stop (s.geo 0) x.2.1.entry == none) = true := by decide +kernel
theorem test_ready_trail_signal : trailAt 7 7 = true := by decide +kernel
theorem test_ready_trail_stop : ((trail 15).trailReady 0).any
    (fun x => (x.2.2.1.stop ((trail 15).geo 0) x.2.1.entry).isSome) = true := by decide +kernel
theorem test_ready_trail_fill : (trailAt 2 fill && !((trail fill).tenant 0).trailStale) = true := by decide +kernel
theorem test_fill_writes : ((after (.fill 0) (trail fill)).map fun u =>
    ((u.tenant 0).core.ramByte 0x5000, (u.tenant 0).core.ramByte 0x5001, (u.tenant 0).core.ramByte 0x5002))
    = some (0xAB, 0xAB, 0) := by decide +kernel
theorem test_ready_raster : due (run { idle with now := 600, ras := ⟨true, 0, 1, some 0, 20, 0, 0⟩ }) .raster
    (fun t _ => t.core.ras.entry.isSome) = true := by decide +kernel
theorem test_ready_line_match : due (runWith (fun t => (t.setBit (F.RAS_LM_LINE_EN 0) true).setBit (F.RAS_LM_LINE_EVERY 0) true)
    { idle with lmFrom0 := 0 }) (.lineMatch 0) (fun _ _ => true) = true := by decide +kernel
theorem test_ready_sprites : due (run { idle with evalNext := 0, now := 20 }) .sprite (fun _ _ => true) = true := by
  decide +kernel
theorem test_ready_audio : due (run { idle with snd := Sound.reset }) .audio (fun _ _ => true) = true := by decide +kernel
theorem test_ready_quick_dma : due (run { idle with now := 100, qdm := some ⟨0x100, 0x5000, 8, 20, ⟨0, 0⟩⟩ }) .qdm
    (fun t _ => t.core.qdm.any fun q => decide (q.len ≤ 2 ^ 24)) = true := by decide +kernel

/-- A DMA item with a burst of one byte in progress. -/
def item : DmaItem := ⟨0, 1, 2, 0x100, 0x5000, 0, 0, 0, some (20, 1), none, false, false, ⟨0, 0⟩⟩

/-- The module with that item on channel 0 of tenant 0 and physical channel 0 of an enabled page. -/
def dma (i : DmaItem) : State :=
  ((((run { idle with now := 100, dma0 := some i }).setBit ⟨0x42008 / 4, 0, 1⟩ true).setBit (F.SDMA_CH_BUSY 0 0) true).setFld
    (F.SDMA_CH_TENANT 0 0) 0).setFld (F.SDMA_CH_TCH 0 0) 0

theorem test_ready_burst : ((dma item).burstReady 0 0).any (fun x =>
    (dma item).chOf x.1.sector 0 0 == some 0 && (dma item).chEn x.1.sector 0 && !(dma item).dmaStopped x.1.sector &&
      !x.1.burstBusError ((dma item).geo 0) x.2.2 x.2.1 && !x.1.replaysFault 0 x.2.2 && x.2.1.busy == some (20, 1)
        && (dma item).burstFlows 0 0 && !((dma item).tenant 0).dmaStale 0 && !x.2.1.failed && !x.2.1.terminated) = true := by decide +kernel
theorem test_ready_bus_error :
    let s := dma { item with src := 0x20000 }
    (s.burstReady 0 0).any (fun x => x.1.burstBusError (s.geo 0) x.2.2 x.2.1) = true := by decide +kernel
theorem test_ready_channel :
    let s := (run { idle with dma0 := some item }).setBit ⟨0x42008 / 4, 0, 1⟩ true
    (s.chOf 0 0 0 == none && s.chEn 0 0 && !s.bit (F.SDMA_CH_BUSY 0 0) && !s.dmaStopped 0) = true := by decide +kernel
theorem test_ready_restart :
    let s := (dma item).setBit (F.SDMA_STATUS_STOPPED 0) true
    (s.dmaStopped 0 && s.bit (F.SDMA_CH_BUSY 0 0) && (s.sdma 0).running.isEmpty) = true := by decide +kernel
theorem test_ready_resumed :
    let s := on.setBit (F.SDMA_STATUS_STOPPED 0) true
    (s.dmaStopped 0 && (List.range 64).all fun n => !s.bit (F.SDMA_CH_BUSY (n / 16) (n % 16))) = true := by decide +kernel

/-! Lines, rings, mirrors, pictures, NVS. -/

/-- The first cycle of line 1. -/
def lineEnd : Core := { idle with now := 1016, nextRing := 5000, snd := { Sound.reset with ticks := 2 } }

theorem test_ready_line : ((run lineEnd).lineReady 0 10000000 false).isSome = true := by decide +kernel
/-- The first cycle of tenant time, whose audio tick has come. -/
def first : Core := { Core.reset with snd := { Sound.reset with ticks := 1 } }

theorem test_ready_frame : ((run first).lineReady 0 10000000 true).isSome = true := by decide +kernel
theorem test_frame_enters : (((after (.tenantFrameStart 0 10000000) (run first)).map fun u =>
    ((u.tenant 0).core.now, (u.tenant 0).core.cpu.sp)) = some (4, 0x4000)) := by decide +kernel
theorem test_ready_hold :
    let s := runWith (fun t => { t with stop := .hold }) first
    (((s.tenant 0).ready (s.geo 0) .line).isSome && (s.tenant 0).executes && (s.tenant 0).ring == none) = true := by
  decide +kernel
theorem test_ready_pace :
    let s := runWith (fun t => { t with bindTick := 10000000 }) first
    decide (s.tick < (s.tenant 0).release (s.geo 0) 0) = true := by decide +kernel
theorem test_ready_ring : due (run { idle with nextRing := 5 }) .ring (fun _ _ => true) = true := by decide +kernel
theorem test_ready_commit : (runWith (fun t => { t with ring := some ⟨0, idle, idle.cpu, 0, 0⟩ }) idle).tenant 0 |>.ring.isSome := by
  decide +kernel

/-- Tenant 0 runs on engine 0, and engine 9 of the next sector is in service. -/
def twoEngines (f : Tenant → Tenant) : State :=
  ((runWith f idle).setFld (F.RNG_STATUS_ESTATE 0) 0).setFld (F.RNG_STATUS_ESTATE 9) 0

theorem test_ready_mirror_create :
    let s := twoEngines id
    (s.wantsMirror 0 && (s.tenant 0).mirror == none && (s.tenant 0).engine == some 0 && s.mayMirror 9 0 && s.usable 9) = true := by
  decide +kernel

/-- A tenant with a live mirror in slot 144, of which the stream holds `n` entries of one byte. -/
def mirrored (n : Nat) (t : Tenant) : Tenant :=
  ({ t with mirror := some ⟨List.replicate n (.write [(0, 1)]), [], [], true, true, true⟩ }.setFld F.TEN_MIRROR_MSLOT 144).setFld
    F.TEN_MIRROR_MSTATE 1

theorem test_ready_mirror_stage :
    let s := twoEngines (mirrored 1)
    (s.wantsMirror 0 && s.mirrorUp 0 && (s.tenant 0).mirror.any fun m => m.live && m.synced) = true := by decide +kernel
theorem test_ready_mirror_cold : decide (8192 < (List.replicate 100 (MEntry.write (List.replicate 80 (0, 1)))).foldl
    (fun x e => x + e.size) 0) = true := by decide +kernel
theorem test_ready_render : (firstLine ((run { idle with now := 950, snd := { Sound.reset with ticks := 2 } }).renderQueue 0))
    = some (0 + (on.geo 0).lineTicks, 0, 0, 0) := by decide +kernel

/-- The module whose compositor 0 has a line of tenant 0 to compose. -/
def composing : State :=
  (runWith (fun t => { t with bufs := [⟨1, List.replicate 320 5⟩], rendered := 2, handed := 2 }) idle).setBit (F.CMP_EN 0) true

theorem test_ready_compose : (((composing.setFld (F.RNG_STATUS_ESTATE 0) 0).countStalls 0).nextLine 0).isSome = true := by
  decide +kernel

/-- The module with a page write of NVS in its queue. -/
def writing : State := { on with nvs := { on.nvs with queue := [⟨5, memPut [] 0 [1, 2], .image⟩] } }

theorem test_ready_nvs : writing.nvs.queue.length = 1 := by decide +kernel
theorem test_ready_save : due (run { idle with now := 100, sav := some ⟨1, 20, 0⟩ }) .sav
    (fun t e => t.core.sav.any fun x => !t.savSeen.contains (x.epoch, e)) = true := by decide +kernel
theorem test_ready_reset :
    let s := runWith (fun t => t.setFld F.TEN_CONT_STATE 5) Core.reset
    ((s.tenant 0).fld F.TEN_CONT_STATE == 5 && !(s.tenant 0).unplaced && (s.tenant 0).afterReset.isEmpty) = true := by
  decide +kernel

/-! The gate. -/

/-- Whether a command arrives (Rule.Arrives). -/
def arrives (s : State) (i : Instr) : Bool :=
  s.power.mode == .on &&
  match inbound i with
  | none => !s.mustWait i
  | some (m, ty, pay) => s.fld F.GTE_STATUS_LINK != 0 && (s.admitB m ty pay).2 && formOk i m ty pay &&
      !(s.admitB m ty pay).1.mustWait i && !(s.admitB m ty pay).1.stale i m ty && (s.admitB m ty pay).1.bit F.MOD_EN

/-- A message about the module or a tenant, of epoch 0, with LENGTH `n`, to the port of HOST-B's datagrams. -/
def about (tenant : Half) (n : Half) : Msg := ⟨.a, 1, .one, none, none, 0, 7, tenant, 0, n, 0, 0, ⟨false, 0, 0⟩, 50310⟩

theorem test_arrives_write : arrives on (.configWrite (.gate (about 0xFFFF 12)) 0x7020 15 1) = true := by decide +kernel
theorem test_arrives_read : arrives on (.configRead (.gate (about 0xFFFF 4)) 0x7020) = true := by decide +kernel
theorem test_arrives_supervisor : arrives on (.configWrite (.sup 1) 0x7020 15 1) = true := by decide +kernel
theorem test_arrives_reserved : arrives on (.configRead (.gate (about 0xFFFF 4)) 0xF00004) = true ∧ pageOf 0xF00004 = none := by
  decide +kernel
theorem test_arrives_version : arrives on (.configRead (.gate (about 0xFFFF 4)) 0x1004) = true ∧ (pageOf 0x1004).isSome = true := by
  decide +kernel
theorem test_read_version : ((after (.configRead (.gate (about 0xFFFF 4)) 0x1004) on).map fun u => u.gate.pcie)
    = some [.readReply 7 0xFFFF 0 0xFFFF 0x100] ∨ ((after (.configRead (.gate (about 0xFFFF 4)) 0x1004) on).map fun u => u.gate.pcie)
    = some [.readReply 7 0xFFFF 0 0 0x100] := by decide +kernel
theorem test_arrives_hold : arrives (run idle) (.hold (about 0 4)) = true := by decide +kernel
theorem test_arrives_mail : arrives (run idle) (.mail (about 0 12) 4 [1, 2, 3, 4]) = true := by decide +kernel
theorem test_hold_sets : ((after (.hold (about 0 4)) (run idle)).map fun u => (u.tenant 0).stop) = some .hold := by
  decide +kernel
theorem test_arrives_start : arrives (runWith (fun t => t.setFld F.TEN_CONT_STATE 1) Core.reset) (.start (about 0 4) 0) = true := by
  decide +kernel
theorem test_arrives_chunk : arrives on (.imageChunk (about 0xFFFF 9) 0 0x100 [7]) = true := by decide +kernel
theorem test_arrives_overlay : arrives (run idle) (.overlayWrite (about 0 9) 0 0 [7]) = true := by decide +kernel
theorem test_arrives_preview : arrives (run idle) (.previewReq (about 0 4) 0 0 5) = true := by decide +kernel
theorem test_arrives_wake : arrives on (.wake (about 0xFFFF 0)) = true := by decide +kernel
theorem test_drop_length : ((after (.wake (about 0xFFFF 3)) on).map fun u =>
    (u.fld F.GTE_DROP_CAUSE_CHECK, u.bit F.GTE_STATUS_DROP_SEEN)) = some (4, true) := by decide +kernel
theorem test_drop_key : ((after (.wake { about 0xFFFF 0 with host := .b }) ((on.setFld F.GTE_HB_RATE_RATE 9).setBit F.GTE_CFG_V4_EN true)).map fun u =>
    u.fld F.GTE_DROP_CAUSE_CHECK) = some 2 := by decide +kernel

/-! The module. -/

/-- The module RUN, with engine 0 in service and out of reset. -/
def served : State :=
  (((on.setFld F.PWR_STATUS_STATE 2).setFld (F.RNG_STATUS_ESTATE 0) 0).setRstEng 0 false).setFld F.CLK_RST_SEC_SEC 0

theorem test_arrives_power : arrives served (.powerPark (.sup 1) 15 0) = true := by decide +kernel
theorem test_invariant_holds : (on.regsWf && on.hbmWf && on.tenantsWf && (run idle).tenantsWf) = true := by decide +kernel
theorem test_phase_values : ((on.setFld F.FWU_STATUS_PHASE 2).fld F.FWU_STATUS_PHASE, on.fld F.FWU_STATUS_PHASE) = (2, 0) := by
  decide +kernel
theorem test_feeds_absent : (State.reset.power.mode == .off && !State.reset.feed false && !State.reset.feed true) = true := by
  decide +kernel
theorem test_warning : ((after (.temperatureWarning 78) on).map fun u => u.power.warned) = some 78 := by decide +kernel
theorem test_park_done : ((after .parkComplete (served.setFld F.PWR_STATUS_STATE 3)).map fun u =>
    (u.fld F.PWR_STATUS_STATE, u.estate 0)) = some (4, 6) := by decide +kernel
theorem test_calendar_carry : (Calendar.next ⟨2999, 12, 31, 23, 59, 59, 99⟩).year = 2000 := by decide +kernel
theorem test_panel_ready : ({ on with panel := { on.panel with ready := true } }.panel.ready
    && !on.bit F.NVS_STATUS_PFW) = true := by decide +kernel

/-- Module timer 0 enabled, at its last count. -/
def mtimer : State :=
  { (on.setBit (F.MTM_EN 0) true) with mt := [(0, { Mt.reset with count := 0xFFFFFFFFFFFF, owed := 1 })] }

theorem test_timer_enabled : (mtimer.bit (F.MTM_EN 0) && decide (0 < (mtimer.mtm 0).owed)) = true := by decide +kernel
theorem test_timer_returns : ((after (.mtReturnToZero 0) mtimer).map fun u => (u.mtm 0).count) = some 0 := by decide +kernel
theorem test_capture :
    let s := { (on.setFld (F.MTM_CH_CTRL_MODE 0 0) 1) with mt := [(0, { Mt.reset with ch := [(0, { MtCh.reset with level := true })] })] }
    let b := s.advance (s.captureTick 0 0)
    (b.fld (F.MTM_CH_CTRL_MODE 0 0) == 1 && ((b.mtm 0).chan 0).level && !b.captureIn 0 0 && b.filtered 0 0) = true := by decide +kernel
theorem test_pio_tick :
    let s := { ((on.setBit (F.PIO_EN 0) true).setFld (F.PIO_RUN_RUN 0) 1) with pio := [(0, { PioCh.reset with owed := 1 })] }
    (s.pioTick 0 0).isSome = true := by decide +kernel
theorem test_pin_edge : (on.pinDrive 3 == none && ((after (.pinEdge 3 (some true)) on).any fun u => u.pins.venue.getLsbD 3)) = true := by
  decide +kernel
theorem test_link_up : ((after (.linkUp 2 false) (on.setBit (F.PRT_CFG_TX_ON 2) true)).map fun u => u.bit (F.PRT_STATUS_LINK_UP 2)) = some true := by
  decide +kernel

/-- Port 2 up and transmitting, with an enabled entry 0 of tenant 0 on it. -/
def heard : State :=
  ((((((((run idle).setBit (F.PRT_CFG_TX_ON 2) true).setBit (F.PRT_STATUS_LINK_UP 2) true).setBit (F.PRT_EN 2) true).setBit (F.STN_EN 0) true).setBit
    (F.STN_ENT_CTRL_EN 0 0) true).setFld (F.STN_PORTS_PORT_A 0 0) 2).setFld (F.STN_ENT_CTRL_TENANT 0 0) 0)

/-- A station's message for entry 0. -/
def rx : Rx := ⟨2, 0, 0, 1, 0, 0, 0, 1⟩

theorem test_heard : (heard.portUp 2 && heard.matchEntry rx == some 0 && !(heard.entry 0).heard) = true := by decide +kernel
theorem test_input : ((after (.input rx 2 [5, 6]) heard).map fun u => (u.tenant 0).reports.map fun r => r.data)
    = some [[5, 6]] := by decide +kernel
theorem test_refused : (heard.portUp 2 && ({ rx with ver := 2 } : Rx).ver != 1) = true := by decide +kernel
theorem test_absent : ((after (.stationAbsent 0) (heard.setFld (F.STN_STATE_STATE 0 0) 2)).map fun u =>
    u.efld F.STN_STATE_STATE 0) = some 3 := by decide +kernel

/-- An item of entry 0 to be pushed. -/
def pushing : State := { (heard.setBit F.PSH_EN true) with push := [⟨0, 0, 0, 0, 1, 0, false⟩] }

theorem test_push_item : (pushing.openItems 0).length = 1 := by decide +kernel

/-! Credits, units and failover. -/

theorem test_path_open : on.pathOpen (.egress 2) = true ∧ (on.credit (.egress 2)).held = 512 := by decide +kernel
theorem test_flit : ((after (.flitSend (.egress 2) [3, 1]) on).map fun u => (u.credit (.egress 2)).held) = some 511 := by
  decide +kernel
theorem test_credit_empty : (({ on with credits := [⟨.egress 2, 0, 0⟩] } : State).credit (.egress 2)).held = 0 := by
  decide +kernel
theorem test_credit_over : ((after (.creditReturn (.egress 2)) on).map fun u => u.word F.MOD_CREDIT_OVER_COUNT.key)
    = some 1 := by decide +kernel

/-- Source 364 with target EVENT and priority 1. -/
def source : State :=
  (((on.setBit F.GTE_STATUS_WAKE_RX true).setFld (F.MIQ_SRC_TARGET 364) 3).setFld (F.MIQ_SRC_PRIO 364) 1).newCycle

theorem test_event_qualifies : source.qualifies 3 364 = true := by decide +kernel
theorem test_event_sent : ((after (.event 364) source).map fun u => u.miq) = some [364] := by decide +kernel
theorem test_lantern : ((after .lanternSample { State.reset with power := { State.reset.power with mode := .dormant } }).map
    fun u => Store.get 0 u.lan 0) = some 0 := by decide +kernel
theorem test_scrub : (served.estate 0 == 0 && (served.setBit (F.BNK_SCRUB_CTRL_SCRUB_EN 0) true).bit
    (F.BNK_SCRUB_CTRL_SCRUB_EN 0)) = true := by decide +kernel
theorem test_retention : (served.estate 0 == 0 && served.mayRetain 0) = true := by decide +kernel
theorem test_ring_fault : ((after (.fabricRingFault 1 false 1) (on.setFld (F.SEC_RING_A_STATE 1) 0)).map fun u =>
    u.fld (F.SEC_RING_A_FAULT_COUNT 1)) = some 1 := by decide +kernel
theorem test_selftest : ((after (.selftestDone (.engine 0) true) (on.setFld (F.RNG_STATUS_ESTATE 0) 3)).map fun u =>
    u.estate 0) = some 2 := by decide +kernel
theorem test_clear_done : ((after (.clearDone 0) ((on.setFld (F.RNG_STATUS_ESTATE 0) 2).setBit (F.BNK_STATUS_CLEARING 0)
    true)).map fun u => u.estate 0) = some 4 := by decide +kernel
theorem test_readmitted : ((after (.engineReadmitted (.engine 0)) (on.setFld (F.RNG_STATUS_ESTATE 0) 4)).map fun u =>
    u.estate 0) = some 0 := by decide +kernel

/-- A tenant that has a warm mirror and a record. -/
def warm (t : Tenant) : Tenant :=
  { mirrored 0 t with record := idle, recordValid := true }.setFld F.TEN_MIRROR_MSTATE 2

theorem test_rolls_back : ((after (.tenantFailed 0) (twoEngines warm)).map fun u => (u.tenant 0).waitPromotion)
    = some true := by decide +kernel
theorem test_lost : ((after (.tenantFailed 0) (twoEngines id)).map fun u =>
    ((u.tenant 0).fld F.TEN_CONT_STATE, (u.tenant 0).slot)) = some (3, 0x7FF) := by decide +kernel
theorem test_promotes :
    ((after (.promotion 0 0) (twoEngines fun t => { warm t with waitPromotion := true })).map fun u =>
      ((u.tenant 0).slot, (u.tenant 0).bit F.TEN_PLACE_TAKEOVER)) = some (144, true) := by decide +kernel
theorem test_failure_waits : ((after (.engineFailed 0 true) (on.setBit F.MOD_CONT_STATUS_SUP_TAKEOVER true)).map fun u =>
    u.cont.heldFailures) = some [.engineFailed 0 true] := by decide +kernel
theorem test_pitch_allowed : ((twoEngines id).homeLegal 0 145 && ((twoEngines id).tenant 0).movable) = true := by
  decide +kernel
theorem test_pitch : ((after (.pitch 0 145) (twoEngines id)).map fun u => ((u.tenant 0).move, u.homeOcc 145))
    = some (some ⟨145, 0⟩, true) := by decide +kernel

/-! The block. -/

theorem test_step_front : (match step { on with pending := [.syncing] } with
  | .next u => u.pending
  | _ => [.syncing]) = [] := by decide +kernel
theorem test_step_idle : (match step on with
  | .next u => u.tick
  | _ => 0) = 1 := by decide +kernel
theorem test_no_word : decodeTableWord 16 0 = none := by decide +kernel


/-! States that meet the hypotheses of further clauses. -/

/-- A work item of an older epoch: the tag is not the tenant's. -/
def old : Tag := ⟨1, 0⟩

theorem test_call_live :
    let s := run { prog [0b0_000_0111_00000100] with cpu := { (prog []).cpu with sp := 0x4000 } }
    ((after (.call 0 .al (.rel8 4)) s).map fun u => (u.tenant 0).core.cpu.rs) = some [⟨0x202, 0x3FFD⟩] := by decide +kernel
theorem test_entry_reads_vector :
    let t := { tenant idle with core := { idle with now := 17, vread := some ⟨14, 16, none, 16, 0x200, some 3⟩ } }
    ((t.stepEntry (on.geo 0) 17).core.vread.map fun v => v.got.isSome) = some true := by decide +kernel
theorem test_entry_ends :
    let t := { tenant idle with core := { idle with now := 17, vread := some ⟨14, 16, some 0x300, 16, 0x200, some 3⟩ } }
    let c := (t.stepEntry (on.geo 0) 17).core.cpu
    (c.pc, c.cpl) = (0x300, 3) := by decide +kernel
theorem test_interrupt_entry : ((after (.interruptEntry 0) (runWith pending16 enabled)).map fun u =>
    ((u.tenant 0).core.now, (u.tenant 0).core.cpu.cpl, (u.tenant 0).core.vread.map (·.last))) = some (17, 0, some 16) := by
  decide +kernel
theorem test_stale_trail : ((run { idle with trail := some ⟨0x4000, some fill, 20, 20, false, false, old⟩ }).tenant 0).trailStale
    = true := by decide +kernel
theorem test_stale_quick_dma : ((after (.quickDmaTransfer 0) (run { idle with qdm := some ⟨0x100, 0x5000, 8, 20, old⟩ })).map
    fun u => ((u.tenant 0).core.qdm, (u.tenant 0).core.ramByte 0x5000)) = some (none, 0) := by decide +kernel
theorem test_restart_terminates :
    let s := (dma { item with src := 0x20000 }).setBit (F.SDMA_STATUS_STOPPED 0) true
    ((after (.dmaChannelRestart 0 0 false) s).map fun u => ((u.sdma 0).dead, u.bit (F.SDMA_CH_TERMINATED 0 0)))
      = some (1, true) := by decide +kernel
theorem test_ready_pace_reached :
    let s := runWith (fun t => { t with bindTick := 10000000 }) first
    decide (s.tick < (s.tenant 0).release (s.geo 0) 0) = true ∧ (s.tenant 0).release (s.geo 0) 0 ≤ 10000000 := by decide +kernel

/-- A tenant whose mirror moves to slot 160, whose copy there has seen a ring. -/
def remirrored : State :=
  (twoEngines fun t => { mirrored 0 t with mirrorMove := some ⟨160, 1⟩ }).setFld (F.RNG_STATUS_ESTATE 10) 0

theorem test_mirror_moves : ((after (.mirrorWarm 0) remirrored).map fun u =>
    ((u.tenant 0).fld F.TEN_MIRROR_MSLOT, (u.tenant 0).mirrorMove)) = some (160, none) := by decide +kernel

/-! The gate. -/

theorem test_no_slot : ((after (.hold (about 0 4)) { run idle with gate := ringed.setFld F.BAR4_SQ_TAIL_TAIL 0 }).map fun u =>
    (u.tenant 0).stop) = some .none := by decide +kernel
theorem test_drop_rate : ((after (.wake { about 0xFFFF 0 with host := .b })
    { (on.setBit F.GTE_CFG_V4_EN true).setFld F.GTE_HB_RATE_RATE 1 with gate := { ringed with rate := 1 } }).map fun u => u.fld F.GTE_DROP_CAUSE_CHECK)
    = some 1 := by decide +kernel
theorem test_family_off : ((after (.wake { about 0xFFFF 0 with host := .b }) on).map fun u => u.fld F.GTE_DROP_CAUSE_CHECK)
    = some 0 := by decide +kernel

/-- A datagram of WAKE with SEQ `q` under the key 0. -/
def keyed (q : BitVec 64) : Msg :=
  let m := { about 0xFFFF 0 with host := .b, seq := q }
  { m with auth := hbTag 0 (leBytes 8 q ++ msgBytes m 7 []) }

/-- The module with the key 0 set, and HOST-B's IPv4 family enabled. -/
def hostB : State := (on.setBit F.GTE_CFG_V4_EN true).setBit F.GTE_KEY_CTRL_KEY_SET true

theorem test_datagram_key : ((keyed 1).auth == hbTag 0 (leBytes 8 (1 : BitVec 64) ++ msgBytes (keyed 1) 7 [])) = true := beq_self_eq_true _
theorem test_datagram_new : (hostB.familyOn false && hostB.gate.seqOk 1 && hostB.bit F.GTE_KEY_CTRL_KEY_SET) = true := by
  decide +kernel
theorem test_datagram_old : hostB.gate.seqOk 0 = false := by decide +kernel
theorem test_start_waits : ((after (.hold (about 0 4)) { on with power := { on.power with mode := .start } }).map fun u =>
    u.gate.waiting.length) = some 1 := by decide +kernel

/-- HOST-B has written the word at 0x7020, whose page is SHARED, in gate cycle 1. -/
def contested : State :=
  let s := (on.setFld ⟨0x7008 / 4, 4, 2⟩ 3).newCycle
  { s with bus := { s.bus with cycle := 1, wrote := [⟨0x7020 / 4, .hostB, 5, 5, 0xFF, 7⟩] } }

theorem test_conflict : ((after (.configWrite (.gate (about 0xFFFF 12)) 0x7020 15 1) contested).map fun u =>
    u.word F.GTE_CONFLICT_DROP_COUNT.key) = some 1 := by decide +kernel
theorem test_read_before_write : ((after (.configRead (.gate (about 0xFFFF 4)) 0x7020) contested).map fun u => u.gate.pcie)
    = some [.readReply 7 0xFFFF 0 0 5] := by decide +kernel
theorem test_owner_next_cycle : ((after (.ownerWrite (.gate (about 0xFFFF 12)) 0x42000 15 0x20) on).map fun u =>
    (pageOf 0x42008).map fun p => (u.ownerOf p, (u.busEnter 2).ownerOf p)) = some (some (3, 2)) := by decide +kernel
theorem test_expert_arms : ((after (.expertKey (.gate (about 0xFFFF 12)) 0x42000 15 0x5EED) on).map fun u => u.bus.arms)
    = some [(.hostA, 0x42000)] := by decide +kernel

/-- A tenant on engine 0 whose mirror stands in sector 1, with engine 18 of sector 2 in service too. -/
def three : State := (twoEngines (mirrored 0)).setFld (F.RNG_STATUS_ESTATE 18) 0

theorem test_move_with_mirror : (!three.homeLegal 0 145 && three.homeFree 145) = true := by decide +kernel
theorem test_mirror_for : three.mirrorFor 0 145 ≠ [] :=
  List.ne_nil_of_mem (a := 288) (List.mem_filter.2 ⟨List.mem_range.2 (by decide), by decide +kernel⟩)

/-! The host's rings, one case for each of their six commands. -/

theorem test_sq_tail : ((after (.sqTail 3) on).map fun u => u.gate.fld F.BAR4_SQ_TAIL_TAIL) = some 3 := by decide +kernel
theorem test_cq_head : ((after (.cqHead 3) on).map fun u => u.gate.fld F.BAR4_CQ_HEAD_HEAD) = some 3 := by decide +kernel
theorem test_ring_ctrl_off : ((after (.ringCtrl 0 0) on).map fun u => (u.gate.fld F.BAR4_RING_CTRL_EN,
    u.gate.fld F.BAR4_SQ_HEAD_HEAD)) = some (0, 1) := by decide +kernel
theorem test_ring_ctrl_off_power : ((after (.ringCtrl 0 1) State.reset).map fun u => u.gate.fld F.BAR4_RING_CTRL_EN)
    = some 0 := by decide +kernel
theorem test_ring_ctrl_read_only : ((after (.ringCtrl 6 7) on).map fun u => u.gate.fld F.BAR4_SQ_HEAD_HEAD) = some 0 := by
  decide +kernel

/-- CNT_LIST names the page of LANTERN, every millisecond. -/
def counting : State :=
  ((on.setFld F.GTE_CNT_PERIOD_MS 1).setBit (F.GTE_CNT_LIST_EN 0) true).setFld (F.GTE_CNT_LIST_PAGE 0) 7

theorem test_counters : (counting.counterPages == [0x7000] && counting.bus.wrote.isEmpty
    && (pageOf 0x7000).any fun p => p.base == 0x7000) = true := by decide +kernel
theorem test_gate_link : ((after (.gateLinkFail 1) on).map fun u => u.fld F.GTE_STATUS_LINK) = some 1 := by decide +kernel
theorem test_pcie_reset : ((after .pcieReset on).map fun u => u.gate.fld F.BAR4_RING_CTRL_EN) = some 0 := by decide +kernel

/-! Timers, pins and PIO. -/

theorem test_group_start :
    ((after (.groupStart (.gate (about 0xFFFF 12)) 0 15 1) on).map fun u =>
      (u.pins.acts, u.bit (F.PIO_RUN_RUN 0), (u.newRotation (u.rotation + 1)).bit (F.PIO_RUN_RUN 0)))
      = some ([.start 0 0], false, true) := by decide +kernel
theorem test_pair_captured :
    let s := { ((on.setFld (F.MTM_CH_CTRL_MODE 0 0) 1).setFld (F.MTM_CH_CTRL_EDGE 0 0) 3) with
      mt := [(0, { Mt.reset with ch := [(0, { MtCh.reset with level := true, rise := true })] })] }
    ((after (.capture 0 0 false) s).map fun u => u.bit (F.MTM_FLAGS_CAP 0 0)) = some true := by decide +kernel
theorem test_line_now : (((on.setBit (F.TBS_TB_CTL_RUN 0) true).setBit ⟨0x1A008 / 4, 0, 1⟩ true).advance 0).tbLineNow 0 = true := by decide +kernel
theorem test_compare_cycle :
    let s := { mtimer with mt := [(0, { Mt.reset with ch := [(0, { MtCh.reset with cyc := true })] })] }
    ((after (.compareCycle 0 0) s).map fun u => u.bit (F.MTM_FLAGS_CYC 0 0)) = some true := by decide +kernel
/-! Stations and ports. -/

theorem test_push_held :
    let s := { pushing with credits := [⟨.egress 2, 0, 0⟩] }
    ({ s with credits := [⟨.egress 2, 0, 0⟩] }.egressStalled 2) = true := by decide +kernel

/-- Entry 0 with a frame that has been composed and handed to the port. -/
def framed : State :=
  { (heard.setBit F.PSH_EN true) with entries := [(0, { Entry.reset with frames := [⟨3, false, 2, [], true, 5⟩] })] }

theorem test_beam_mark : ((after (.beamMark 0 10) framed).map fun u => (u.port 2).queue.map fun m => (m.typ, m.frame))
    = some [(4, 3)] := by decide +kernel
theorem test_transmit :
    let s := { (heard.setBit F.PSH_EN true) with ports := [(2, { Port.reset with queue := [⟨0, 0, 0, 1, [9], 0, false, [], 0⟩] })] }
    ((after (.frameTransmit 2 0) s).map fun u => u.efld F.STN_TX_SEQ_SEQ 0) = some 1 := by decide +kernel
theorem test_sink : ((after (.sinkSample 0 0) on).map fun u => (u.sink 0).next) = some 1 := by decide +kernel

/-- Entry 0, which has last accepted SEQ 5. -/
def taken : State :=
  { (heard.setFld (F.STN_RX_SEQ_SEQ 0 0) 5) with entries := [(0, { Entry.reset with heard := true })] }

theorem test_duplicate : ((after (.input { rx with seq := 5 } 0 []) taken).map fun u => u.word F.PSH_DUP_RX_COUNT.key)
    = some 1 := by decide +kernel
theorem test_other_station : ((after (.input { rx with station := 1, seq := 6 } 0 []) taken).map fun u =>
    u.word F.PSH_BAD_RX_COUNT.key) = some 1 := by decide +kernel
theorem test_other_station_old : ((after (.input { rx with station := 1, seq := 5 } 0 []) taken).map fun u =>
    u.word F.PSH_DUP_RX_COUNT.key) = some 1 := by decide +kernel
theorem test_long_input : ((after (.input rx 241 (List.replicate 241 0)) heard).map fun u => u.word F.PSH_BAD_RX_COUNT.key)
    = some 1 := by decide +kernel
theorem test_bad_type : ((after (.rxUnknown 2 .badRsp) heard).map fun u => u.word F.PSH_BAD_RX_COUNT.key) = some 1 := by
  decide +kernel
theorem test_port_switch :
    let s := ((heard.setBit (F.STN_ENT_CTRL_DUAL 0 0) true).setFld (F.STN_PORTS_PORT_B 0 0) 3).setBit
      (F.PRT_STATUS_LINK_UP 2) false
    ((after (.portSwitch 0) s).map fun u => u.ebit F.STN_PORTS_ACTIVE_B 0) = some true := by decide +kernel
theorem test_sync : ((after (.syncSend 2 0) ((heard.setBit (F.PRT_CFG_PTP_EN 2) true).setBit F.PTP_EN true)).map fun u =>
    (u.port 2).sent.length) = some 2 := by decide +kernel
theorem test_self_refresh : ((on.setBit F.PSH_SR_CTRL_SR_EN true).tolerance none).all (fun v =>
    decide (100 * (4 + on.fld F.PSH_SR_CTRL_SR_MARGIN) < v)) = true := by decide +kernel

/-! Credits, banks and moves. -/

theorem test_flit_placed : ((after (.flitSend (.ringStop 1 false 9 false) [2]) served).map fun u =>
    u.word (F.SEC_FLITS_A_COUNT 1).key) = some 0 := by decide +kernel
theorem test_gate_pause : ((after (.flitSend (.gateLink 0 true) [1]) { on with credits := [⟨.gateLink 0 true, 0, 0⟩] }).map
    fun u => u.gate.pauses) = some 1 := by decide +kernel
theorem test_credit_over_engine : ((after (.creditReturn (.blitWrite 0)) served).map fun u =>
    (u.estate 0, u.fld (F.RNG_FAULT_CAUSE 0))) = some (1, 3) := by decide +kernel
theorem test_waited :
    let s := { run idle with gate := { ringed with waiting := [.hold (about 0 4)] } }
    ((after (.heldAccessApply 0) s).map fun u => ((u.tenant 0).stop, u.gate.waiting.length)) = some (.hold, 0) := by
  decide +kernel
theorem test_engines_up :
    let s := ({ on with cont := { on.cont with starting := true, startSet := [0] } }.setFld (F.RNG_STATUS_ESTATE 0) 4)
    ((after .enginesUp s).map fun u => u.estate 0) = some 0 := by decide +kernel
theorem test_event_once : (({ source with miq := [364] }.qualifies 3 364) && ([364].contains 364)) = true := by decide +kernel
theorem test_lantern_keeps :
    let s := { State.reset with power := { State.reset.power with mode := .dormant }, lan := [(4, 3)] }
    ((after .lanternSample s).map fun u => Store.get 0 u.lan 4) = some 3 := by decide +kernel

/-- Engine 0 whose scrubber stands at the last word of its bank. -/
def scrubbing : State := { (served.setBit (F.BNK_SCRUB_CTRL_SCRUB_EN 0) true) with scrub := [(0, 0x2AFFF8)] }

theorem test_scrub_pass : ((after (.scrubRead 0 0x2AFFF8 .clean) scrubbing).map fun u =>
    (Store.get 0 u.scrub 0, u.word (F.BNK_SCRUB_PASSES_COUNT 0).key)) = some (0, 1) := by decide +kernel
theorem test_other_read : ((after (.scrubRead 0 0x10 .corrected) scrubbing).map fun u =>
    (Store.get 0 u.scrub 0, u.ecc.length)) = some (0x2AFFF8, 1) := by decide +kernel
theorem test_ring_test : ((after (.selftestDone (.ring 1 false) false) (on.setFld (F.SEC_RING_A_STATE 1) 2)).map fun u =>
    (u.ringState 1 false, u.cont.failedTests.contains (.ring 1 false))) = some (1, true) := by decide +kernel
theorem test_ring_readmitted :
    let s := { on with cont := { on.cont with readmitting := [.ring 1 false] } }
    ((after (.engineReadmitted (.ring 1 false)) s).map fun u => u.ringState 1 false) = some 0 := by decide +kernel
theorem test_home_slot : (twoEngines id).homeSlots 0 ≠ [] :=
  List.ne_nil_of_mem (a := 145) (List.mem_filter.2 ⟨List.mem_range.2 (by decide), by decide +kernel⟩)
theorem test_replaceable :
    let t := ((tenant idle).setFld F.TEN_CONT_STATE 1).setFld F.TEN_PLACE_SLOT 0x7FF
    (t.fld F.TEN_CONT_STATE == 1 && decide (1152 ≤ t.slot)) = true := by decide +kernel
theorem test_struck : ((twoEngines id).fld (F.RNG_HOME_TENANT 0 0) == 0 && ((twoEngines id).tenant 0).slot == 0
    && ((twoEngines id).tenant 0).movable) = true := by decide +kernel

/-- Tenant 0, whose mirror stands in slot 144, with engine 10 in service too. -/
def mirrorStruck : State :=
  (((twoEngines (mirrored 0)).setFld (F.RNG_STATUS_ESTATE 10) 0).setBit (F.RNG_MIRROR_OCC 9 0) true).setFld
    (F.RNG_MIRROR_MSTATE 9 0) 1

theorem test_strike_mirror : ((mirrorStruck.tenant 0).mslot == 144 && mirrorStruck.mirrorOcc 144
    && mirrorStruck.fld (F.RNG_MIRROR_TENANT 9 0) == 0 && (mirrorStruck.tenant 0).mirrorMove.isNone) = true := by decide +kernel
theorem test_mirror_slot : mirrorStruck.mirrorSlots (mirrorStruck.tenant 0).runsOn ≠ [] :=
  List.ne_nil_of_mem (a := 160) (List.mem_filter.2 ⟨List.mem_range.2 (by decide), by decide +kernel⟩)
theorem test_moved :
    ((after (.tenantMoved 0) (twoEngines fun t => ({ t with move := some ⟨145, 0⟩ }.setFld F.TEN_CONT_STATE 3))).map fun u =>
      ((u.tenant 0).slot, (u.tenant 0).fld F.TEN_PLACE_PLACEMENT)) = some (145, 1) := by decide +kernel

/-! Firmware, NVS and panel. -/

theorem test_fwu_open : ((after (.fwuOpen (.gate (about 0xFFFF 12)) 15 0) (on.setFld F.FWU_STAGE_LEN_LEN 1024)).map fun u =>
    (u.fld F.FWU_STATUS_PHASE, u.fwu.issuer)) = some (1, some .hostA) := by decide +kernel
theorem test_dormant_refused : Rule.refusal served 3 = 2 := by decide +kernel
theorem test_supply_falls : ((after .supplyFall on).map fun u => u.power.mode) = some .off := by decide +kernel

/-! States that meet the hypotheses of the clauses on credits, resets, races and waits. -/

/-- The module in PARKED, whose blitters, DMA units and compositors are gated. -/
def parked (s : State) : State := s.setFld F.PWR_STATUS_STATE 4

theorem test_gated : ((parked (trail fill)).gated && ((after (.fill 0) (parked (trail fill))).any fun u =>
    (u.tenant 0).core.ramByte 0x5000 == 0)) = true := by decide +kernel
theorem test_audio_first : (run { idle with snd := Sound.reset }).sampleFirst 0 = true := by decide +kernel

/-- Tenants 0 and 1 on contexts 0 and 1 of engine 0, whose audio ticks have come, that of tenant 0 first. -/
def twoVoices : State :=
  (run { idle with snd := Sound.reset }).setTenant 1
    (({ tenant { idle with snd := Sound.reset } with bindTick := 5 }).setFld F.TEN_PLACE_SLOT 1)

theorem test_audio_waits : (twoVoices.sampleDue 0).any (fun a => (twoVoices.sampleDue 1).any fun b =>
    decide (a.1 * b.2.1 < b.1 * a.2.1)) = true ∧ twoVoices.sampleFirst 1 = false := by decide +kernel

/-- A tenant whose pattern 0 is solid with value 1 and whose plane 0 shows it at priority 2. -/
def painted (t : Tenant) : Tenant :=
  ((({ t with core := { t.core with mem := memPut t.core.mem 0x4000 (List.replicate 32 0x11) } }.setBit ⟨0x1008 / 4, 0, 1⟩
    true).setFld (F.VID_MODE_DEPTH 0) 1).setFld (F.VID_MODE_PRIO 0) 2).setFld (F.VID_MAPBASE_MAPBASE 0) 0x2000

theorem test_rank_order : Rule.rankOrder (painted (tenant idle)) 0 = [7, 6, 0, 5, 4, 1, 2, 3] := by decide +kernel
theorem test_plane_shows : Rule.PlaneShows (painted (tenant idle)) 5 0 3 0 1 := by
  unfold Rule.PlaneShows
  decide +kernel
theorem test_sprite_shows : Rule.SpriteShows (painted (tenant idle)) 5 0 3 0 1 :=
  ⟨3, 0, by decide +kernel⟩
theorem test_video_enabled : Rule.seen (painted (tenant idle)) 0 ⟨0x1008 / 4, 0, 1⟩ = 1 := by decide +kernel

/-- An item of an older epoch that waits for a channel. -/
def staleItem : State := (run { idle with dma0 := some { item with tag := old } }).setBit ⟨0x42008 / 4, 0, 1⟩ true

theorem test_stale_waits : (staleItem.tenant 0).dmaStale 0 = true := by decide +kernel

/-- Tenant 0 with a warm mirror that has staged a write, the marker of ring 0 and another write, whose ring is complete. -/
def committing : State :=
  twoEngines fun t => { mirrored 0 t with
    mirror := some ⟨[], [.write [(0x100, 7)], .marker 0, .write [(0x101, 8)]], [], true, true, true⟩
    ring := some ⟨0, idle, idle.cpu, 0, 0⟩ }.setFld F.TEN_MIRROR_MSTATE 2

theorem test_commit_at_mirror : ((after (.ringCommit 0) committing).map fun u => (u.tenant 0).mirror.map fun m =>
    (memGet m.image 0x100, m.staging)) = some (some (7, [.write [(0x101, 8)]])) := by decide +kernel
theorem test_commit_waits :
    let s := twoEngines fun t => { mirrored 0 t with ring := some ⟨0, idle, idle.cpu, 0, 0⟩ }.setFld F.TEN_MIRROR_MSTATE 2
    ((after (.ringCommit 0) s).map fun u => (u.tenant 0).ring.isSome) = some true := by decide +kernel

/-! The gate. -/

theorem test_whole : Rule.Whole (.configWrite (.gate (about 0xFFFF 12)) 0x7020 15 1) := ⟨by decide +kernel, by decide +kernel⟩
theorem test_double_words : ((after (.configRead (.gate { about 0xFFFF 4 with tlp := .more [(15, 0)] }) 0x1000) on).map
    fun u => u.gate.pcie.length) = some 2 := by decide +kernel
theorem test_bar2_read : ((after (.configRead (.gate { about 0xFFFF 4 with tlp := .bar2 }) 0x1000) on).map fun u => u.gate.pcie)
    = some [.readReply 7 0xFFFF 0 0 0] := by decide +kernel
theorem test_type_undefined : ((after (.hold { about 0 4 with type := some 9 }) (run idle)).map fun u =>
    u.fld F.GTE_DROP_CAUSE_CHECK) = some 4 := by decide +kernel
theorem test_command_reserved : ((after (.hold { about 0 4 with cmd := some 12 }) (run idle)).map fun u => (u.tenant 0).stop)
    = some .none := by decide +kernel

/-- The module whose gate link 0 has no credit. -/
def closed : State := { run idle with credits := [⟨.gateLink 0 true, 0, 0⟩] }

theorem test_link_holds : ((after (.hold (about 0 4)) closed).map fun u => (u.gate.blocked.length, (u.tenant 0).stop))
    = some (1, .none) := by decide +kernel
theorem test_link_lets_in :
    ((after (.creditReturn (.gateLink 0 true)) { closed with gate := { closed.gate with blocked := [.hold (about 0 4)] } }).map
      fun u => (u.gate.blocked.length, (u.tenant 0).stop)) = some (0, .hold) := by decide +kernel

/-- A message of HOST-B in whose gate cycle one of HOST-A is still to come. -/
def racing : State := { run idle with pending := [.park (about 0 4)] }

theorem test_yields : racing.yields (.hold { about 0 4 with host := .b }) = true := by decide +kernel
theorem test_a_follows : ({ on with pending := [.configWrite (.gate (about 0xFFFF 12)) 0x7020 15 1] } : State).aFollows 1 0x7020
    = true := by decide +kernel
theorem test_epoch_refused :
    let s := ((run idle).setBit F.NVS_STATUS_PFW true).setBit F.PWR_STATUS_PFW true
    (isEpochCmd (.reset (about 0 4)) && s.bit F.NVS_STATUS_PFW && s.mustWait (.reset (about 0 4))
      && !s.stale (.reset (about 0 4)) (about 0 4) 4) = true := by decide +kernel
theorem test_owner_of_other : ((after (.ownerWrite (.gate (about 0xFFFF 12)) 0x42000 15 0x10)
      ((on.setFld ⟨0x42008 / 4, 4, 2⟩ 2).newCycle)).map fun u =>
    (u.word (0x42F00 / 4), (pageOf 0x42008).map fun p => (u.ownerOf p, (u.busEnter 2).ownerOf p))) = some (1, some (2, 1)) := by
  decide +kernel
theorem test_unpark_held :
    let s := runWith (fun t => (t.setFld F.TEN_CONT_STATE 4).setBit F.TEN_CONT_LOST true) idle
    ((after (.unpark (about 0 4) 0) s).map fun u => (u.tenant 0).fld F.TEN_CONT_STATE) = some 3 := by decide +kernel
theorem test_wake_dormant :
    let s := { (on.setBit F.GTE_CFG_V4_EN true).setFld F.GTE_HB_RATE_RATE 9 with power := { on.power with mode := .dormant } }
    ((after (.wake { about 0xFFFF 0 with host := .a }) s).map fun u => u.power.wakeDrive) = some 0 := by decide +kernel

/-! Power, firmware and the calendar. -/

/-- A module in DORMANT whose LANTERN has recognised selection 4. -/
def asleep : State := { State.reset with power := { State.reset.power with mode := .dormant }, lan := [(4, 3)] }

theorem test_wakes : (asleep.recognised, (asleep.setFeed false true).feed false) = ([4], true) := by decide +kernel
theorem test_no_feed_no_wake : ((after .lanternWake asleep).map fun u => u.power.mode) = some .dormant := by decide +kernel
theorem test_lantern_third :
    let s := { { asleep with lan := [(4, 2)] }.setFld (F.LAN_SEL_SOURCE 4) 353 with power := { asleep.power with wakeDrive := 3 } }
    ((after .lanternSample ((s.setBit (F.LAN_SEL_EN 4) true).setBit F.PWR_STATUS_FEED_A_CHG true)).map fun u =>
      (Store.get 0 u.lan 4, u.fld F.LAN_HIT_HIT, u.fld F.LAN_CAUSE_SEL, u.power.wakeDrive)) = some (3, 16, 4, 2) := by decide +kernel

/-- A module whose update is in phase `n`. -/
def phase (n : Nat) : State := on.setFld F.FWU_STATUS_PHASE n

theorem test_verify_part : ((after (.fwuVerify (.sup 1) 15 2) { phase 1 with fwu := { Fwu.reset with issuer := some .sup, staged := memPut [] 0 [7] } }).any
    fun u => u.fld F.FWU_STATUS_PHASE != 9) = true := by decide +kernel
theorem test_takeover_waits : ((after .supFailover (phase 4)).map fun u => (u.fwu.failed, u.bit F.MOD_CONT_STATUS_ACTIVE_SUP_B))
    = some (true, false) := by decide +kernel
theorem test_swap : ((after .supFailover (phase 5)).map fun u => u.fld F.FWU_STATUS_PHASE) = some 6 := by decide +kernel
theorem test_takeover_held : ((after .supTakeoverDone { (phase 4).setBit F.MOD_CONT_STATUS_SUP_TAKEOVER true with
    fwu := { Fwu.reset with failed := true } }).map fun u => u.bit F.MOD_CONT_STATUS_SUP_TAKEOVER) = some true := by decide +kernel
theorem test_trial_runs : ((after .trialEnd ((phase 6).setFld F.FWU_TRIAL_S_SECONDS 1)).map fun u => u.fld F.FWU_STATUS_PHASE)
    = some 6 := by decide +kernel
theorem test_trial_over : decide ((phase 6).fwu.swapTick + 100000000 * ((phase 6).setFld F.FWU_TRIAL_S_SECONDS 1).fld
    F.FWU_TRIAL_S_SECONDS ≤ ({ phase 6 with tick := 100000000 } : State).tick) = true := by decide +kernel
theorem test_pfw_in_booting : ((phase 4).fld F.FWU_STATUS_PHASE, { Fwu.reset with confirmed := false }.confirmed, (phase 4).fwu.failed)
    = (4, false, false) := by decide +kernel
theorem test_set_valid : setValid 0x23595807 0x20244229 = true := by decide +kernel
theorem test_set_applies :
    let s := { on with rtc := { Rtc.reset with set := some (0x23595807, 0x20244229) }, power := { on.power with charged := true } }
    ((after .rtcHundredth s).map fun u => (u.rtc.set, u.word F.RTC_TIME_HUND.key)) = some (none, 0x23595807) := by decide +kernel
theorem test_hundredths : (List.range 100).foldl (fun n h => n + hundTicks h) 0 = 32768 := by decide +kernel
theorem test_always_on_loss : ((after .alwaysOnLoss (asleep)).map fun u => (u.power.mode, u.power.charged))
    = some (.off, false) := by decide +kernel

/-! Stations, credits, units and moves. -/

theorem test_inbox : ((after (.input rx 2 [5, 6]) { heard with credits := [⟨.ingress 2, 0, 0⟩] }).map fun u =>
    ((u.port 2).inbox.length, (u.port 2).sent)) = some (1, [.pause]) := by decide +kernel
theorem test_inbox_opens :
    let s := { heard with credits := [⟨.ingress 2, 0, 0⟩], ports := [(2, { Port.reset with inbox := [.input rx 2 [5, 6]] })] }
    ((after (.creditReturn (.ingress 2)) s).map fun u => ((u.tenant 0).reports.map fun r => r.data, (u.port 2).inbox.length)) = some ([[5, 6]], 0) := by decide +kernel
theorem test_transmitter_off : ((after (.linkUp 2 false) (on.setBit (F.PRT_CFG_TX_ON 2) false)).map fun u => u.bit (F.PRT_STATUS_LINK_UP 2))
    = some false := by decide +kernel
theorem test_event_next_cycle :
    let s := ((on.setBit F.GTE_STATUS_WAKE_RX true).setFld (F.MIQ_SRC_TARGET 364) 3).setFld (F.MIQ_SRC_PRIO 364) 1
    (s.qualifies 3 364, (after (.event 364) s).map fun u => u.miq) = (false, some [364]) := by decide +kernel
theorem test_start_tested :
    let s := { on.setFld (F.RNG_STATUS_ESTATE 0) 7 with cont := { on.cont with starting := true, startSet := [0] } }
    ((after (.selftestDone (.engine 0) false) s).map fun u => u.estate 0) = some 5 := by decide +kernel
theorem test_stack_fault : ((after (.hbmStackFault 1) on).map fun u => u.cont.fencedStacks) = some [1] := by decide +kernel
theorem test_reset_after_loss :
    let s := twoEngines fun t => { t with resetWait := true }
    (s.ringsDue 0 && !s.supBusy && (s.tenant 0).mirror.isNone && (s.tenant 0).resetWait) = true := by decide +kernel
theorem test_mirror_may_stay : three.mirrorStays 0 288 = true := by decide +kernel

end Sys2Proof.Tests
end

section
/-! PROOF. Every command, and so every step, ends in a next state and keeps the queue and the canonical form of the tables. -/

namespace Sys2Proof.Machine

variable {q : List Instr} {w : Prop} {s : State}

/-- Each command keeps by the lemma about its own meaning. -/
theorem exec_kept (i : Instr) (h : s.Kept q w) : KeptOut q w (exec i s) := by
  unfold exec
  cases i with
  | configWrite => exact execConfigWrite_kept h
  | configRead => exact execConfigRead_kept h
  | rcCounterRead => exact execRcCounterRead_kept h
  | latchedRead => exact execLatchedRead_kept h
  | ownerWrite => exact execOwnerWrite_kept h
  | expertKey => exact execExpertKey_kept h
  | expertSet => exact execExpertSet_kept h
  | heldAccessApply => exact execHeldAccessApply_kept h
  | flitSend => exact execFlitSend_kept h
  | creditReturn => exact execCreditReturn_kept h
  | tbCommit => exact execTbCommit_kept h
  | tbLineStart => exact execTbLineStart_kept h
  | load => exact execLoad_kept h
  | start => exact execStart_kept h
  | hold => exact execHold_kept h
  | resume => exact execResume_kept h
  | reset => exact execReset_kept h
  | resetDone => exact execResetDone_kept h
  | park => exact execPark_kept h
  | unpark => exact execUnpark_kept h
  | move => exact execMove_kept h
  | mail => exact execMail_kept h
  | tenantLineStart => exact execTenantLineStart_kept h
  | tenantFrameStart => exact execTenantFrameStart_kept h
  | paceRelease => exact execPaceRelease_kept h
  | nop => exact execNop_kept h
  | wait => exact execWait_kept h
  | waitWake => exact execWaitWake_kept h
  | fence => exact execFence_kept h
  | fenceEnd => exact execFenceEnd_kept h
  | ret => exact execRet_kept h
  | rtt => exact execRtt_kept h
  | ei => exact execEi_kept h
  | di => exact execDi_kept h
  | dajA => exact execDajA_kept h
  | dajS => exact execDajS_kept h
  | pushf => exact execPushf_kept h
  | popf => exact execPopf_kept h
  | clc => exact execClc_kept h
  | sec => exact execSec_kept h
  | cmc => exact execCmc_kept h
  | mov => exact execMov_kept h
  | movw => exact execMovw_kept h
  | exg => exact execExg_kept h
  | add => exact execAdd_kept h
  | adc => exact execAdc_kept h
  | sub => exact execSub_kept h
  | sbc => exact execSbc_kept h
  | and => exact execAnd_kept h
  | or => exact execOr_kept h
  | xor => exact execXor_kept h
  | cmp => exact execCmp_kept h
  | inc => exact execInc_kept h
  | dec => exact execDec_kept h
  | neg => exact execNeg_kept h
  | not => exact execNot_kept h
  | shl => exact execShl_kept h
  | shr => exact execShr_kept h
  | asr => exact execAsr_kept h
  | rol => exact execRol_kept h
  | ror => exact execRor_kept h
  | clr => exact execClr_kept h
  | tst => exact execTst_kept h
  | swapn => exact execSwapn_kept h
  | push => exact execPush_kept h
  | pop => exact execPop_kept h
  | incw => exact execIncw_kept h
  | decw => exact execDecw_kept h
  | pushw => exact execPushw_kept h
  | popw => exact execPopw_kept h
  | ext => exact execExt_kept h
  | pushp => exact execPushp_kept h
  | popp => exact execPopp_kept h
  | ld => exact execLd_kept h
  | st => exact execSt_kept h
  | ldw => exact execLdw_kept h
  | stw => exact execStw_kept h
  | bra => exact execBra_kept h
  | call => exact execCall_kept h
  | ldi => exact execLdi_kept h
  | cmpi => exact execCmpi_kept h
  | addi => exact execAddi_kept h
  | andi => exact execAndi_kept h
  | adj => exact execAdj_kept h
  | lds => exact execLds_kept h
  | sts => exact execSts_kept h
  | ldiw => exact execLdiw_kept h
  | adci => exact execAdci_kept h
  | subi => exact execSubi_kept h
  | sbci => exact execSbci_kept h
  | ori => exact execOri_kept h
  | xori => exact execXori_kept h
  | addw => exact execAddw_kept h
  | adcw => exact execAdcw_kept h
  | subw => exact execSubw_kept h
  | sbcw => exact execSbcw_kept h
  | cmpw => exact execCmpw_kept h
  | addiw => exact execAddiw_kept h
  | cmpiw => exact execCmpiw_kept h
  | mul => exact execMul_kept h
  | sel => exact execSel_kept h
  | selw => exact execSelw_kept h
  | cnvbD => exact execCnvbD_kept h
  | cnvbB => exact execCnvbB_kept h
  | lda => exact execLda_kept h
  | sta => exact execSta_kept h
  | ldaw => exact execLdaw_kept h
  | staw => exact execStaw_kept h
  | ldx => exact execLdx_kept h
  | stx => exact execStx_kept h
  | ldp => exact execLdp_kept h
  | stp => exact execStp_kept h
  | ldpi => exact execLdpi_kept h
  | ldph => exact execLdph_kept h
  | lea => exact execLea_kept h
  | padd => exact execPadd_kept h
  | movp => exact execMovp_kept h
  | adjsp => exact execAdjsp_kept h
  | movgp => exact execMovgp_kept h
  | movpg => exact execMovpg_kept h
  | brl => exact execBrl_kept h
  | jmp => exact execJmp_kept h
  | dbnz => exact execDbnz_kept h
  | addp => exact execAddp_kept h
  | subp => exact execSubp_kept h
  | cmpp => exact execCmpp_kept h
  | reservedOpcodeTrap => exact execReservedOpcodeTrap_kept h
  | fetchFault => exact execFetchFault_kept h
  | interruptEntry => exact execInterruptEntry_kept h
  | spriteEvaluation => exact execSpriteEvaluation_kept h
  | lineRender => exact execLineRender_kept h
  | rasterEntry => exact execRasterEntry_kept h
  | lineMatch => exact execLineMatch_kept h
  | beamCapture => exact execBeamCapture_kept h
  | composeLine => exact execComposeLine_kept h
  | overlayCommit => exact execOverlayCommit_kept h
  | overlayWrite => exact execOverlayWrite_kept h
  | region => exact execRegion_kept h
  | beamMark => exact execBeamMark_kept h
  | frameTransmit => exact execFrameTransmit_kept h
  | input => exact execInput_kept h
  | status => exact execStatus_kept h
  | resyncReq => exact execResyncReq_kept h
  | delayReq => exact execDelayReq_kept h
  | foreignAnnounce => exact execForeignAnnounce_kept h
  | pauseReceive => exact execPauseReceive_kept h
  | rxUnknown => exact execRxUnknown_kept h
  | syncSend => exact execSyncSend_kept h
  | announceSend => exact execAnnounceSend_kept h
  | stationAbsent => exact execStationAbsent_kept h
  | portSwitch => exact execPortSwitch_kept h
  | entryEnable => exact execEntryEnable_kept h
  | entryDisable => exact execEntryDisable_kept h
  | forceResync => exact execForceResync_kept h
  | linkDown => exact execLinkDown_kept h
  | linkUp => exact execLinkUp_kept h
  | sfpChange => exact execSfpChange_kept h
  | selfRefreshEntry => exact execSelfRefreshEntry_kept h
  | selfRefreshExit => exact execSelfRefreshExit_kept h
  | audioTick => exact execAudioTick_kept h
  | keyon => exact execKeyon_kept h
  | keyoff => exact execKeyoff_kept h
  | swap => exact execSwap_kept h
  | sinkSample => exact execSinkSample_kept h
  | sinkSwap => exact execSinkSwap_kept h
  | previewReq => exact execPreviewReq_kept h
  | bltGo => exact execBltGo_kept h
  | end_ => exact execEnd_kept h
  | copy => exact execCopy_kept h
  | fill => exact execFill_kept h
  | copykey => exact execCopykey_kept h
  | xform => exact execXform_kept h
  | link => exact execLink_kept h
  | waitLine => exact execWaitLine_kept h
  | signal => exact execSignal_kept h
  | trailStop => exact execTrailStop_kept h
  | qdmGo => exact execQdmGo_kept h
  | quickDmaTransfer => exact execQuickDmaTransfer_kept h
  | dmaGo => exact execDmaGo_kept h
  | dmaChannelAssign => exact execDmaChannelAssign_kept h
  | dmaBurst => exact execDmaBurst_kept h
  | busError => exact execBusError_kept h
  | dmaChannelRestart => exact execDmaChannelRestart_kept h
  | dmaResumed => exact execDmaResumed_kept h
  | eccWriteBack => exact execEccWriteBack_kept h
  | scrubRead => exact execScrubRead_kept h
  | clearDone => exact execClearDone_kept h
  | retentionEntry => exact execRetentionEntry_kept h
  | engineWake => exact execEngineWake_kept h
  | hbmStackFault => exact execHbmStackFault_kept h
  | ringTake => exact execRingTake_kept h
  | ringCommit => exact execRingCommit_kept h
  | mirrorStage => exact execMirrorStage_kept h
  | mirrorWarm => exact execMirrorWarm_kept h
  | idleHeartbeat => exact execIdleHeartbeat_kept h
  | internalError => exact execInternalError_kept h
  | engineFailed => exact execEngineFailed_kept h
  | tenantFailed => exact execTenantFailed_kept h
  | promotion => exact execPromotion_kept h
  | stoppedTenantReplace => exact execStoppedTenantReplace_kept h
  | pitch => exact execPitch_kept h
  | strike => exact execStrike_kept h
  | tenantMoved => exact execTenantMoved_kept h
  | fabricRingFault => exact execFabricRingFault_kept h
  | readmit => exact execReadmit_kept h
  | selftestDone => exact execSelftestDone_kept h
  | engineReadmitted => exact execEngineReadmitted_kept h
  | supHeartbeat => exact execSupHeartbeat_kept h
  | supFailover => exact execSupFailover_kept h
  | supTakeoverDone => exact execSupTakeoverDone_kept h
  | event => exact execEvent_kept h
  | lanternSample => exact execLanternSample_kept h
  | lanternWake => exact execLanternWake_kept h
  | prescalerTick => exact execPrescalerTick_kept h
  | timerWrap => exact execTimerWrap_kept h
  | timerCountRead => exact execTimerCountRead_kept h
  | timerCountLoad => exact execTimerCountLoad_kept h
  | timerClear => exact execTimerClear_kept h
  | mtReturnToZero => exact execMtReturnToZero_kept h
  | mtRestart => exact execMtRestart_kept h
  | halfWrite => exact execHalfWrite_kept h
  | capture => exact execCapture_kept h
  | compareCycle => exact execCompareCycle_kept h
  | pinEdge => exact execPinEdge_kept h
  | pioDelay => exact execPioDelay_kept h
  | pioSet => exact execPioSet_kept h
  | pioOut => exact execPioOut_kept h
  | pioIn => exact execPioIn_kept h
  | pioWait => exact execPioWait_kept h
  | pioJmp => exact execPioJmp_kept h
  | pioPull => exact execPioPull_kept h
  | pioPush => exact execPioPush_kept h
  | pioBadInstr => exact execPioBadInstr_kept h
  | groupStart => exact execGroupStart_kept h
  | groupStop => exact execGroupStop_kept h
  | clkRestart => exact execClkRestart_kept h
  | txf => exact execTxf_kept h
  | rxf => exact execRxf_kept h
  | gateLinkFail => exact execGateLinkFail_kept h
  | imageChunk => exact execImageChunk_kept h
  | wake => exact execWake_kept h
  | sqTail => exact execSqTail_kept h
  | cqHead => exact execCqHead_kept h
  | ringCtrl => exact execRingCtrl_kept h
  | counters => exact execCounters_kept h
  | keyCommit => exact execKeyCommit_kept h
  | pcieReset => exact execPcieReset_kept h
  | nvsPageWrite => exact execNvsPageWrite_kept h
  | savGo => exact execSavGo_kept h
  | savCommit => exact execSavCommit_kept h
  | erase => exact execErase_kept h
  | rtcHundredth => exact execRtcHundredth_kept h
  | rtcCommit => exact execRtcCommit_kept h
  | panelUpdate => exact execPanelUpdate_kept h
  | panelUpdateStart => exact execPanelUpdateStart_kept h
  | panelUpdateDone => exact execPanelUpdateDone_kept h
  | panelStop => exact execPanelStop_kept h
  | panelRecovered => exact execPanelRecovered_kept h
  | pfw => exact execPfw_kept h
  | pfwCleared => exact execPfwCleared_kept h
  | fwuOpen => exact execFwuOpen_kept h
  | fwuVerify => exact execFwuVerify_kept h
  | fwuVerified => exact execFwuVerified_kept h
  | fwuActivate => exact execFwuActivate_kept h
  | fwuSwapped => exact execFwuSwapped_kept h
  | fwuConfirm => exact execFwuConfirm_kept h
  | trialEnd => exact execTrialEnd_kept h
  | fwuRollback => exact execFwuRollback_kept h
  | fwuAbort => exact execFwuAbort_kept h
  | standbyReady => exact execStandbyReady_kept h
  | powerPark => exact execPowerPark_kept h
  | parkComplete => exact execParkComplete_kept h
  | powerRun => exact execPowerRun_kept h
  | powerDormant => exact execPowerDormant_kept h
  | feedLost => exact execFeedLost_kept h
  | feedRestored => exact execFeedRestored_kept h
  | powerOn => exact execPowerOn_kept h
  | ready => exact execReady_kept h
  | supplyFall => exact execSupplyFall_kept h
  | alwaysOnLoss => exact execAlwaysOnLoss_kept h
  | clockFault => exact execClockFault_kept h
  | portReset => exact execPortReset_kept h
  | temperatureWarning => exact execTemperatureWarning_kept h
  | temperatureTrip => exact execTemperatureTrip_kept h
  | temperatureRecover => exact execTemperatureRecover_kept h
  | modEnable => exact execModEnable_kept h
  | enginesUp => exact execEnginesUp_kept h
  | modDisable => exact execModDisable_kept h
  | syncing => exact execSyncing_kept h

theorem State.Inv.kept (h : s.Inv) : s.Kept s.pending True :=
  let ⟨hregs, hhbm, htenants⟩ := h
  ⟨rfl, fun _ => hregs, fun _ => hhbm, fun _ => of_decide_eq_true htenants⟩

theorem State.Kept.inv (h : s.Kept q True) : s.Inv :=
  ⟨h.regs trivial, h.hbm trivial, decide_eq_true (h.tenants trivial)⟩

theorem State.Kept.withPending (r : List Instr) (h : s.Kept q w) : { s with pending := r }.Kept r w :=
  ⟨rfl, h.regs, h.hbm, h.tenants⟩

/-- A step takes the front command off the queue and keeps all else of `Kept`. -/
theorem step_kept (h : s.Kept q w) : KeptOut q.tail w (step s) := by
  unfold step
  rw [h.pending]
  cases q with
  | nil => exact Kept.next (State.idle_kept h)
  | cons i rest => exact exec_kept i (h.withPending rest)

end Sys2Proof.Machine

open Sys2Proof.Machine

/-- Settles O59: a step is a command or an idle tick, and each keeps the queue and the canonical form. -/
theorem stepKeepsInv : Obligations.StepKeepsInv := by
  unfold Obligations.StepKeepsInv
  intro s h
  obtain ⟨u, hu, hkept⟩ := step_kept h.kept
  exact ⟨u, hu, hkept.inv, hkept.pending⟩
end

section
/-! PROOF. How a page-bus access that arrives is performed. -/

namespace Sys2Proof.Rule

open Sys2Proof.Machine

variable {s s1 : State} {i : Instr} {m : Msg} {ty : Byte} {pay : List Byte}

/-- A message or access that comes alone is judged at once. -/
theorem arrive_of_whole (h : Whole i) : s.arrive i = s.arriveOne i := by
  obtain ⟨hparts, hbar⟩ := h
  simp only [State.arrive, hbar, hparts, List.foldl_cons, List.foldl_nil]

/-- What need not wait and is not stale takes effect. -/
theorem perform_of_fresh (hwait : s.mustWait i = false) (hi : inbound i = some (m, ty, pay))
    (hstale : s.stale i m ty = false) : s.perform i = s.effect i := by
  simp [State.perform, State.act, hwait, hi, hstale]

/-- A command that is no gate message takes effect when it arrives. -/
theorem arrive_of_inbound_none (h : Arrives s s1 i) (hi : inbound i = none) : s.arrive i = s1.effect i := by
  simp only [Arrives, hi] at h
  obtain ⟨hon, hwait, hwhole, rfl⟩ := h
  simp [arrive_of_whole hwhole, State.arriveOne, hon, hi, State.perform, State.act, hwait]

/-- A message that arrives takes effect on the state after the checks. -/
theorem arrive_of_inbound (h : Arrives s s1 i) (hi : inbound i = some (m, ty, pay)) :
    s.arrive i = behind i m (s1.effect i) := by
  simp only [Arrives, hi] at h
  obtain ⟨hon, hwait, hwhole, hlink, hholds, hadmit, hform, hen, hstale, hpfw, -⟩ := h
  have hrefused : (isEpochCmd i && s1.bit F.NVS_STATUS_PFW) = false := by
    cases he : isEpochCmd i
    · rfl
    · simp [hpfw he]
  have hpass : (!s1.bit F.MOD_EN && !passesDisabled ty) = false := by
    rcases hen with hen | hen <;> simp [hen]
  have hjudge : s1.judge State.performNew i = s1.effect i := by
    simp [State.judge, hi, hform, hpass, State.performNew, hrefused, perform_of_fresh hwait hi hstale]
  simp only [arrive_of_whole hwhole, State.arriveOne, hon, hi, hlink, hholds, hadmit, hjudge, behind, if_false, Bool.false_eq_true]

/-- A page-bus access that arrives takes effect on the state after the checks. -/
theorem arrive_of_access (h : Arrives s s1 i) (ha : (access i).isSome = true) : s.arrive i = s1.effect i := by
  match hi : inbound i with
  | none => exact arrive_of_inbound_none h hi
  | some (m, ty, pay) =>
    have hsup : forSup i = false := by simp [forSup, ha]
    rw [arrive_of_inbound h hi, behind, hsup]
    rfl

/-- A write access reaches the page bus in its master's name and gate cycle. -/
theorem effect_configWrite (s : State) (src : BusSrc) (a : Word) (mask : BitVec 4) (d : Word) :
    s.effect (.configWrite src a mask d) = s.busWrite (master src) (cycle src) a mask d := by
  cases src <;> rfl

theorem access_configWrite_isSome (src : BusSrc) (a : Word) (mask : BitVec 4) (d : Word) :
    (access (.configWrite src a mask d)).isSome = true := by
  cases src <;> rfl

theorem access_configRead_isSome (src : BusSrc) (a : Word) : (access (.configRead src a)).isSome = true := by
  cases src <;> rfl

theorem arrive_configWrite {src : BusSrc} {a : Word} {mask : BitVec 4} {d : Word}
    (h : Arrives s s1 (.configWrite src a mask d)) :
    s.arrive (.configWrite src a mask d) = s1.busWrite (master src) (cycle src) a mask d := by
  rw [arrive_of_access h (access_configWrite_isSome src a mask d), effect_configWrite]

/-- What a read that returns `w` sends back: a host gets a reply, the supervisor has the value. -/
def answered (src : BusSrc) (v : State) (w : Word) : State :=
  match src with
  | .sup _ => v
  | .gate m => v.reply m true 0 w

theorem readFor_eq (s : State) (src : BusSrc) (a : Word) (f : State → State) :
    s.readFor src a f = answered src (f (s.busRead (master src) (cycle src) a).1) (s.busRead (master src) (cycle src) a).2 := by
  cases src <;> rfl

theorem arrive_configRead {src : BusSrc} {a : Word} (h : Arrives s s1 (.configRead src a)) :
    s.arrive (.configRead src a) = answered src (s1.busRead (master src) (cycle src) a).1
      (s1.busRead (master src) (cycle src) a).2 := by
  rw [arrive_of_access h (access_configRead_isSome src a)]
  exact readFor_eq s1 src a id

/-- The read of a counter comes through wherever the plain read of its address does. -/
theorem arrives_rcCounterRead {src : BusSrc} {a : Word} (inc : Bool) (h : Arrives s s1 (.configRead src a)) :
    Arrives s s1 (.rcCounterRead src a inc) := by
  obtain ⟨hon, hwait, -, hrest⟩ := h
  cases src
  · exact ⟨hon, hwait, ⟨rfl, rfl⟩, hrest⟩
  · exact ⟨hon, hwait, ⟨rfl, rfl⟩, hrest⟩

theorem arrive_rcCounterRead {src : BusSrc} {a : Word} (inc : Bool) (h : Arrives s s1 (.configRead src a)) :
    s.arrive (.rcCounterRead src a inc) = answered src ((s1.busRead (master src) (cycle src) a).1.increment a inc)
      (s1.busRead (master src) (cycle src) a).2 := by
  rw [arrive_of_access (arrives_rcCounterRead inc h) (by cases src <;> rfl)]
  exact readFor_eq s1 src a fun s => s.increment a inc

end Sys2Proof.Rule
end

section
/-! PROOF. What the operations of the page bus change, in the terms of the statements (`Words`, `Counted`). -/

namespace Sys2Proof.Rule

open Sys2Proof.Machine

variable {s u v : State} {ks : List Nat}

/-! Only words of the register table. -/

theorem Words.refl (s : State) (ks : List Nat) : Words s s ks := ⟨⟨_, _, _, _, rfl⟩, fun _ _ => rfl⟩

theorem Words.trans (h : Words s u ks) (h' : Words u v ks) : Words s v ks := by
  obtain ⟨⟨_, _, _, _, rfl⟩, hword⟩ := h
  obtain ⟨⟨_, _, _, _, rfl⟩, hword'⟩ := h'
  exact ⟨⟨_, _, _, _, rfl⟩, fun a ha => (hword' a ha).trans (hword a ha)⟩

theorem Words.mono {ls : List Nat} (h : Words s u ks) (hsub : ks ⊆ ls) : Words s u ls :=
  ⟨h.1, fun a ha => h.2 a fun hk => ha (hsub hk)⟩

theorem Words.tenant (h : Words s u ks) (k : Nat) : u.tenant k = s.tenant k := by
  obtain ⟨⟨_, _, _, _, rfl⟩, -⟩ := h; rfl

theorem words_setWord (s : State) {k : Nat} (v : Word) (hk : k ∈ ks) : Words s (s.setWord k v) ks :=
  ⟨⟨_, _, _, _, rfl⟩, fun a ha => by rw [State.word_setWord, if_neg (ne_of_mem_of_not_mem hk ha).symm]⟩

theorem words_bus (s : State) (b : Bus) : Words s { s with bus := b } ks := ⟨⟨_, _, _, _, rfl⟩, fun _ _ => rfl⟩

theorem words_busEnter (s : State) (gc : Nat) : Words s (s.busEnter gc) ks := by
  unfold State.busEnter
  split
  · exact ⟨⟨_, _, _, _, rfl⟩, fun _ _ => rfl⟩
  · exact .refl s ks

theorem words_turn (s : State) (src : BusSrc) : Words s (turn s src) ks := words_busEnter s _

theorem words_countNow (s : State) {f : Fld} (hf : f.key ∈ ks) : Words s (s.countNow f) ks := by
  unfold State.countNow State.count
  dsimp only
  split
  · exact (words_bus s _).trans (words_setWord _ _ hf)
  · exact words_setWord _ _ hf

theorem words_grow (s : State) {k : Nat} (hk : k ∈ ks) : Words s (s.grow k) ks := by
  unfold State.grow
  dsimp only
  split
  · exact (words_setWord s _ hk).trans ⟨⟨_, _, _, _, rfl⟩, fun _ _ => rfl⟩
  · exact .refl s ks

theorem words_accrue (s : State) (p : Page) {a : Nat} (ha : a / 4 ∈ ks) : Words s (s.accrue p a) ks := by
  unfold State.accrue
  split
  · exact words_grow s ha
  · exact .refl s ks

theorem words_disarm (s : State) (x : Master) (p : Page) : Words s (s.disarm x p) ks := words_bus s _

theorem words_remember (s : State) (p : Page) (x : Master) (a : Nat) (m d : Word) : Words s (s.remember p x a m d) ks :=
  words_bus s _

theorem words_plainWrite (s : State) {a : Nat} (m d : Word) (ha : a / 4 ∈ ks) : Words s (s.plainWrite a m d) ks :=
  words_setWord s _ ha

/-! What a write and a count leave in a word. -/

theorem word_countNow (s : State) (f : Fld) (j : Nat) :
    (s.countNow f).word j = if j = f.key then satInc (s.word j) else s.word j := by
  unfold State.countNow
  dsimp only
  split <;> exact State.word_count _ f j

theorem word_plainWrite_self (s : State) (a : Nat) (m d : Word) :
    (s.plainWrite a m d).word (a / 4) = (blend (m &&& BitVec.ofNat 32 (moduleWord a).rw) d (s.word (a / 4))
      &&& ~~~(m &&& d &&& BitVec.ofNat 32 (moduleWord a).w1c &&& s.wordBefore (a / 4))) :=
  State.word_setWord_self s _ _

/-! Counters of pages. -/

theorem tenantOf_mod {a k o : Nat} (h : tenantOf a = some (k, o)) : o % 0x1000 = a % 0x1000 := by
  simp only [tenantOf, Option.ite_none_right_eq_some, Bool.and_eq_true, decide_eq_true_eq, Option.some.injEq, Prod.mk.injEq] at h
  omega

theorem tenant_owner_setWord (t : Tenant) {key : Nat} (v : Word) (hkey : key % 0x400 ≠ 2) (p : Nat) :
    (t.setWord key v).owner p = t.owner p := by
  unfold Tenant.setWord
  split
  · rfl
  · simp only [Tenant.owner, Store.get_setAt tenantRst, if_neg (show 0x400 * p + 2 ≠ key by omega)]

/-- A counter of a tenant's page counts one: nothing else of the tenant changes. -/
theorem now_count (t : Tenant) {key : Nat} (hkey : key % 0x400 ≠ 2) :
    Now t (t.count ⟨key, 0, 32⟩) t.core [key] := by
  refine ⟨?_, fun a ha => ?_, tenant_owner_setWord t _ hkey⟩
  · unfold Tenant.count Tenant.setWord
    split
    · exact ⟨_, _, _, rfl⟩
    · exact ⟨_, _, _, rfl⟩
  · rw [Tenant.word_count, if_neg (by simpa using ha)]

/-- The RC counter at an address counts one, whichever page holds it. -/
theorem counted_pageCount (h : Words s u []) {a : Nat} (ha : a % 0x1000 / 4 ≠ 2) : Counted s (u.pageCount a) a := by
  cases htenant : tenantOf a with
  | none =>
    simp only [Counted, State.pageCount, htenant]
    exact ⟨(h.mono (List.nil_subset _)).trans (words_countNow u (List.mem_singleton_self _)), by
      rw [word_countNow, if_pos rfl, h.2 _ List.not_mem_nil]⟩
  | some ko =>
    obtain ⟨k, o⟩ := ko
    have hkey : o / 4 % 0x400 ≠ 2 := by
      have hmod := tenantOf_mod htenant
      omega
    simp only [Counted, State.pageCount, State.noteCount, htenant]
    refine ⟨(s.tenant k).count ⟨o / 4, 0, 32⟩, ?_, now_count _ hkey, ?_⟩
    · obtain ⟨⟨_, _, _, _, rfl⟩, hword⟩ := h
      exact ⟨⟨_, _, _, _, rfl⟩, hword⟩
    · rw [Tenant.word_count, if_pos rfl]

theorem Counted.bus {a : Nat} (h : Counted s u a) (b : Bus) : Counted s { u with bus := b } a := by
  unfold Counted at h ⊢
  split
  case h_1 htenant =>
    simp only [htenant] at h
    exact ⟨h.1.trans (words_bus u b), h.2⟩
  case h_2 k o htenant =>
    simp only [htenant] at h
    obtain ⟨t, hwords, hnow⟩ := h
    exact ⟨t, hwords.trans (words_bus u b), hnow⟩

/-! Pages. -/

/-- Whatever page an address has, it begins at the 4 KiB boundary below the address. -/
theorem pageOf_base {a : Nat} {p : Page} (h : pageOf a = some p) : p.base = a / 0x1000 * 0x1000 := by
  have hsome {b : Blk} {i : Nat} (h : some (⟨b, i, a / 0x1000 * 0x1000⟩ : Page) = some p) :
      p.base = a / 0x1000 * 0x1000 := by
    cases h
    rfl
  have hmap {α : Type} {o : Option α} {f : α → Page} (hf : ∀ x, (f x).base = a / 0x1000 * 0x1000)
      (h : o.map f = some p) : p.base = a / 0x1000 * 0x1000 := by
    obtain ⟨x, -, rfl⟩ := Option.map_eq_some_iff.1 h
    exact hf x
  unfold pageOf at h
  dsimp only at h
  split at h
  · exact hmap (fun _ => rfl) h
  split at h
  · split at h
    case h_4 => split at h <;> [exact hsome h; cases h]
    all_goals exact hsome h
  split at h
  · split at h
    case h_4 => cases h
    all_goals exact hsome h
  split at h
  · split at h <;> [exact hsome h; cases h]
  split at h
  · exact hmap (fun _ => rfl) h
  · cases h

end Sys2Proof.Rule
end

section
/-! PROOF. Writes over the page bus (R30, R31, R42, R48). -/

namespace Sys2Proof.Rule

open Sys2Proof.Machine

variable {s s1 : State} {src : BusSrc} {p : Page} {a : Nat} {mask : BitVec 4} {d : Word}

/-! The blocks whose registers only hold what is written to them. -/

theorem plain_of_tenantBlk {k : Nat} {b : Blk} (h : tenantBlk k = some b) : plain b = false := by
  unfold tenantBlk at h
  split at h <;> cases h <;> rfl

/-- A page with a plain block is no tenant page. -/
theorem tenantOf_of_plain (hp : pageOf a = some p) (hplain : plain p.blk = true) : tenantOf a = none := by
  unfold tenantOf
  refine if_neg fun hrange => ?_
  simp only [Bool.and_eq_true, decide_eq_true_eq] at hrange
  obtain ⟨hlo, hhi⟩ := hrange
  have hpage : ∃ k, tenantBlk k = some p.blk := by
    rw [pageOf, if_neg (by omega), if_neg (by omega), if_neg (by omega), if_neg (by simp; omega),
      if_pos (by simp [hlo, hhi]), Option.map_eq_some_iff] at hp
    obtain ⟨b, hb, rfl⟩ := hp
    exact ⟨_, hb⟩
  obtain ⟨k, hk⟩ := hpage
  rw [plain_of_tenantBlk hk] at hplain
  cases hplain

/-- On a page with a plain block, a register beside CTRL is only set. -/
theorem moduleWrite_of_plain (s : State) (x : Master) (m d : Word) (hplain : plain p.blk = true)
    (hoff : a - p.base ≠ 8) : s.moduleWrite p x a m d = s.plainWrite a m d := by
  unfold State.moduleWrite
  rw [if_neg hoff]
  split <;> simp_all [plain]

/-- On a page with a plain block, CTRL is only set. -/
theorem ctrlWrite_of_plain (s : State) (m d : Word) (hplain : plain p.blk = true) :
    s.ctrlWrite p m d = s.plainWrite (p.base + 8) m d := by
  unfold State.ctrlWrite
  split <;> simp_all [plain]

/-! How a write gets through. -/

@[simp] theorem disarm_ownerOf (s : State) (x : Master) (p r : Page) : (s.disarm x p).ownerOf r = s.ownerOf r := rfl
@[simp] theorem disarm_word (s : State) (x : Master) (p : Page) (j : Nat) : (s.disarm x p).word j = s.word j := rfl
@[simp] theorem disarm_wordBefore (s : State) (x : Master) (p : Page) (j : Nat) :
    (s.disarm x p).wordBefore j = s.wordBefore j := rfl

/-- A write of HOST-B to a SHARED page gives way to one of HOST-A to the same word of the gate cycle (R48). -/
def Beaten (s1 : State) (src : BusSrc) (p : Page) (a : Nat) : Prop :=
  master src = .hostB ∧ (turn s1 src).ownerOf p = 3 ∧ ((turn s1 src).aFollows (cycle src) a = true ∨
    ∃ w ∈ (turn s1 src).bus.wrote, w.key = a / 4 ∧ w.who = .hostA)

theorem beaten_iff : (decide (master src = .hostB) && decide ((turn s1 src).ownerOf p = 3) &&
    ((turn s1 src).aFollows (cycle src) a || (turn s1 src).bus.wrote.any fun w => w.key == a / 4 && w.who == .hostA)) = true
      ↔ Beaten s1 src p a := by
  simp [Beaten, and_assoc]

theorem turn_eq (s1 : State) (src : BusSrc) : s1.busEnter (cycle src) = turn s1 src := rfl

theorem toNat_word_address (ha : a % 4 = 0) (hlt : a < 2 ^ 32) : (BitVec.ofNat 32 a).toNat / 4 * 4 = a := by
  rw [BitVec.toNat_ofNat, Nat.mod_eq_of_lt hlt]
  omega

section
variable (ha : a % 4 = 0) (hlt : a < 2 ^ 32)
include ha hlt

theorem busWrite_of_reserved (hp : pageOf a = none) :
    s1.busWrite (master src) (cycle src) (BitVec.ofNat 32 a) mask d = (turn s1 src).voidAccess none := by
  simp only [State.busWrite, toNat_word_address ha hlt, hp, turn_eq]

variable (hp : pageOf a = some p)
include hp

theorem busWrite_of_rejected (hhost : hostAOnly a = false)
    (howner : ownerAccepts ((turn s1 src).ownerOf p) (master src) = false) :
    s1.busWrite (master src) (cycle src) (BitVec.ofNat 32 a) mask d
      = ((turn s1 src).disarm (master src) p).rejectWrite p (master src) a (byteMask mask) d := by
  simp only [State.busWrite, toNat_word_address ha hlt, hp, turn_eq]
  exact (if_neg (by simp [hhost])).trans (if_pos (by simp [hhost, howner]))

theorem busWrite_of_beaten (hhost : hostAOnly a = false)
    (howner : ownerAccepts ((turn s1 src).ownerOf p) (master src) = true) (hbeaten : Beaten s1 src p a) :
    s1.busWrite (master src) (cycle src) (BitVec.ofNat 32 a) mask d
      = ((turn s1 src).disarm (master src) p).countNow F.GTE_CONFLICT_DROP_COUNT := by
  simp only [State.busWrite, toNat_word_address ha hlt, hp, turn_eq]
  exact (if_neg (by simp [hhost])).trans ((if_neg (by simp [howner])).trans (if_pos (beaten_iff.2 hbeaten)))

theorem busWrite_of_accepted (hhost : hostAOnly a = true → master src = .hostA)
    (howner : ownerAccepts ((turn s1 src).ownerOf p) (master src) = true) (hbeaten : ¬Beaten s1 src p a) :
    s1.busWrite (master src) (cycle src) (BitVec.ofNat 32 a) mask d =
      let t := (turn s1 src).disarm (master src) p
      if !p.hasReg (a - p.base) then t.voidAccess (some p)
      else (if master src = .hostA && (turn s1 src).ownerOf p = 3 then t.dropB p a else t).acceptWrite p (master src) a
        (byteMask mask) d ((turn s1 src).bus.arms.contains (master src, p.base)) := by
  simp only [State.busWrite, toNat_word_address ha hlt, hp, turn_eq]
  exact (if_neg (by simpa using hhost)).trans ((if_neg (by simp [howner])).trans (if_neg (mt beaten_iff.1 hbeaten)))

end

/-- Where HOST-B has not written a word in the gate cycle, a write of HOST-A takes nothing back. -/
theorem dropB_eq_self (h : ∀ w ∈ s.bus.wrote, w.key = a / 4 → w.who ≠ .hostB) : s.dropB p a = s := by
  have hnone : (s.bus.wrote.find? fun w => w.key == a / 4 && w.who == .hostB) = none := by
    simpa [List.find?_eq_none] using h
  unfold State.dropB
  rw [hnone]

/-- An accepted write, against which no other host's write of the gate cycle stands. -/
theorem exec_of_reaches (h : Reaches s s1 src p a mask d) :
    exec (.configWrite src (BitVec.ofNat 32 a) mask d) s
      = .next (((turn s1 src).disarm (master src) p).acceptWrite p (master src) a (byteMask mask) d
          ((turn s1 src).bus.arms.contains (master src, p.base))) := by
  obtain ⟨harrives, hword, hlt, hp, hreg, hhost, howner, halone⟩ := h
  have hbeaten : ¬Beaten s1 src p a := by
    rintro ⟨hx, ho, hfollows | ⟨w, hw, hkey, hwho⟩⟩
    · cases hfollows.symm.trans ((halone ho).2 hx)
    · have hwho' := (halone ho).1 w hw hkey
      simp [hx, hwho] at hwho'
  have hdrop : (master src = .hostA && (turn s1 src).ownerOf p = 3) = true →
      ((turn s1 src).disarm (master src) p).dropB p a = (turn s1 src).disarm (master src) p := by
    intro h
    simp only [Bool.and_eq_true, decide_eq_true_eq] at h
    obtain ⟨hx, ho⟩ := h
    refine dropB_eq_self fun w hw hkey hwho => ?_
    have hwho' := (halone ho).1 w hw hkey
    simp [hx, hwho] at hwho'
  show Host.Outcome.next (s.arrive _) = _
  rw [arrive_configWrite harrives, busWrite_of_accepted hword hlt hp (by simp [hhost]) howner hbeaten]
  dsimp only
  rw [if_neg (by simp [hreg]), ite_eq_right_iff.2 hdrop]

end Sys2Proof.Rule
end

section
/-! PROOF. What a write leaves (R5, R30, R31, R42, R48). -/

namespace Sys2Proof.Rule

open Sys2Proof.Machine

variable {s s1 : State} {src : BusSrc} {p : Page} {a : Nat} {mask : BitVec 4} {d : Word}

theorem Reaches.pageOf_eq (h : Reaches s s1 src p a mask d) : pageOf a = some p := by
  obtain ⟨-, -, -, hp, -⟩ := h
  exact hp

@[simp] theorem remember_word (s : State) (p : Page) (x : Master) (a : Nat) (m d : Word) (j : Nat) :
    (s.remember p x a m d).word j = s.word j := rfl
@[simp] theorem remember_wordBefore (s : State) (p : Page) (x : Master) (a : Nat) (m d : Word) (j : Nat) :
    (s.remember p x a m d).wordBefore j = s.wordBefore j := rfl
@[simp] theorem countNow_wordBefore (s : State) (f : Fld) (j : Nat) : (s.countNow f).wordBefore j = s.wordBefore j := by
  unfold State.countNow
  dsimp only
  split <;> rfl

theorem turn_word (s : State) (src : BusSrc) (j : Nat) : (turn s src).word j = s.word j :=
  (words_turn s src (ks := [])).2 j List.not_mem_nil

/-- An accepted write to a register of a page with a plain block, beside CTRL and EXPERT_KEY, is remembered and sets it. -/
theorem acceptWrite_of_plain (s : State) (x : Master) (m d : Word) (armed : Bool) (hplain : plain p.blk = true)
    (htenant : tenantOf a = none) (hoff : 0x14 ≤ a - p.base) :
    s.acceptWrite p x a m d armed = (s.remember p x a m d).plainWrite a m d := by
  have h8 : a - p.base ≠ 8 := by omega
  have h16 : a - p.base ≠ 16 := by omega
  simp only [State.acceptWrite, h8, h16, if_false, htenant]
  exact moduleWrite_of_plain _ x m d hplain h8

/-- The word that an accepted write to a plain register leaves, of the word `w`. -/
def written (s1 : State) (src : BusSrc) (a : Nat) (mask : BitVec 4) (d w : Word) : Word :=
  blend (byteMask mask &&& BitVec.ofNat 32 (moduleWord a).rw) d w
    &&& ~~~(byteMask mask &&& d &&& BitVec.ofNat 32 (moduleWord a).w1c &&& (turn s1 src).wordBefore (a / 4))

/-- An accepted write to a plain register changes this register alone. -/
theorem plain_write (h : Reaches s s1 src p a mask d) (hplain : plain p.blk = true) (hoff : 0x14 ≤ a - p.base) :
    ∃ u, exec (.configWrite src (BitVec.ofNat 32 a) mask d) s = .next u ∧ Words s1 u [a / 4] ∧
      u.word (a / 4) = written s1 src a mask d (s1.word (a / 4)) := by
  have htenant := tenantOf_of_plain h.pageOf_eq hplain
  refine ⟨_, exec_of_reaches h, ?_⟩
  rw [acceptWrite_of_plain _ _ _ _ _ hplain htenant hoff]
  constructor
  · exact (((words_turn s1 src).trans (words_disarm _ _ p)).trans (words_remember _ p _ a _ d)).trans
      (words_plainWrite _ _ d (List.mem_singleton_self _))
  · rw [word_plainWrite_self, remember_word, remember_wordBefore, disarm_word, disarm_wordBefore, turn_word]
    rfl

/-- HOST-A takes back what HOST-B has written to a register that is only set (R48). -/
theorem dropB_of_settable {w : BusWrite} (hwrote : s.bus.wrote = [w]) (hkey : w.key = a / 4) (hwho : w.who = .hostB)
    (htenant : tenantOf a = none) (hset : p.settable (a - p.base) = true) :
    s.dropB p a = { s.setWord (a / 4) w.stored with
      bus := { s.bus with wrote := s.bus.wrote.erase w } }.countNow F.GTE_CONFLICT_DROP_COUNT := by
  have hfind : (s.bus.wrote.find? fun w => w.key == a / 4 && w.who == .hostB) = some w := by
    simp [hwrote, hkey, hwho]
  simp only [State.dropB, hfind, htenant, hset, if_true, State.setWord_bus]

/-- A register of a page other than the gate's is not the counter of dropped writes. -/
theorem key_ne_conflictDrop (ha : a % 4 = 0) (hp : pageOf a = some p) (hblk : p.blk ≠ .gte) :
    a / 4 ≠ F.GTE_CONFLICT_DROP_COUNT.key := by
  intro hkey
  have h : a = 0x3F0C := by
    have hkey' : F.GTE_CONFLICT_DROP_COUNT.key = 0x3F0C / 4 := rfl
    omega
  subst h
  cases hp
  exact hblk rfl

/-- HOST-A's write to a word that HOST-B has written in the gate cycle takes that write back. -/
theorem overtaking_write {w : BusWrite} (harrives : Arrives s s1 (.configWrite src (BitVec.ofNat 32 a) mask d))
    (ha : a % 4 = 0) (hlt : a < 2 ^ 32) (hp : pageOf a = some p) (hreg : p.hasReg (a - p.base) = true)
    (hblk : p.blk ∈ [Blk.nvs, .lan, .ptp]) (hoff : 0x14 ≤ a - p.base) (hx : master src = .hostA)
    (howner : (turn s1 src).ownerOf p = 3) (hwrote : (turn s1 src).bus.wrote = [w]) (hkey : w.key = a / 4)
    (hwho : w.who = .hostB) :
    ∃ u, exec (.configWrite src (BitVec.ofNat 32 a) mask d) s = .next u ∧
      Words s1 u [a / 4, F.GTE_CONFLICT_DROP_COUNT.key] ∧ u.word (a / 4) = written s1 src a mask d w.stored ∧
      u.word F.GTE_CONFLICT_DROP_COUNT.key = satInc (s1.word F.GTE_CONFLICT_DROP_COUNT.key) := by
  obtain ⟨hplain, hgte⟩ : plain p.blk = true ∧ p.blk ≠ .gte := by
    simp only [List.mem_cons, List.not_mem_nil, or_false] at hblk
    rcases hblk with h | h | h <;> rw [h] <;> exact ⟨rfl, Blk.noConfusion⟩
  have hset : p.settable (a - p.base) = true := by
    have h8 : a - p.base ≠ 8 := by omega
    have h16 : a - p.base ≠ 16 := by omega
    simp only [List.mem_cons, List.not_mem_nil, or_false] at hblk
    rcases hblk with h | h | h <;> simp [Page.settable, h, h8, h16]
  have htenant := tenantOf_of_plain hp hplain
  have hne := key_ne_conflictDrop ha hp hgte
  have hdrop := dropB_of_settable (s := (turn s1 src).disarm (master src) p) hwrote hkey hwho htenant hset
  refine ⟨_, congrArg Host.Outcome.next (arrive_configWrite harrives), ?_⟩
  rw [busWrite_of_accepted ha hlt hp (fun _ => hx) (by simp [howner, hx, ownerAccepts]) (by simp [Beaten, hx])]
  dsimp only
  rw [if_neg (by simp [hreg]), if_pos (by simp [hx, howner]), hdrop, acceptWrite_of_plain _ _ _ _ _ hplain htenant hoff]
  refine ⟨?_, ?_, ?_⟩
  · refine (((((words_turn s1 src).trans (words_disarm _ _ p)).trans (words_setWord _ w.stored ?_)).trans
      (words_bus _ _)).trans (words_countNow _ ?_)).trans ((words_remember _ p _ a _ d).trans (words_plainWrite _ _ d ?_))
    all_goals simp
  · rw [word_plainWrite_self, remember_word, remember_wordBefore, word_countNow, if_neg hne, countNow_wordBefore]
    congr 2
    exact State.word_setWord_self _ _ _
  · rw [(words_plainWrite _ _ d (List.mem_singleton_self _)).2 _ (by simpa using hne.symm), remember_word, word_countNow,
      if_pos rfl]
    congr 1
    exact (State.word_setWord _ _ _ _).trans (if_neg hne.symm) |>.trans (turn_word s1 src _)

end Sys2Proof.Rule
end

section
/-! PROOF. Owners of pages, and the writes that the page bus does not accept (R31, R42, R44, R45, R48). -/

namespace Sys2Proof.Rule

open Sys2Proof.Machine

variable {s u s1 : State} {src : BusSrc} {p : Page} {a n : Nat} {mask : BitVec 4} {d : Word}

/-! OWNER. -/

/-- What stands as OWNER, and what the gate cycle began with, decide which owner a page has. -/
theorem ownerOf_congr (howners : u.bus.owners = s.bus.owners) (hnow : u.ownerNow p = s.ownerNow p) :
    u.ownerOf p = s.ownerOf p := by
  simp only [State.ownerOf, howners, hnow]

/-- From the next gate cycle on, OWNER as it stands applies. -/
theorem ownerOf_busEnter (hfixed : p.blk.fixed = false) {gc : Nat} (hgc : u.bus.cycle < gc) :
    (u.busEnter gc).ownerOf p = u.ownerNow p := by
  rw [State.busEnter, if_pos hgc]
  unfold State.ownerOf
  rw [if_neg (by simp [hfixed])]
  rfl

theorem tenantOf_ctrl (hbase : p.base % 0x1000 = 0) :
    tenantOf (p.base + 8) = (tenantOf p.base).map fun ko => (ko.1, ko.2 + 8) := by
  unfold tenantOf
  by_cases h : 0x1000000 ≤ p.base ∧ p.base < 0x5000000
  · rw [if_pos (by simp; omega), if_pos (by simp; omega), Option.map_some, Option.some.injEq, Prod.mk.injEq]
    omega
  · rw [if_neg (by simp; omega), if_neg (by simp; omega), Option.map_none]

/-- The old owner of a page remembered for the rest of the gate cycle, where the new one is another. -/
def noteOwner (s : State) (p : Page) (n : Nat) : State :=
  if s.ownerNow p = n || s.bus.owners.any (fun x => x.1 == p.base) then s
  else { s with bus := { s.bus with owners := s.bus.owners ++ [(p.base, s.ownerNow p)] } }

/-- OWNER of a page as it stands replaced. -/
def replaceOwner (s : State) (p : Page) (n : Nat) : State :=
  match tenantOf p.base with
  | some (k, off) => s.setTenantOwner k (off / 0x1000) n
  | none => s.setFld ⟨(p.base + 8) / 4, 4, 2⟩ n

theorem setOwner_eq (s : State) (p : Page) (n : Nat) : s.setOwner p n = replaceOwner (noteOwner s p n) p n := rfl

theorem words_noteOwner (s : State) (p : Page) (n : Nat) {ks : List Nat} : Words s (noteOwner s p n) ks := by
  unfold noteOwner
  split
  · exact .refl s ks
  · exact words_bus s _

@[simp] theorem replaceOwner_bus (s : State) (p : Page) (n : Nat) : (replaceOwner s p n).bus = s.bus := by
  unfold replaceOwner
  split <;> rfl

theorem ownerNow_replaceOwner (s : State) (p : Page) (hn : n < 4) : (replaceOwner s p n).ownerNow p = n := by
  cases htenant : tenantOf p.base with
  | none =>
    simp only [State.ownerNow, replaceOwner, htenant, State.word_setFld, if_true]
    rw [getBits_setBits _ _ _ _ (by omega), Nat.mod_eq_of_lt (by omega)]
  | some ko =>
    simp only [State.ownerNow, replaceOwner, htenant, State.setTenantOwner, State.tenant_onTenant_self, Tenant.owner,
      Store.get_set_self]
    rw [getBits_setBits _ _ _ _ (by omega), Nat.mod_eq_of_lt (by omega)]

theorem ownerNow_setOwner (s : State) (p : Page) (hn : n < 4) : (s.setOwner p n).ownerNow p = n := by
  rw [setOwner_eq, ownerNow_replaceOwner _ p hn]

/-- In the gate cycle of a change the old owner stays (R45). -/
theorem ownerOf_setOwner (s : State) (p : Page) (hn : n < 4) : (s.setOwner p n).ownerOf p = s.ownerOf p := by
  have hbus : (s.setOwner p n).bus = (noteOwner s p n).bus := by rw [setOwner_eq, replaceOwner_bus]
  cases hfind : s.bus.owners.find? fun o => o.1 == p.base with
  | some o =>
    have hnoted : (s.bus.owners.any fun x => x.1 == p.base) = true :=
      List.any_eq_true.2 ⟨o, List.mem_of_find?_eq_some hfind, by simpa using List.find?_some hfind⟩
    simp only [State.ownerOf, hbus, noteOwner, hnoted, Bool.or_true, if_true, hfind]
  | none =>
    have hnoted : (s.bus.owners.any fun x => x.1 == p.base) = false := by
      simpa [List.find?_eq_none, List.any_eq_false] using hfind
    by_cases hsame : s.ownerNow p = n
    · refine ownerOf_congr ?_ ((ownerNow_setOwner s p hn).trans hsame.symm)
      rw [hbus, noteOwner, if_pos (by simp [hsame])]
    · simp [State.ownerOf, hbus, noteOwner, hnoted, hsame, hfind]

/-- OWNER alone changes. -/
theorem ownerSet_setOwner (s : State) (hbase : p.base % 0x1000 = 0) :
    OwnerSet s (s.setOwner p n) (p.base + 8) n := by
  rw [setOwner_eq]
  unfold OwnerSet replaceOwner
  rw [tenantOf_ctrl hbase]
  cases htenant : tenantOf p.base with
  | none =>
    simp only [Option.map_none]
    refine ⟨(words_noteOwner s p n).trans (words_setWord _ _ (List.mem_singleton_self _)), ?_⟩
    rw [State.word_setFld, if_pos rfl, (words_noteOwner s p n (ks := [])).2 _ List.not_mem_nil]
  | some ko =>
    obtain ⟨k, o⟩ := ko
    have hkey : (o + 8) / 4 = 0x400 * (o / 0x1000) + 2 := by
      have hmod := tenantOf_mod htenant
      omega
    simp only [Option.map_some, State.setTenantOwner]
    refine ⟨Store.set (tenantRst ((o + 8) / 4)) (s.tenant k).mregs ((o + 8) / 4)
      (setBits (Store.get (tenantRst ((o + 8) / 4)) (s.tenant k).mregs ((o + 8) / 4)) 4 2 n), ?_, fun j => ?_⟩
    · rw [hkey]
      unfold noteOwner
      split
      · exact .refl _ _
      · exact ⟨⟨_, _, _, _, rfl⟩, fun _ _ => rfl⟩
    · rw [Store.get_setAt tenantRst]
      split
      next h => rw [h]
      next => rfl

@[simp] theorem remember_ownerOf (s : State) (p r : Page) (x : Master) (a : Nat) (m d : Word) :
    (s.remember p x a m d).ownerOf r = s.ownerOf r := rfl

/-! Writes that the page bus does not accept. -/

theorem counted_wrReject (h : Words s u []) (hbase : p.base % 0x1000 = 0) {b : Nat} (hb : p.base + 0xF00 = b) :
    Counted s (u.wrReject p) b := by
  unfold State.wrReject
  rw [hb]
  exact counted_pageCount h (by omega)

theorem counted_voidAccess (h : Words s u []) (hbase : p.base % 0x1000 = 0) {b : Nat} (hb : p.base + 0xF04 = b) :
    Counted s (u.voidAccess (some p)) b := by
  unfold State.voidAccess
  dsimp only
  rw [hb]
  exact counted_pageCount h (by omega)

theorem counted_voidAccess_reserved (h : Words s u []) : Counted s (u.voidAccess none) 0xF04 := by
  unfold State.voidAccess
  exact counted_pageCount h (by decide)

theorem counted_conflictDrop (h : Words s u []) : Counted s (u.countNow F.GTE_CONFLICT_DROP_COUNT) 0x3F0C := by
  have hcount : u.countNow F.GTE_CONFLICT_DROP_COUNT = u.pageCount 0x3F0C := rfl
  rw [hcount]
  exact counted_pageCount h (by decide)

theorem byteMask_getLsbD_four (m : BitVec 4) : (byteMask m).getLsbD 4 = m.getLsbD 0 := by decide +revert

/-- OWNER written: a write of SUP, or one that does not enable byte 0, leaves it (R44). -/
theorem ownerField_eq (s : State) (p : Page) (mask : BitVec 4) (d : Word) :
    s.ownerField p (byteMask mask) d =
      if p.blk.fixed = true ∨ mask.getLsbD 0 = false ∨ getBits d 4 2 = 0 then s else s.setOwner p (getBits d 4 2) := by
  unfold State.ownerField
  rw [byteMask_getLsbD_four]
  congr 1
  simp [or_assoc]

theorem getBits_lt (w : Word) (lo len : Nat) : getBits w lo len < 2 ^ len := Nat.mod_lt _ (Nat.two_pow_pos len)

theorem words_turn_disarm (s1 : State) (src : BusSrc) (p : Page) {ks : List Nat} :
    Words s1 ((turn s1 src).disarm (master src) p) ks :=
  (words_turn s1 src).trans (words_disarm _ _ p)

theorem pageCount_owners (s : State) (a : Nat) : (s.pageCount a).bus.owners = s.bus.owners := by
  unfold State.pageCount
  split
  · simp only [State.onTenant_bus, State.noteCount]
    split <;> rfl
  · unfold State.countNow
    dsimp only
    split <;> rfl

/-- Counting in a page leaves the owners of all pages. -/
theorem ownerNow_pageCount (s : State) {p : Page} (hbase : p.base % 0x1000 = 0) (ha : a % 0x1000 / 4 ≠ 2) :
    (s.pageCount a).ownerNow p = s.ownerNow p := by
  cases htenant : tenantOf a with
  | none =>
    have hword : (s.countNow ⟨a / 4, 0, 32⟩).word ((p.base + 8) / 4) = s.word ((p.base + 8) / 4) := by
      rw [word_countNow, if_neg (show (p.base + 8) / 4 ≠ a / 4 by omega)]
    have htenants : ∀ k, (s.countNow ⟨a / 4, 0, 32⟩).tenant k = s.tenant k := (words_countNow s (List.mem_singleton_self _)).tenant
    simp only [State.pageCount, htenant, State.ownerNow, hword, htenants]
  | some ko =>
    obtain ⟨k, o⟩ := ko
    have hkey : o / 4 % 0x400 ≠ 2 := by
      have hmod := tenantOf_mod htenant
      omega
    have htenants : ∀ j i, ((s.pageCount a).tenant j).owner i = (s.tenant j).owner i := by
      intro j i
      simp only [State.pageCount, htenant, State.noteCount, State.tenant_onTenant]
      split
      next h => rw [h]; exact tenant_owner_setWord _ _ hkey i
      next => rfl
    simp only [State.ownerNow, htenants]
    simp only [State.pageCount, htenant, State.noteCount]
    rfl

theorem ownerOf_wrReject (s : State) (hbase : p.base % 0x1000 = 0) : (s.wrReject p).ownerOf p = s.ownerOf p := by
  unfold State.wrReject
  generalize hb : p.base + 0xF00 = b
  exact ownerOf_congr (pageCount_owners s b) (ownerNow_pageCount s hbase (by omega))

/-! The clauses on writes. -/

theorem pageOf_base_mod (hp : pageOf a = some p) : p.base % 0x1000 = 0 := by
  rw [pageOf_base hp]
  exact Nat.mul_mod_left _ _

section
variable (harrives : Arrives s s1 (.configWrite src (BitVec.ofNat 32 a) mask d)) (ha : a % 4 = 0) (hlt : a < 2 ^ 32)
include harrives ha hlt

/-- A write to a reserved page counts in VOID_ACCESS of MOD. -/
theorem reserved_write (hp : pageOf a = none) :
    ∃ u, exec (.configWrite src (BitVec.ofNat 32 a) mask d) s = .next u ∧ Counted s1 u 0xF04 := by
  refine ⟨_, congrArg Host.Outcome.next (arrive_configWrite harrives), ?_⟩
  rw [busWrite_of_reserved ha hlt hp]
  exact counted_voidAccess_reserved (words_turn s1 src)

variable (hp : pageOf a = some p) (hhost : hostAOnly a = false)
include hp hhost

/-- A write that the owner does not accept counts in WR_REJECT, and sets OWNER at most. -/
theorem rejected_write (howner : ownerAccepts ((turn s1 src).ownerOf p) (master src) = false)
    (hno : ¬(master src = .hostA ∧ a - p.base = 8) ∨ p.blk.fixed = true ∨ mask.getLsbD 0 = false ∨ getBits d 4 2 = 0) :
    ∃ u, exec (.configWrite src (BitVec.ofNat 32 a) mask d) s = .next u ∧ Counted s1 u (p.base + 0xF00) := by
  refine ⟨_, congrArg Host.Outcome.next (arrive_configWrite harrives), ?_⟩
  rw [busWrite_of_rejected ha hlt hp hhost howner]
  generalize hb : p.base + 0xF00 = b
  have hcounted := counted_wrReject (words_turn_disarm s1 src p) (pageOf_base_mod hp) hb
  unfold State.rejectWrite
  dsimp only
  split
  next hctrl =>
    rw [ownerField_eq, if_pos (hno.resolve_left (not_not.2 (by simpa using hctrl)))]
    exact hcounted.bus _
  next => exact hcounted

/-- HOST-A's OWNER applies from the next gate cycle on, though the write counts in WR_REJECT (R45). -/
theorem rejected_owner_write (howner : ownerAccepts ((turn s1 src).ownerOf p) (master src) = false)
    (hx : master src = .hostA) (hctrl : a = p.base + 8) (hfixed : p.blk.fixed = false) (hmask : mask.getLsbD 0 = true)
    (hn : getBits d 4 2 ≠ 0) :
    ∃ v u, exec (.configWrite src (BitVec.ofNat 32 a) mask d) s = .next u ∧ Counted s1 v (p.base + 0xF00) ∧
      OwnerSet v u a (getBits d 4 2) ∧ u.ownerOf p = (turn s1 src).ownerOf p ∧
      ∀ gc, u.bus.cycle < gc → (u.busEnter gc).ownerOf p = getBits d 4 2 := by
  have hbase := pageOf_base_mod hp
  have hlt4 : getBits d 4 2 < 4 := getBits_lt d 4 2
  set v := (((turn s1 src).disarm (master src) p).wrReject p).remember p (master src) a (byteMask mask) d with hv
  have hexec : exec (.configWrite src (BitVec.ofNat 32 a) mask d) s = .next (v.setOwner p (getBits d 4 2)) := by
    refine congrArg Host.Outcome.next ((arrive_configWrite harrives).trans ?_)
    rw [busWrite_of_rejected ha hlt hp hhost howner, State.rejectWrite, if_pos (by simp [hx, hctrl]), ownerField_eq,
      if_neg (by simp [hfixed, hmask, hn])]
  have howners : v.ownerOf p = (turn s1 src).ownerOf p := by
    rw [hv, remember_ownerOf, ownerOf_wrReject _ hbase, disarm_ownerOf]
  generalize hb : p.base + 0xF00 = b
  refine ⟨v, _, hexec, (counted_wrReject (words_turn_disarm s1 src p) hbase hb).bus _, ?_, ?_, fun gc hgc => ?_⟩
  · rw [hctrl]
    exact ownerSet_setOwner v hbase
  · rw [ownerOf_setOwner v p hlt4, howners]
  · rw [ownerOf_busEnter hfixed hgc, ownerNow_setOwner v p hlt4]

/-- A write of HOST-B that gives way to one of HOST-A counts in CONFLICT_DROP. -/
theorem beaten_write (howner : ownerAccepts ((turn s1 src).ownerOf p) (master src) = true)
    (hbeaten : Beaten s1 src p a) :
    ∃ u, exec (.configWrite src (BitVec.ofNat 32 a) mask d) s = .next u ∧ Counted s1 u 0x3F0C := by
  refine ⟨_, congrArg Host.Outcome.next (arrive_configWrite harrives), ?_⟩
  rw [busWrite_of_beaten ha hlt hp hhost howner hbeaten]
  exact counted_conflictDrop (words_turn_disarm s1 src p)

/-- An accepted write to no register counts in VOID_ACCESS. -/
theorem void_write (howner : ownerAccepts ((turn s1 src).ownerOf p) (master src) = true)
    (hbeaten : ¬Beaten s1 src p a) (hreg : p.hasReg (a - p.base) = false) :
    ∃ u, exec (.configWrite src (BitVec.ofNat 32 a) mask d) s = .next u ∧ Counted s1 u (p.base + 0xF04) := by
  refine ⟨_, congrArg Host.Outcome.next (arrive_configWrite harrives), ?_⟩
  rw [busWrite_of_accepted ha hlt hp (by simp [hhost]) howner hbeaten]
  dsimp only
  rw [if_pos (by simp [hreg])]
  generalize hb : p.base + 0xF04 = b
  exact counted_voidAccess (words_turn_disarm s1 src p) (pageOf_base_mod hp) hb

end

theorem configWrites : ConfigWrites := by
  intro src a mask d
  refine ⟨?_, ?_, ?_⟩
  · intro s s1 p h hplain hoff
    exact plain_write h hplain hoff
  · intro s s1 p w harrives ha hlt hp hreg hblk hoff hx howner hwrote hkey hwho
    exact overtaking_write harrives ha hlt hp hreg hblk hoff hx howner hwrote hkey hwho
  · intro s s1 harrives ha hlt hhost
    refine ⟨reserved_write harrives ha hlt, fun p hp => ⟨?_, ?_, ?_, ?_⟩⟩
    · intro howner hno
      exact rejected_write harrives ha hlt hp hhost howner (.inl hno)
    · intro howner hx hctrl
      exact ⟨fun hno => rejected_write harrives ha hlt hp hhost howner (.inr hno),
        rejected_owner_write harrives ha hlt hp hhost howner hx hctrl⟩
    · exact beaten_write harrives ha hlt hp hhost
    · exact void_write harrives ha hlt hp hhost

end Sys2Proof.Rule
end

section
/-! PROOF. OWNER, EXPERT_KEY and EXPERT of a page (R38, R44, R45). -/

namespace Sys2Proof.Rule

open Sys2Proof.Machine

variable {s u s1 : State} {src : BusSrc} {p : Page} {a : Nat} {page : Word} {mask : BitVec 4} {d : Word}

/-! CTRL of a page with a plain block. -/

/-- The rows of a plain page: all of its block, or those below the counters. -/
theorem rowsAt_of_plain {b : Blk} (hplain : plain b = true) (inst : Nat) :
    b.rowsAt inst ∈ [b.rows, b.rows.filter fun r => r.off < 0xF00] := by
  unfold Blk.rowsAt
  split
  · split <;> simp
  · cases hplain
  · simp

theorem expert_rw_of_rows : ∀ b ∈ [Blk.nvs, .lan, .ptp, .sec, .sblt, .sdma, .cmp, .eng, .bnk, .rng],
    ∀ rows ∈ [b.rows, b.rows.filter fun r => r.off < 0xF00],
      (wordOf (commonRows b.fixed ++ rows) 8).rw.testBit 1 = true ∧
        (wordOf (commonRows b.fixed ++ rows) 8).w1c.testBit 1 = false := by
  decide +kernel

/-- On a page with a plain block, EXPERT is a RW bit (R29, R38). -/
theorem expert_rw_of_plain {b : Blk} (hplain : plain b = true) (inst : Nat) :
    (b.word inst 8).rw.testBit 1 = true ∧ (b.word inst 8).w1c.testBit 1 = false :=
  expert_rw_of_rows b (List.contains_iff_mem.1 hplain) _ (rowsAt_of_plain hplain inst)

theorem moduleWord_ctrl (hp : pageOf a = some p) (hctrl : a = p.base + 8) : moduleWord a = p.blk.word p.inst 8 := by
  have hoff : a % 0x1000 / 4 * 4 = 8 := by
    have hbase := pageOf_base_mod hp
    omega
  simp only [moduleWord, hp, hoff]

/-- The word of a page with a plain block that CTRL's read finds is the word as stored. -/
theorem derived_ctrl_of_plain (s : State) (w : Word) (hplain : plain p.blk = true) : s.derived p 8 w = w := by
  unfold State.derived
  split <;> simp_all [plain]

/-- EXPERT as a read finds it, on a page with a plain block. -/
theorem pageRead_expert (s : State) (x : Master) (hp : pageOf a = some p) (hctrl : a = p.base + 8)
    (hplain : plain p.blk = true) : (s.pageRead p x a).getLsbD 1 = (s.word (a / 4)).getLsbD 1 := by
  have hoff : a - p.base = 8 := by omega
  have hrw := (expert_rw_of_plain hplain p.inst).1
  simp only [State.pageRead, State.pageWord, hoff, tenantOf_of_plain hp hplain, derived_ctrl_of_plain s _ hplain,
    moduleWord_ctrl hp hctrl]
  simp [BitVec.getLsbD_ofNat, hrw]

/-! CTRL. -/

/-- The bits of a write to CTRL that are set by it: not OWNER, which the page bus keeps, and EXPERT only where it is armed,
is set already, or is cleared (R38, R45). -/
def ctrlMask (s : State) (p : Page) (x : Master) (a : Nat) (m d : Word) (armed : Bool) : Word :=
  m &&& ~~~0x30 &&& (if !armed && !(s.pageRead p x a).getLsbD 1 && d.getLsbD 1 then ~~~2 else 0xFFFFFFFF)

/-- An accepted write to CTRL of a page with a plain block. -/
theorem acceptWrite_ctrl (s : State) (x : Master) (m d : Word) (armed : Bool) (hp : pageOf a = some p)
    (hctrl : a = p.base + 8) (hplain : plain p.blk = true) :
    s.acceptWrite p x a m d armed =
      let t := (s.remember p x a m d).ownerField p m d
      t.plainWrite a (ctrlMask t p x a m d armed) d := by
  have hoff : a - p.base = 8 := by omega
  simp only [State.acceptWrite, hoff, tenantOf_of_plain hp hplain, State.moduleWrite, ctrlWrite_of_plain _ _ _ hplain, ← hctrl]
  rfl

theorem bit_eq_getLsbD (s : State) (k i : Nat) : s.bit ⟨k, i, 1⟩ = (s.word k).getLsbD i := by
  have hbit := getBits_testBit (s.word k) i 1 0
  rw [Nat.add_zero, decide_eq_true Nat.zero_lt_one, Bool.true_and] at hbit
  have hlt : getBits (s.word k) i 1 < 2 := getBits_lt _ i 1
  rw [← hbit]
  show (getBits (s.word k) i 1 == 1) = _
  generalize getBits (s.word k) i 1 = n at hlt
  have hn : n = 0 ∨ n = 1 := by omega
  rcases hn with rfl | rfl <;> rfl

theorem ctrlMask_owner (t : State) (x : Master) (m d : Word) (armed : Bool) {i : Nat} (hi : i < 2) :
    (ctrlMask t p x a m d armed).getLsbD (4 + i) = false := by
  have hkeep : (~~~(0x30 : Word)).getLsbD (4 + i) = false := by
    have h : i = 0 ∨ i = 1 := by omega
    rcases h with rfl | rfl <;> rfl
  rw [ctrlMask, BitVec.getLsbD_and, BitVec.getLsbD_and, hkeep, Bool.and_false, Bool.false_and]

/-- OWNER stays in a write to CTRL, which leaves its bits. -/
theorem ownerNow_plainWrite_ctrl (s t : State) (x : Master) (m d : Word) (armed : Bool) (hctrl : a = p.base + 8)
    (htenant : tenantOf p.base = none) :
    (s.plainWrite a (ctrlMask t p x a m d armed) d).ownerNow p = s.ownerNow p := by
  simp only [State.ownerNow, htenant, ← hctrl, word_plainWrite_self]
  apply Nat.eq_of_testBit_eq
  intro i
  simp only [getBits_testBit]
  by_cases hi : i < 2
  · have hmask := ctrlMask_owner (p := p) (a := a) t x m d armed hi
    have h32 : 4 + i < 32 := by omega
    simp only [blend, BitVec.getLsbD_and, BitVec.getLsbD_or, BitVec.getLsbD_not, hmask, h32, Bool.false_and, Bool.not_false,
      Bool.and_false, Bool.or_false, Bool.and_true, decide_true]
  · simp [hi]

theorem onPage_eq {off : Nat} (hoff : off < 0x1000) (h : a = onPage page off) (hp : pageOf a = some p) :
    a = p.base + off := by
  have hbase := pageOf_base hp
  unfold onPage at h
  omega

theorem tenantOf_base_of_plain (hp : pageOf a = some p) (hctrl : a = p.base + 8) (hplain : plain p.blk = true) :
    tenantOf p.base = none := by
  have h := tenantOf_of_plain hp hplain
  rw [hctrl, tenantOf_ctrl (pageOf_base_mod hp), Option.map_eq_none_iff] at h
  exact h

theorem words_setOwner (s : State) (n : Nat) (hp : pageOf a = some p) (hctrl : a = p.base + 8)
    (hplain : plain p.blk = true) : Words s (s.setOwner p n) [a / 4] := by
  have h := ownerSet_setOwner (n := n) s (pageOf_base_mod hp)
  rw [← hctrl, OwnerSet] at h
  simp only [tenantOf_of_plain hp hplain] at h
  exact h.1

/-- OWNER written where the page bus accepts it applies from the next gate cycle on (R45). -/
theorem owner_write (h : Reaches s s1 src p a mask d) (hctrl : a = p.base + 8) (hfixed : p.blk.fixed = false)
    (hmask : mask.getLsbD 0 = true) (hplain : plain p.blk = true) (hn : getBits d 4 2 ≠ 0) :
    ∃ u, exec (.configWrite src (BitVec.ofNat 32 a) mask d) s = .next u ∧ Words s1 u [a / 4] ∧
      u.ownerOf p = (turn s1 src).ownerOf p ∧
      ∀ gc, u.bus.cycle < gc → (u.busEnter gc).ownerOf p = getBits d 4 2 := by
  have hp := h.pageOf_eq
  have htenant := tenantOf_base_of_plain hp hctrl hplain
  have hlt4 : getBits d 4 2 < 4 := getBits_lt d 4 2
  refine ⟨_, exec_of_reaches h, ?_⟩
  rw [acceptWrite_ctrl _ _ _ _ _ hp hctrl hplain]
  dsimp only
  rw [ownerField_eq, if_neg (by simp [hfixed, hmask, hn])]
  generalize hr : ((turn s1 src).disarm (master src) p).remember p (master src) a (byteMask mask) d = r
  have hwords : Words s1 r [a / 4] := by
    rw [← hr]
    exact (words_turn_disarm s1 src p).trans (words_remember _ p _ a _ d)
  have howner : r.ownerOf p = (turn s1 src).ownerOf p := by rw [← hr, remember_ownerOf, disarm_ownerOf]
  refine ⟨?_, ?_, fun gc hgc => ?_⟩
  · exact (hwords.trans (words_setOwner r _ hp hctrl hplain)).trans (words_plainWrite _ _ d (List.mem_singleton_self _))
  · refine (ownerOf_congr (s := r.setOwner p (getBits d 4 2)) ?_ ?_).trans ((ownerOf_setOwner r p hlt4).trans howner)
    · rfl
    · exact ownerNow_plainWrite_ctrl _ _ _ _ _ _ hctrl htenant
  · rw [ownerOf_busEnter hfixed hgc, ownerNow_plainWrite_ctrl _ _ _ _ _ _ hctrl htenant, ownerNow_setOwner r p hlt4]

/-! EXPERT_KEY and EXPERT. -/

theorem turn_arms (s : State) (src : BusSrc) : (turn s src).bus.arms = s.bus.arms := by
  unfold turn State.busEnter
  split <;> rfl

theorem mem_disarm_arms (s : State) (x : Master) (p : Page) (r : Master × Nat) :
    r ∈ (s.disarm x p).bus.arms ↔ r ∈ s.bus.arms ∧ r ≠ (x, p.base) := by
  simp [State.disarm]

theorem byteMask_low_half (m : BitVec 4) :
    byteMask m &&& 0xFFFF = 0xFFFF ↔ m.getLsbD 0 = true ∧ m.getLsbD 1 = true := by decide +revert

theorem low_half_eq (d : Word) : d &&& 0xFFFF = 0x5EED ↔ getBits d 0 16 = 0x5EED := by
  rw [← BitVec.toNat_inj, BitVec.toNat_and]
  show d.toNat &&& (2 ^ 16 - 1) = 0x5EED ↔ d.toNat / 2 ^ 0 % 2 ^ 16 = 0x5EED
  rw [Nat.and_two_pow_sub_one_eq_mod, Nat.pow_zero, Nat.div_one]

theorem words_keyWrite (s : State) (x : Master) (p : Page) (m d : Word) {ks : List Nat} :
    Words s (s.keyWrite x p m d) ks := by
  unfold State.keyWrite
  split
  · exact words_bus s _
  · exact .refl s ks

theorem mem_keyWrite_arms (s : State) (x : Master) (p : Page) (mask : BitVec 4) (d : Word) (r : Master × Nat) :
    r ∈ (s.keyWrite x p (byteMask mask) d).bus.arms ↔ r ∈ s.bus.arms ∨
      r = (x, p.base) ∧ mask.getLsbD 0 = true ∧ mask.getLsbD 1 = true ∧ getBits d 0 16 = 0x5EED := by
  have hcond : ((byteMask mask &&& 0xFFFF = 0xFFFF && d &&& 0xFFFF = 0x5EED : Bool) = true) ↔
      mask.getLsbD 0 = true ∧ mask.getLsbD 1 = true ∧ getBits d 0 16 = 0x5EED := by
    rw [Bool.and_eq_true, decide_eq_true_iff, decide_eq_true_iff, byteMask_low_half, low_half_eq, and_assoc]
  unfold State.keyWrite
  split
  next h => simp [hcond.1 h]
  next h => simp only [mt hcond.2 h, and_false, or_false]

/-- The key arms its writer; any other write to EXPERT_KEY takes the arm away (R38). -/
theorem expert_key_write (h : Reaches s s1 src p a mask d) (hkey : a = p.base + 16) :
    ∃ u, exec (.configWrite src (BitVec.ofNat 32 a) mask d) s = .next u ∧ Words s1 u [] ∧
      ((master src, p.base) ∈ u.bus.arms ↔
        mask.getLsbD 0 = true ∧ mask.getLsbD 1 = true ∧ getBits d 0 16 = 0x5EED) ∧
      ∀ r, r ≠ (master src, p.base) → (r ∈ u.bus.arms ↔ r ∈ s1.bus.arms) := by
  have hoff : a - p.base = 16 := by omega
  refine ⟨_, exec_of_reaches h, ?_⟩
  simp only [State.acceptWrite, hoff, if_true]
  generalize hr : ((turn s1 src).disarm (master src) p).remember p (master src) a (byteMask mask) d = r
  have hwords : Words s1 r [] := by
    rw [← hr]
    exact (words_turn_disarm s1 src p).trans (words_remember _ p _ a _ d)
  have harms : ∀ x, x ∈ r.bus.arms ↔ x ∈ s1.bus.arms ∧ x ≠ (master src, p.base) := by
    intro x
    rw [← hr, ← turn_arms s1 src]
    exact mem_disarm_arms _ _ _ x
  refine ⟨hwords.trans (words_keyWrite r _ p _ d), ?_, fun x hx => ?_⟩
  · simp [mem_keyWrite_arms, harms]
  · simp [mem_keyWrite_arms, harms, hx]

theorem byteMask_getLsbD_one (m : BitVec 4) : (byteMask m).getLsbD 1 = m.getLsbD 0 := by decide +revert

/-- EXPERT set by a write to CTRL: it is set where the writer is armed, and else stays (R38). -/
theorem expert_set_write (h : Reaches s s1 src p a mask (setBits d 1 1 1)) (hctrl : a = p.base + 8)
    (hmask : mask.getLsbD 0 = true) (hplain : plain p.blk = true) (hno : p.blk.fixed = true ∨ getBits d 4 2 = 0) :
    ∃ u, exec (.configWrite src (BitVec.ofNat 32 a) mask (setBits d 1 1 1)) s = .next u ∧ Words s1 u [a / 4] ∧
      (master src, p.base) ∉ u.bus.arms ∧
      u.bit ⟨a / 4, 1, 1⟩ = ((turn s1 src).bus.arms.contains (master src, p.base) || s1.bit ⟨a / 4, 1, 1⟩) := by
  have hp := h.pageOf_eq
  have hfield : getBits (setBits d 1 1 1) 4 2 = getBits d 4 2 := getBits_setBits_of_disjoint d 1 1 1 4 2 (.inr (by decide))
  have hexpert : (setBits d 1 1 1).getLsbD 1 = true := by rw [setBits_getLsbD]; rfl
  refine ⟨_, exec_of_reaches h, ?_⟩
  rw [acceptWrite_ctrl _ _ _ _ _ hp hctrl hplain]
  dsimp only
  rw [ownerField_eq, if_pos (by rw [hfield]; exact hno.imp_right .inr)]
  generalize hr : ((turn s1 src).disarm (master src) p).remember p (master src) a (byteMask mask) (setBits d 1 1 1) = r
  have hwords : Words s1 r [] := by
    rw [← hr]
    exact (words_turn_disarm s1 src p).trans (words_remember _ p _ a _ _)
  have harms : (master src, p.base) ∉ r.bus.arms := by
    rw [← hr]
    exact fun hmem => ((mem_disarm_arms _ _ _ _).1 hmem).2 rfl
  refine ⟨(hwords.mono (List.nil_subset _)).trans (words_plainWrite _ _ _ (List.mem_singleton_self _)), harms, ?_⟩
  obtain ⟨hrw, hw1c⟩ := expert_rw_of_plain hplain p.inst
  rw [bit_eq_getLsbD, bit_eq_getLsbD, word_plainWrite_self, ← hwords.2 _ List.not_mem_nil, moduleWord_ctrl hp hctrl]
  generalize (turn s1 src).bus.arms.contains (master src, p.base) = armed
  have hbit : (ctrlMask r p (master src) a (byteMask mask) (setBits d 1 1 1) armed).getLsbD 1
      = (armed || (r.word (a / 4)).getLsbD 1) := by
    rw [ctrlMask, pageRead_expert r _ hp hctrl hplain, hexpert, BitVec.getLsbD_and, BitVec.getLsbD_and,
      byteMask_getLsbD_one, hmask]
    cases armed <;> cases (r.word (a / 4)).getLsbD 1 <;> rfl
  simp only [blend, BitVec.getLsbD_and, BitVec.getLsbD_or, BitVec.getLsbD_not, BitVec.getLsbD_ofNat, hbit, hexpert, hrw, hw1c]
  cases armed <;> cases (r.word (a / 4)).getLsbD 1 <;> rfl

theorem ownersAndExperts : OwnersAndExperts := by
  intro src page mask d s s1 p a
  refine ⟨fun haddr h hfixed hmask hplain hn => ?_, fun haddr h => ?_, fun haddr h hmask hplain hno => ?_⟩
  · have hexec : exec (.ownerWrite src page mask d) s = exec (.configWrite src (BitVec.ofNat 32 a) mask d) s := by
      rw [haddr]; rfl
    rw [hexec]
    exact owner_write h (onPage_eq (by decide) haddr h.pageOf_eq) hfixed hmask hplain hn
  · have hexec : exec (.expertKey src page mask d) s = exec (.configWrite src (BitVec.ofNat 32 a) mask d) s := by
      rw [haddr]; rfl
    rw [hexec]
    exact expert_key_write h (onPage_eq (by decide) haddr h.pageOf_eq)
  · have hexec : exec (.expertSet src page mask d) s
        = exec (.configWrite src (BitVec.ofNat 32 a) mask (setBits d 1 1 1)) s := by
      rw [haddr]; rfl
    rw [hexec]
    exact expert_set_write h (onPage_eq (by decide) haddr h.pageOf_eq) hmask hplain hno

end Sys2Proof.Rule

open Sys2Proof.Rule

/-- Settles O35: an access that arrives takes its branch of the page bus, and each branch changes what the rule names. -/
theorem writesAndOwners : Obligations.WritesAndOwners := by
  unfold Obligations.WritesAndOwners
  exact ⟨configWrites, ownersAndExperts⟩
end

section
/-! PROOF. Reads over the page bus (R5, R7, R31, R47, R49, R318). -/

namespace Sys2Proof.Rule

open Sys2Proof.Machine

variable {s u s1 : State} {src : BusSrc} {p : Page} {a : Nat}

/-! How a read comes to its register. -/

section
variable (ha : a % 4 = 0) (hlt : a < 2 ^ 32)
include ha hlt

theorem busRead_of_reserved (hp : pageOf a = none) :
    s1.busRead (master src) (cycle src) (BitVec.ofNat 32 a) = ((turn s1 src).voidAccess none, 0) := by
  simp only [State.busRead, toNat_word_address ha hlt, hp, turn_eq]

theorem busRead_of_void (hp : pageOf a = some p) (hreg : p.hasReg (a - p.base) = false) :
    s1.busRead (master src) (cycle src) (BitVec.ofNat 32 a) = ((turn s1 src).voidAccess (some p), 0) := by
  simp only [State.busRead, toNat_word_address ha hlt, hp, turn_eq, hreg, Bool.not_false, if_true]

theorem busRead_of_reg (hp : pageOf a = some p) (hreg : p.hasReg (a - p.base) = true) :
    s1.busRead (master src) (cycle src) (BitVec.ofNat 32 a)
      = (((turn s1 src).accrue p a).readEffect p (master src) a, ((turn s1 src).accrue p a).readValue p (master src) a) := by
  simp only [State.busRead, toNat_word_address ha hlt, hp, turn_eq, hreg, Bool.not_true, Bool.false_eq_true, if_false]

end

/-! A counter of wall time brought up to date before it is read. -/

theorem accrue_bus (s : State) (p : Page) (a : Nat) : ∃ b, (s.accrue p a).bus = { s.bus with before := b } := by
  unfold State.accrue State.grow
  split
  · dsimp only
    split
    · exact ⟨_, rfl⟩
    · exact ⟨_, rfl⟩
  · exact ⟨_, rfl⟩

theorem accrue_wrote (s : State) (p : Page) (a : Nat) : (s.accrue p a).bus.wrote = s.bus.wrote := by
  obtain ⟨b, hb⟩ := accrue_bus s p a
  rw [hb]

theorem accrue_latches (s : State) (p : Page) (a : Nat) : (s.accrue p a).bus.latches = s.bus.latches := by
  obtain ⟨b, hb⟩ := accrue_bus s p a
  rw [hb]

/-! What a read returns. -/

/-- EXPERT_KEY is read from no latch. -/
theorem isLatched_expertKey (p : Page) : isLatched p 16 = false := by
  unfold isLatched latchedBy
  cases p.blk <;> rfl

/-- A word that other masters alone have written in the gate cycle reads as before the first of those writes (R49). -/
theorem readValue_of_others {x : Master} {w : BusWrite} {r : List BusWrite} (hlatched : isLatched p (a - p.base) = false)
    (hoff : a - p.base ≠ 16) (hpio : p.blk ≠ .pio)
    (hwrote : (s.bus.wrote.filter fun w => w.key == a / 4) = w :: r) (hothers : ∀ y ∈ w :: r, y.who ≠ x) :
    s.readValue p x a = w.shown := by
  have hmine : (s.bus.wrote.any fun w => w.key == a / 4 && w.who == x) = false := by
    rw [List.any_eq_false]
    intro y hy hboth
    simp only [Bool.and_eq_true, beq_iff_eq] at hboth
    refine hothers y ?_ hboth.2
    rw [← hwrote]
    exact List.mem_filter.2 ⟨hy, by simpa using hboth.1⟩
  have hfind : (s.bus.wrote.find? fun w => w.key == a / 4 && w.who != x && !false) = some w := by
    have hsame : (s.bus.wrote.filter fun w => w.key == a / 4 && w.who != x && !false) = w :: r := by
      rw [← hwrote]
      refine List.filter_congr fun y hy => ?_
      cases hk : y.key == a / 4
      · rfl
      · have hne := hothers y (by rw [← hwrote]; exact List.mem_filter.2 ⟨hy, hk⟩)
        simp [hne]
    rw [← List.head?_filter, hsame, List.head?_cons]
  simp only [State.readValue, hoff, hlatched, hpio, hmine, hfind, decide_false, Bool.false_and, if_false, Bool.false_eq_true]

/-- The value that a read of a register outside the tenants returns, where the reader itself or no one has written it. -/
def readsAs (s1 : State) (src : BusSrc) (p : Page) (a : Nat) : Word :=
  let b := (turn s1 src).accrue p a
  match isLatched p (a - p.base), (turn s1 src).bus.latches.find? fun l => l.1 == master src && l.2.1 == a with
  | true, some l => l.2.2
  | true, none => 0
  | false, _ => if a - p.base = 16 then b.pageRead p (master src) a
      else blend (BitVec.ofNat 32 (moduleWord a).rc) (b.pageRead p (master src) a - counted b a) (b.pageRead p (master src) a)

theorem rcHidden_eq_counted (htenant : tenantOf a = none) : s.rcHidden a = counted s a := by
  simp only [State.rcHidden, htenant, counted]

theorem rcLeft_eq_kept (htenant : tenantOf a = none) : s.rcLeft a = kept s a := by
  rw [State.rcLeft, rcHidden_eq_counted htenant, kept]

theorem readValue_eq (htenant : tenantOf a = none) (hpio : p.blk ≠ .pio)
    (hmine : let wrote := (turn s1 src).bus.wrote.filter fun w => w.key == a / 4
      (∀ w ∈ wrote, w.who = master src) ∨ ∃ w ∈ wrote, w.who = master src) :
    ((turn s1 src).accrue p a).readValue p (master src) a = readsAs s1 src p a := by
  have hfind : (((turn s1 src).accrue p a).bus.wrote.find? fun w => w.key == a / 4 && w.who != master src &&
      !((turn s1 src).accrue p a).bus.wrote.any fun w => w.key == a / 4 && w.who == master src) = none := by
    rw [accrue_wrote]
    simp only [List.mem_filter, beq_iff_eq] at hmine
    rw [List.find?_eq_none]
    rcases hmine with hall | ⟨w, ⟨hw, hkey⟩, hwho⟩
    · intro y hy
      cases hk : y.key == a / 4
      · simp
      · simp [hall y ⟨hy, by simpa using hk⟩]
    · have hany : ((turn s1 src).bus.wrote.any fun w => w.key == a / 4 && w.who == master src) = true :=
        List.any_eq_true.2 ⟨w, hw, by simp [hkey, hwho]⟩
      simp [hany]
  unfold readsAs State.readValue
  simp only [accrue_latches, hpio, hfind, decide_false, Bool.false_and, Bool.false_eq_true, if_false,
    rcHidden_eq_counted htenant]
  cases hlatched : isLatched p (a - p.base) with
  | false => simp
  | true =>
    have hoff : a - p.base ≠ 16 := by
      intro h
      rw [h, isLatched_expertKey] at hlatched
      cases hlatched
    simp only [hoff, if_false, if_true]
    cases (turn s1 src).bus.latches.find? fun l => l.1 == master src && l.2.1 == a <;> rfl

end Sys2Proof.Rule
end

section
/-! PROOF. What a read leaves (R5, R7, R318), and the statement about reads. -/

namespace Sys2Proof.Rule

open Sys2Proof.Machine

variable {s u s1 : State} {src : BusSrc} {p : Page} {a : Nat}

/-! RC fields. -/

theorem words_rcClear (s : State) (htenant : tenantOf a = none) : Words s (s.rcClear a) [a / 4] := by
  unfold State.rcClear
  dsimp only
  split
  · exact .refl s _
  · simp only [htenant]
    exact ((words_bus s _).trans (words_setWord _ _ (List.mem_singleton_self _))).trans (words_bus _ _)

/-- What a read leaves in a word: its RC fields hold what the gate cycle has counted (R7). -/
def leftByRead (s : State) (a : Nat) : Word :=
  if (moduleWord a).rc = 0 then s.word (a / 4)
  else blend (BitVec.ofNat 32 (moduleWord a).rc) (kept s a) (s.word (a / 4))

theorem blend_zero (v w : Word) : blend 0 v w = w := by
  rw [blend, show v &&& (0 : Word) = 0 from BitVec.and_zero, show ~~~(0 : Word) = BitVec.allOnes 32 from rfl,
    BitVec.and_allOnes]
  exact BitVec.or_zero

theorem word_rcClear (s : State) (htenant : tenantOf a = none) : (s.rcClear a).word (a / 4) = leftByRead s a := by
  unfold State.rcClear leftByRead
  dsimp only
  by_cases hrc : BitVec.ofNat 32 (moduleWord a).rc = 0
  · rw [if_pos hrc, hrc, blend_zero, ite_self]
  · have hrc' : (moduleWord a).rc ≠ 0 := fun h => hrc (by rw [h]; rfl)
    rw [if_neg hrc, if_neg hrc', rcLeft_eq_kept htenant]
    simp only [htenant]
    exact State.word_setWord_self _ _ _

/-! Latches. -/

theorem tenantOf_next (hp : pageOf a = some p) (htenant : tenantOf a = none) : tenantOf (a + 4) = none := by
  have hlt : a < 0x700000 := by
    by_contra hge
    have hout : ¬(0x1000000 ≤ a ∧ a < 0x5000000) := by
      intro h
      simp [tenantOf, h.1, h.2] at htenant
    rw [pageOf, if_neg (by omega), if_neg (by omega), if_neg (by omega), if_neg (by simp; omega),
      if_neg (by simpa using hout)] at hp
    cases hp
  exact if_neg (by simp; omega)

/-- A register outside the tenants, beside the first ones of its page, reads as its word with what other state gives it. -/
theorem pageRead_eq_derived (s : State) (x : Master) (htenant : tenantOf a = none) (hoff : 0x14 ≤ a - p.base) :
    s.pageRead p x a = s.derived p (a - p.base) (s.word (a / 4)) &&&
      BitVec.ofNat 32 ((moduleWord a).rw ||| (moduleWord a).ro ||| (moduleWord a).w1c ||| (moduleWord a).rc) := by
  have h0 : a - p.base ≠ 0 := by omega
  have h4 : a - p.base ≠ 4 := by omega
  have h16 : a - p.base ≠ 16 := by omega
  simp only [State.pageRead, State.pageWord, h0, h4, h16, if_false, htenant]

theorem latchedBy_some {off h : Nat} (hlatch : latchedBy p off = some h) :
    h = p.base + off + 4 ∧ (p.blk = .gte ∧ off = 0xC4 ∨ p.blk = .rtc ∧ off = 0x20 ∨ p.blk = .fwu ∧ off = 0x44 ∨
      p.blk = .ptp ∧ off = 0x24 ∨ p.blk = .mtm ∧ (off = 0x2C ∨ 0x100 ≤ off)) := by
  have hif {c : Prop} [Decidable c] (h' : (if c then some (p.base + off + 4) else none) = some h) :
      h = p.base + off + 4 ∧ c := by
    obtain ⟨hc, hh⟩ := Option.ite_none_right_eq_some.1 h'
    exact ⟨(Option.some.inj hh).symm, hc⟩
  unfold latchedBy at hlatch
  dsimp only at hlatch
  split at hlatch
  case h_1 hblk => exact ⟨(hif hlatch).1, .inl ⟨hblk, (hif hlatch).2⟩⟩
  case h_2 hblk => exact ⟨(hif hlatch).1, .inr (.inl ⟨hblk, (hif hlatch).2⟩)⟩
  case h_3 hblk => exact ⟨(hif hlatch).1, .inr (.inr (.inl ⟨hblk, (hif hlatch).2⟩))⟩
  case h_4 hblk => exact ⟨(hif hlatch).1, .inr (.inr (.inr (.inl ⟨hblk, (hif hlatch).2⟩)))⟩
  case h_5 hblk =>
    split at hlatch
    next hoff => exact ⟨(Option.some.inj hlatch).symm, .inr (.inr (.inr (.inr ⟨hblk, .inl hoff⟩)))⟩
    next =>
      obtain ⟨hh, hc⟩ := hif hlatch
      simp only [Bool.and_eq_true, decide_eq_true_eq] at hc
      obtain ⟨⟨⟨⟨hlo, -⟩, -⟩, -⟩, -⟩ := hc
      exact ⟨hh, .inr (.inr (.inr (.inr ⟨hblk, .inr hlo⟩)))⟩
  case h_6 => cases hlatch

/-- What other state gives a HI half does not come from register words. -/
theorem derived_hi {off h : Nat} (hlatch : latchedBy p off = some h) (w : Word) (r : Store Word) (b : Bus) (q : List Nat)
    (n : Store Nat) : { s with regs := r, bus := b, miq := q, accrued := n }.derived p (off + 4) w
      = s.derived p (off + 4) w := by
  obtain ⟨-, ⟨hblk, rfl⟩ | ⟨hblk, rfl⟩ | ⟨hblk, rfl⟩ | ⟨hblk, rfl⟩ | ⟨hblk, rfl | hoff⟩⟩ := latchedBy_some hlatch
  case inr.inr.inr.inr.inr =>
    have hC : off + 4 ≠ 0x0C := by omega
    have h2C : off + 4 ≠ 0x2C := by omega
    have h30 : off + 4 ≠ 0x30 := by omega
    simp only [State.derived, hblk, hC, h2C, h30, if_false]
  all_goals simp [State.derived, hblk, State.mtm]

/-- A HI half reads the same whatever the word of its LO half holds. -/
theorem pageRead_hi_of_words {h : Nat} (x : Master) (hwords : Words s u [a / 4]) (hp : pageOf a = some p)
    (htenant : tenantOf a = none) (hlatch : latchedBy p (a - p.base) = some h) : u.pageRead p x h = s.pageRead p x h := by
  have hle : p.base ≤ a := by
    rw [pageOf_base hp]
    exact Nat.div_mul_le_self a 0x1000
  obtain ⟨hh, hoff⟩ := latchedBy_some hlatch
  obtain rfl : h = a + 4 := by omega
  have hsub : a + 4 - p.base = a - p.base + 4 := by omega
  have hge : 0x14 ≤ a + 4 - p.base := by omega
  have hword : u.word ((a + 4) / 4) = s.word ((a + 4) / 4) := hwords.2 _ (by rw [List.mem_singleton]; omega)
  rw [pageRead_eq_derived u x (tenantOf_next hp htenant) hge, pageRead_eq_derived s x (tenantOf_next hp htenant) hge, hword,
    hsub]
  obtain ⟨⟨_, _, _, _, rfl⟩, -⟩ := hwords
  rw [derived_hi hlatch]

/-! The effects of a read. -/

/-- The registers after a read, outside the PIO pages. -/
theorem words_readEffect (s : State) (x : Master) (htenant : tenantOf a = none) (hpio : p.blk ≠ .pio) :
    Words s (s.readEffect p x a) [a / 4] := by
  simp only [State.readEffect, hpio, decide_false, Bool.false_and, Bool.false_eq_true, if_false]
  split
  · exact (words_rcClear s htenant).trans (words_bus _ _)
  · exact words_rcClear s htenant

theorem word_readEffect (s : State) (x : Master) (htenant : tenantOf a = none) (hpio : p.blk ≠ .pio) :
    (s.readEffect p x a).word (a / 4) = leftByRead s a := by
  simp only [State.readEffect, hpio, decide_false, Bool.false_and, Bool.false_eq_true, if_false]
  split
  · exact word_rcClear s htenant
  · exact word_rcClear s htenant

/-- A read of a LO half latches the HI half for its master (R318). -/
theorem latches_readEffect {h : Nat} (s : State) (x : Master) (hp : pageOf a = some p) (htenant : tenantOf a = none)
    (hpio : p.blk ≠ .pio) (hlatch : latchedBy p (a - p.base) = some h) :
    ∃ w, (x, h, w) ∈ (s.readEffect p x a).bus.latches ∧
      (∀ l ∈ (s.readEffect p x a).bus.latches, l.1 = x → l.2.1 = h → l.2.2 = w) ∧ (h ≠ a → w = s.pageRead p x h) := by
  have hhi := pageRead_hi_of_words x (words_rcClear s htenant) hp htenant hlatch
  refine ⟨(s.rcClear a).pageRead p x h, ?_, ?_, fun _ => hhi⟩
  all_goals
    simp only [State.readEffect, hpio, decide_false, Bool.false_and, Bool.false_eq_true, if_false, hlatch]
  · simp
  · intro l hl hx hh
    rcases List.mem_append.1 hl with hold | hnew
    · simp [List.mem_filter, hx, hh] at hold
    · rw [List.mem_singleton.1 hnew]

/-- An increment in the cycle of a read counts on (R7). -/
theorem increment_of_tenantOf_none (s : State) (inc : Bool) (ha : a % 4 = 0) (hlt : a < 2 ^ 32) (hp : pageOf a = some p)
    (htenant : tenantOf a = none) : Words s (s.increment (BitVec.ofNat 32 a) inc) [a / 4] ∧
      (s.increment (BitVec.ofNat 32 a) inc).word (a / 4)
        = if inc = true ∧ (moduleWord a).rc ≠ 0 then satInc (s.word (a / 4)) else s.word (a / 4) := by
  have hcond : (inc && (pageOf a).isSome && (moduleWord a).rc != 0) = true ↔ inc = true ∧ (moduleWord a).rc ≠ 0 := by
    simp [hp]
  simp only [State.increment, toNat_word_address ha hlt, hcond, State.pageCount, htenant]
  split
  · exact ⟨words_countNow s (List.mem_singleton_self _), by rw [word_countNow, if_pos rfl]⟩
  · exact ⟨.refl s _, rfl⟩

/-! The clauses on reads. -/

/-- The blocks whose registers read as they are stored. -/
theorem derived_of_stored (s : State) {off : Nat} (w : Word)
    (hblk : p.blk ∈ [Blk.nvs, .rtc, .pnl, .clk, .stn, .sec, .sdma]) : s.derived p off w = w := by
  simp only [List.mem_cons, List.not_mem_nil, or_false] at hblk
  rcases hblk with h | h | h | h | h | h | h <;> simp only [State.derived, h]

theorem accrue_of_stored (s : State) (hblk : p.blk ∈ [Blk.nvs, .rtc, .pnl, .clk, .stn, .sec, .sdma]) :
    s.accrue p a = s := by
  have hcounter : p.wallCounter (a - p.base) = false := by
    simp only [List.mem_cons, List.not_mem_nil, or_false] at hblk
    rcases hblk with h | h | h | h | h | h | h <;> simp only [Page.wallCounter, h]
  simp [State.accrue, hcounter]

end Sys2Proof.Rule
end

section
/-! PROOF. The statement about reads over the page bus. -/

namespace Sys2Proof.Rule

open Sys2Proof.Machine

variable {s u s1 : State} {src : BusSrc} {p : Page} {a : Nat}

section
variable (harrives : Arrives s s1 (.configRead src (BitVec.ofNat 32 a))) (ha : a % 4 = 0) (hlt : a < 2 ^ 32)
include harrives ha hlt

/-- A read of a reserved page answers 0 and counts in VOID_ACCESS of MOD. -/
theorem reserved_read (hp : pageOf a = none) : ∃ v,
    exec (.configRead src (BitVec.ofNat 32 a)) s = .next (answered src v 0) ∧ Counted s1 v 0xF04 := by
  refine ⟨_, congrArg Host.Outcome.next ?_, counted_voidAccess_reserved (words_turn s1 src)⟩
  rw [arrive_configRead harrives, busRead_of_reserved ha hlt hp]

variable (hp : pageOf a = some p)
include hp

/-- A read of no register answers 0 and counts in VOID_ACCESS of its page. -/
theorem void_read (hreg : p.hasReg (a - p.base) = false) : ∃ v,
    exec (.configRead src (BitVec.ofNat 32 a)) s = .next (answered src v 0) ∧ Counted s1 v (p.base + 0xF04) := by
  generalize hb : p.base + 0xF04 = b
  refine ⟨_, congrArg Host.Outcome.next ?_, counted_voidAccess (words_turn s1 src) (pageOf_base_mod hp) hb⟩
  rw [arrive_configRead harrives, busRead_of_void ha hlt hp hreg]

variable (hreg : p.hasReg (a - p.base) = true)
include hreg

/-- A word that other masters alone have written in the gate cycle reads as before their writes. -/
theorem read_of_others {w : BusWrite} {r : List BusWrite} (hlatched : isLatched p (a - p.base) = false)
    (hoff : a - p.base ≠ 16) (hpio : p.blk ≠ .pio)
    (hwrote : ((turn s1 src).bus.wrote.filter fun w => w.key == a / 4) = w :: r)
    (hothers : ∀ y ∈ w :: r, y.who ≠ master src) : ∃ v,
    exec (.configRead src (BitVec.ofNat 32 a)) s = .next (answered src v w.shown) := by
  refine ⟨((turn s1 src).accrue p a).readEffect p (master src) a, congrArg Host.Outcome.next ?_⟩
  rw [arrive_configRead harrives, busRead_of_reg ha hlt hp hreg,
    readValue_of_others hlatched hoff hpio (by rw [accrue_wrote]; exact hwrote) hothers]

variable (htenant : tenantOf a = none) (hpio : p.blk ≠ .pio)
  (hmine : let wrote := (turn s1 src).bus.wrote.filter fun w => w.key == a / 4
    (∀ w ∈ wrote, w.who = master src) ∨ ∃ w ∈ wrote, w.who = master src)
include htenant hpio hmine

/-- A read of a register outside the tenants: its value, what it leaves, what it latches. -/
theorem register_read : ∃ v, exec (.configRead src (BitVec.ofNat 32 a)) s = .next (answered src v (readsAs s1 src p a)) ∧
    Words s1 v [a / 4] ∧ v.word (a / 4) = leftByRead ((turn s1 src).accrue p a) a ∧
    ∀ h, latchedBy p (a - p.base) = some h → ∃ w, (master src, h, w) ∈ v.bus.latches ∧
      (∀ l ∈ v.bus.latches, l.1 = master src → l.2.1 = h → l.2.2 = w) ∧
      (h ≠ a → w = ((turn s1 src).accrue p a).pageRead p (master src) h) := by
  refine ⟨((turn s1 src).accrue p a).readEffect p (master src) a, congrArg Host.Outcome.next ?_, ?_,
    word_readEffect _ _ htenant hpio, fun h hlatch => latches_readEffect _ _ hp htenant hpio hlatch⟩
  · rw [arrive_configRead harrives, busRead_of_reg ha hlt hp hreg, readValue_eq htenant hpio hmine]
  · exact ((words_turn s1 src).trans (words_accrue _ p (List.mem_singleton_self _))).trans
      (words_readEffect _ _ htenant hpio)

/-- A read of a counter in whose cycle it may count. -/
theorem counter_read (inc : Bool) : ∃ v,
    exec (.rcCounterRead src (BitVec.ofNat 32 a) inc) s = .next (answered src v (readsAs s1 src p a)) ∧
    Words s1 v [a / 4] ∧ v.word (a / 4) = if inc = true ∧ (moduleWord a).rc ≠ 0
      then satInc (leftByRead ((turn s1 src).accrue p a) a) else leftByRead ((turn s1 src).accrue p a) a := by
  obtain ⟨hwords, hword⟩ := increment_of_tenantOf_none (((turn s1 src).accrue p a).readEffect p (master src) a) inc ha hlt
    hp htenant
  refine ⟨_, congrArg Host.Outcome.next ?_, ?_, hword.trans (by rw [word_readEffect _ _ htenant hpio])⟩
  · rw [arrive_rcCounterRead inc harrives, busRead_of_reg ha hlt hp hreg, readValue_eq htenant hpio hmine]
  · exact (((words_turn s1 src).trans (words_accrue _ p (List.mem_singleton_self _))).trans
      (words_readEffect _ _ htenant hpio)).trans hwords

end

/-- Registers that read as they are stored. -/
theorem pageRead_of_stored (x : Master) (htenant : tenantOf a = none)
    (hblk : p.blk ∈ [Blk.nvs, .rtc, .pnl, .clk, .stn, .sec, .sdma]) (hoff : 0x14 ≤ a - p.base) :
    ((turn s1 src).accrue p a).pageRead p x a = s1.word (a / 4) &&&
      BitVec.ofNat 32 ((moduleWord a).rw ||| (moduleWord a).ro ||| (moduleWord a).w1c ||| (moduleWord a).rc) := by
  rw [accrue_of_stored _ hblk, pageRead_eq_derived _ x htenant hoff, derived_of_stored _ _ hblk, turn_word]

end Sys2Proof.Rule

open Sys2Proof.Rule

/-- Settles O34: a read that arrives reaches no register or one, and is answered with its value. -/
theorem configReads : Obligations.ConfigReads := by
  unfold Obligations.ConfigReads
  intro src a inc s s1 i x answer wrote harrives ha hlt
  refine ⟨rfl, reserved_read harrives ha hlt, fun p hp => ⟨void_read harrives ha hlt hp, ?_, ?_⟩⟩
  · intro hreg hlatched hoff hpio w r hwrote hothers
    exact read_of_others harrives ha hlt hp hreg hlatched hoff hpio hwrote (hwrote ▸ hothers)
  · intro hreg htenant hpio hmine
    exact ⟨register_read harrives ha hlt hp hreg htenant hpio hmine,
      counter_read harrives ha hlt hp hreg htenant hpio hmine inc,
      fun hblk hoff => pageRead_of_stored x htenant hblk hoff⟩
end

section
/-! PROOF. How the messages of the hosts come through the gate (R17, R339, R345 to R349, R396, R422). -/

namespace Sys2Proof.Rule

open Sys2Proof.Machine

variable {s s1 : State} {i : Instr} {m : Msg} {ty : Byte} {pay : List Byte}

/-! From a command to its arrival. -/

/-- Each row of a gate message is its arrival, but for a WAKE in DORMANT. -/
theorem exec_of_message (hi : inbound i = some (m, ty, pay)) (hmode : s.power.mode ≠ .dormant) :
    exec i s = .next (s.arrive i) := by
  obtain ⟨r, hrow, -⟩ := Option.map_eq_some_iff.1 hi
  unfold rowMessage at hrow
  split at hrow
  case h_16 => exact if_neg hmode
  case h_17 => cases hrow
  all_goals rfl

/-- Nothing arrives at a module without power or in DORMANT. -/
theorem arrive_of_unpowered (i : Instr) (hmode : s.power.mode = .off ∨ s.power.mode = .dormant) : s.arrive i = s := by
  have hone : ∀ j, s.arriveOne j = s := fun j => by
    rcases hmode with h | h <;> simp only [State.arriveOne, h]
  unfold State.arrive
  split
  · rcases hmode with h | h <;> simp [h]
  · exact List.foldl_fixed' hone _

theorem exec_of_off (hi : inbound i = some (m, ty, pay)) (hmode : s.power.mode = .off) : exec i s = .next s := by
  rw [exec_of_message hi (by simp [hmode]), arrive_of_unpowered i (.inl hmode)]

/-- In DORMANT nothing of HOST-A comes in. -/
theorem exec_of_dormant (hi : inbound i = some (m, ty, pay)) (hmode : s.power.mode = .dormant) (hhost : m.host = .a) :
    exec i s = .next s := by
  have harrive : Host.Outcome.next (s.arrive i) = (.next s : Out) := by rw [arrive_of_unpowered i (.inr hmode)]
  obtain ⟨r, hrow, hr⟩ := Option.map_eq_some_iff.1 hi
  unfold rowMessage at hrow
  split at hrow
  case h_16 n =>
    cases hrow
    cases hr
    exact (if_pos hmode).trans (by rw [hhost]; rfl)
  case h_17 => cases hrow
  all_goals exact harrive

/-- What arrives whole at a powered module is judged at once. -/
theorem exec_of_whole (hi : inbound i = some (m, ty, pay)) (hwhole : Whole i) (hmode : s.power.mode ≠ .dormant) :
    exec i s = .next (s.arriveOne i) := by
  rw [exec_of_message hi hmode, arrive_of_whole hwhole]

/-! The accesses of PCIe (R346). -/

theorem arrive_eq_foldl (h : isBar2Read i = none) : s.arrive i = (tlpParts i).foldl State.arriveOne s := by
  simp only [State.arrive, h]

/-- The double words after the first, counted from the one before them. -/
theorem map_addresses_succ {α : Type} (f : Word → α → Instr) (a : Word) (r : List α) :
    ((r.zipIdx 2).map fun x => f (a + BitVec.ofNat 32 (4 * x.2)) x.1)
      = (r.zipIdx 1).map fun x => f (a + 4 + BitVec.ofNat 32 (4 * x.2)) x.1 := by
  rw [List.zipIdx_succ, List.map_map]
  refine List.map_congr_left fun x _ => ?_
  have h : BitVec.ofNat 32 (4 * (x.2 + 1)) = 4 + BitVec.ofNat 32 (4 * x.2) := by
    rw [Nat.mul_add, Nat.add_comm, BitVec.ofNat_add]
    rfl
  simp only [Function.comp_apply, h, BitVec.add_assoc]

section
variable {m : Msg} (hhost : m.host = .a) (a : Word)
include hhost

theorem tlpParts_write (mask : BitVec 4) (d : Word) (r : List (BitVec 4 × Word)) :
    tlpParts (.configWrite (.gate { m with tlp := .more r }) a mask d) = .configWrite (.gate { m with tlp := .one }) a mask d ::
      (r.zipIdx 1).map fun x => .configWrite (.gate { m with tlp := .one }) (a + BitVec.ofNat 32 (4 * x.2)) x.1.1 x.1.2 := by
  simp only [tlpParts, hhost]

theorem tlpParts_read (r : List (BitVec 4 × Word)) :
    tlpParts (.configRead (.gate { m with tlp := .more r }) a) = .configRead (.gate { m with tlp := .one }) a ::
      (r.zipIdx 1).map fun x => .configRead (.gate { m with tlp := .one }) (a + BitVec.ofNat 32 (4 * x.2)) := by
  simp only [tlpParts, hhost]

/-- A write of several double words is one for each, in rising order. -/
theorem exec_write_more (mask : BitVec 4) (d : Word) (x : BitVec 4 × Word) (r : List (BitVec 4 × Word)) {s s' : State}
    (h : exec (.configWrite (.gate { m with tlp := .one }) a mask d) s = .next s') :
    exec (.configWrite (.gate { m with tlp := .more (x :: r) }) a mask d) s
      = exec (.configWrite (.gate { m with tlp := .more r }) (a + 4) x.1 x.2) s' := by
  have hwhole : Whole (.configWrite (.gate { m with tlp := .one }) a mask d) := ⟨by simp only [tlpParts, hhost], rfl⟩
  have hfirst : s.arriveOne (.configWrite (.gate { m with tlp := .one }) a mask d) = s' :=
    (arrive_of_whole hwhole).symm.trans (Host.Outcome.next.inj h)
  show Host.Outcome.next (s.arrive _) = .next (s'.arrive _)
  rw [arrive_eq_foldl rfl, arrive_eq_foldl rfl, tlpParts_write hhost, tlpParts_write hhost, List.foldl_cons, hfirst,
    List.zipIdx_cons, List.map_cons]
  exact congrArg (fun l => Host.Outcome.next (List.foldl State.arriveOne s' (_ :: l)))
    (map_addresses_succ (fun a x => .configWrite (.gate { m with tlp := .one }) a x.1 x.2) a r)

omit hhost in
theorem isBar2Read_of_ne {t : Tlp} (ht : (t == .bar2) = false) (a : Word) :
    isBar2Read (.configRead (.gate { m with tlp := t }) a) = none := by
  simp [isBar2Read, ht]

/-- A read of several double words is one for each, in rising order. -/
theorem exec_read_more (x : BitVec 4 × Word) (r : List (BitVec 4 × Word)) {s s' : State}
    (h : exec (.configRead (.gate { m with tlp := .one }) a) s = .next s') :
    exec (.configRead (.gate { m with tlp := .more (x :: r) }) a) s
      = exec (.configRead (.gate { m with tlp := .more r }) (a + 4)) s' := by
  have hwhole : Whole (.configRead (.gate { m with tlp := .one }) a) :=
    ⟨by simp only [tlpParts, hhost], isBar2Read_of_ne rfl a⟩
  have hfirst : s.arriveOne (.configRead (.gate { m with tlp := .one }) a) = s' :=
    (arrive_of_whole hwhole).symm.trans (Host.Outcome.next.inj h)
  show Host.Outcome.next (s.arrive _) = .next (s'.arrive _)
  rw [arrive_eq_foldl (isBar2Read_of_ne rfl _), arrive_eq_foldl (isBar2Read_of_ne rfl _), tlpParts_read hhost,
    tlpParts_read hhost, List.foldl_cons, hfirst, List.zipIdx_cons, List.map_cons]
  exact congrArg (fun l => Host.Outcome.next (List.foldl State.arriveOne s' (_ :: l)))
    (map_addresses_succ (fun a _ => .configRead (.gate { m with tlp := .one }) a) a r)

/-- A BAR2 write of four bytes is an IMAGE_CHUNK. -/
theorem exec_bar2_write (d : Word) (s : State) :
    exec (.configWrite (.gate { m with tlp := .bar2 }) a 15 d) s
      = exec (.imageChunk { m with tlp := .bar2, type := none, flags := 0, tenant := 0xFFFF, epoch := 0xFFFF, len := 12 } 0 a
          (leBytes 4 d)) s := by
  have hparts : tlpParts (.configWrite (.gate { m with tlp := .bar2 }) a 15 d) =
      [.imageChunk (tlpParts.barChunk { m with tlp := .bar2 } (leBytes 4 d)) 0 (a + BitVec.ofNat 32 0) (leBytes 4 d)] := by
    simp only [tlpParts, hhost]
    rfl
  show Host.Outcome.next (s.arrive _) = .next (s.arrive _)
  rw [arrive_eq_foldl rfl, arrive_eq_foldl rfl, hparts, show a + BitVec.ofNat 32 0 = a from BitVec.add_zero a]
  simp only [tlpParts, hhost]
  rfl

/-- A read of BAR2 gives 0. -/
theorem exec_bar2_read {s : State} (hmode : s.power.mode = .on) :
    exec (.configRead (.gate { m with tlp := .bar2 }) a) s
      = .next { s with gate := { s.gate with pcie := s.gate.pcie ++ [.readReply m.tag 0xFFFF 0 0 0] } } := by
  show Host.Outcome.next (s.arrive _) = _
  simp only [State.arrive, isBar2Read, hmode, State.reply, hhost, State.epochFor, aimedAt]
  rfl

end

end Sys2Proof.Rule
end

section
/-! PROOF. The checks of the gate (R345), and what becomes of a message that has passed them (R396, R422). -/

namespace Sys2Proof.Rule

open Sys2Proof.Machine

variable {s s1 : State} {i : Instr} {m : Msg} {ty : Byte} {pay : List Byte}

/-! A message dropped. -/

theorem word_setBit (s : State) (f : Fld) (b : Bool) (j : Nat) :
    (s.setBit f b).word j = if j = f.key then setBits (s.word f.key) f.lo f.w b.toNat else s.word j :=
  s.word_setFld f b.toNat j

/-- What is counted of a dropped message, besides the drop the cause where one is given. -/
def countDrop (s : State) (cause : Option Fld) : State :=
  match cause with
  | some f => (s.count F.GTE_DROP_COUNT_COUNT).count f
  | none => s.count F.GTE_DROP_COUNT_COUNT

theorem gateDrop_eq (s : State) (n : Nat) (ty : Byte) (cause : Option Fld) :
    s.gateDrop n ty cause = (((countDrop s cause).setFld F.GTE_DROP_CAUSE_CHECK n).setFld F.GTE_DROP_CAUSE_TYPE
      ty.toNat).setBit F.GTE_STATUS_DROP_SEEN true := by
  cases cause <;> rfl

/-- The words that every dropped message sets. -/
def dropKeys : List Nat := [F.GTE_DROP_COUNT_COUNT.key, F.GTE_DROP_CAUSE_CHECK.key, F.GTE_STATUS_DROP_SEEN.key]

theorem word_countDrop (s : State) (cause : Option Fld) (hcause : ∀ f ∈ cause, f.key ∉ dropKeys) (a : Nat) :
    (countDrop s cause).word a =
      if a ∈ F.GTE_DROP_COUNT_COUNT.key :: cause.toList.map Fld.key then satInc (s.word a) else s.word a := by
  cases cause with
  | none => simp [countDrop, State.word_count]
  | some f =>
    have hne : F.GTE_DROP_COUNT_COUNT.key ≠ f.key := fun h => hcause f rfl (by simp [dropKeys, h])
    simp only [countDrop, State.word_count, Option.toList_some, List.map_cons, List.map_nil, List.mem_cons, List.not_mem_nil,
      or_false]
    by_cases h : a = f.key
    · simp [h, hne.symm]
    · simp [h]

/-- A drop changes register words alone. -/
theorem regs_gateDrop (s : State) (n : Nat) (ty : Byte) (cause : Option Fld) :
    ∃ r, s.gateDrop n ty cause = { s with regs := r } := by
  have hcount : ∃ r, countDrop s cause = { s with regs := r } := by
    cases cause
    · exact ⟨_, rfl⟩
    · exact ⟨_, rfl⟩
  obtain ⟨r, hr⟩ := hcount
  rw [gateDrop_eq, hr]
  exact ⟨_, rfl⟩

/-- A drop is counted and noted, with its cause. -/
theorem dropped_gateDrop (s : State) {n : Nat} (ty : Byte) {cause : Option Fld} (hn : n < 8)
    (hcause : ∀ f ∈ cause, f.key ∉ dropKeys) : Dropped s (s.gateDrop n ty cause) n ty cause.toList := by
  have hword (a : Nat) (ha : a ≠ F.GTE_DROP_CAUSE_CHECK.key) (ha' : a ≠ F.GTE_STATUS_DROP_SEEN.key) :
      (s.gateDrop n ty cause).word a = (countDrop s cause).word a := by
    rw [gateDrop_eq, word_setBit, if_neg ha', State.word_setFld, if_neg (show a ≠ F.GTE_DROP_CAUSE_TYPE.key from ha),
      State.word_setFld, if_neg ha]
  refine ⟨regs_gateDrop s n ty cause, fun f hf => ?_, ?_, ?_, ?_, fun a ha => ?_⟩
  · have hkeys : f.key ≠ F.GTE_DROP_CAUSE_CHECK.key ∧ f.key ≠ F.GTE_STATUS_DROP_SEEN.key := by
      rcases List.mem_cons.1 hf with rfl | hf
      · decide
      · have h := hcause f (Option.mem_toList.1 hf)
        simp only [dropKeys, List.mem_cons, not_or] at h
        exact ⟨h.2.1, h.2.2.1⟩
    rw [hword _ hkeys.1 hkeys.2, word_countDrop s cause hcause, if_pos]
    exact List.mem_map_of_mem (f := Fld.key) hf
  · rw [gateDrop_eq, State.setBit, State.fld_setFld_of_ne _ _ _ _ (.inl (by decide)),
      State.fld_setFld_of_ne _ _ _ _ (.inr (.inl (by decide))), State.fld_setFld _ _ _ (by decide)]
    exact Nat.mod_eq_of_lt hn
  · rw [gateDrop_eq, State.setBit, State.fld_setFld_of_ne _ _ _ _ (.inl (by decide)), State.fld_setFld _ _ _ (by decide)]
    exact Nat.mod_eq_of_lt ty.isLt
  · rw [gateDrop_eq, State.bit_setBit _ _ _ (by decide) rfl]
  · simp only [List.mem_append, not_or] at ha
    obtain ⟨hdrop, hcauses⟩ := ha
    simp only [List.mem_cons, not_or] at hdrop
    obtain ⟨hcount, hcheck, hseen, -⟩ := hdrop
    have hcounted : a ∉ F.GTE_DROP_COUNT_COUNT.key :: cause.toList.map Fld.key := by
      simp only [List.mem_cons, not_or]
      exact ⟨hcount, hcauses⟩
    rw [hword a hcheck hseen, word_countDrop s cause hcause, if_neg hcounted]

/-! Datagrams of HOST-B: the checks of the rate, of the key and of SEQ. -/

theorem nvsAdmit_gate (s : State) : s.nvsAdmit.gate = s.gate := by
  unfold State.nvsAdmit
  split <;> rfl

theorem recordSeq_gate (s : State) : s.recordSeq.gate = s.gate := by
  unfold State.recordSeq State.nvsRecord State.nvsAsk
  dsimp only
  split
  · split
    · rfl
    · exact nvsAdmit_gate _
  · rfl

theorem window_key (g : Gate) (t : Nat) : (g.window t).key = g.key := by unfold Gate.window; split <;> rfl
theorem window_rxTop (g : Gate) (t : Nat) : (g.window t).rxTop = g.rxTop := by unfold Gate.window; split <;> rfl
theorem window_seqWindow (g : Gate) (t : Nat) : (g.window t).seqWindow = g.seqWindow := by
  unfold Gate.window; split <;> rfl

/-- The datagram comes to the module's port, in an address family that is enabled. -/
def Family (s : State) (m : Msg) : Prop :=
  s.bit (if m.src.v6 then F.GTE_CFG_V6_EN else F.GTE_CFG_V4_EN) = true ∧ m.dport = BitVec.ofNat 16 (s.fld F.GTE_CFG_HB_PORT)

/-- A key is set, and TAG is the datagram's under it. -/
def Keyed (s : State) (m : Msg) (ty : Byte) (pay : List Byte) : Prop :=
  s.bit F.GTE_KEY_CTRL_KEY_SET = true ∧ m.auth = hbTag s.gate.key (leBytes 8 m.seq ++ msgBytes m ty pay)

/-- SEQ is above the highest accepted one, or within 64 below it and new (R349). -/
def NewSeq (g : Gate) (q : BitVec 64) : Prop :=
  g.rxTop.toNat < q.toNat ∨ (q.toNat < g.rxTop.toNat ∧ g.rxTop.toNat ≤ q.toNat + 64 ∧ q ∉ g.seqWindow)

theorem seqOk_iff (g : Gate) (q : BitVec 64) : g.seqOk q = true ↔ NewSeq g q := by
  simp [Gate.seqOk, NewSeq, and_assoc]

/-- A SEQ that is taken stands in the window under the highest one. -/
theorem mem_takeSeq (g : Gate) {q : BitVec 64} (h : NewSeq g q) :
    q ∈ (g.takeSeq q).seqWindow ∧ (g.takeSeq q).rxTop.toNat = max g.rxTop.toNat q.toNat := by
  unfold NewSeq at h
  constructor
  · simp only [Gate.takeSeq, List.mem_filter, List.mem_append, List.mem_singleton, or_true, true_and, decide_eq_true_eq]
    split <;> omega
  · simp only [Gate.takeSeq]
    split <;> omega

/-- The state whose gate is `g` with the datagram counted in its millisecond. -/
def rated (s : State) (g : Gate) : State := { s with gate := { g with rate := g.rate + 1 } }

/-! `g` is the gate in the millisecond in progress. -/

/-- Check 3 of a datagram that has passed the two before it (R349). -/
def checkSeq (s : State) (g : Gate) (m : Msg) (ty : Byte) : State × Bool :=
  if !g.seqOk m.seq then ((rated s g).gateDrop 3 ty (some F.GTE_REPLAY_DROP_COUNT), false)
  else ({ s with gate := ({ g with rate := g.rate + 1 } : Gate).takeSeq m.seq }.recordSeq, true)

/-- Check 2, of the key and TAG (R348), and the next. -/
def checkKey (s : State) (g : Gate) (m : Msg) (ty : Byte) (pay : List Byte) : State × Bool :=
  if !s.bit F.GTE_KEY_CTRL_KEY_SET || m.auth != hbTag g.key (leBytes 8 m.seq ++ msgBytes m ty pay) then
    ((rated s g).gateDrop 2 ty (some F.GTE_AUTH_FAIL_COUNT), false)
  else checkSeq s g m ty

/-- Check 1, of the rate (R348), and the next. -/
def checkRate (s : State) (g : Gate) (m : Msg) (ty : Byte) (pay : List Byte) : State × Bool :=
  if max 1 (s.fld F.GTE_HB_RATE_RATE) ≤ g.rate then
    (({ s with gate := g } : State).gateDrop 1 ty (some F.GTE_RATE_DROP_COUNT), false)
  else checkKey s g m ty pay

section
variable {g : Gate} (hg : s.gate.window s.tick = g) (hhost : m.host = .b)
include hg hhost

theorem admitB_hostB : s.admitB m ty pay =
    if !s.familyOn m.src.v6 || m.dport != s.hbPort then (s, false) else checkRate s g m ty pay := by
  unfold State.admitB
  rw [hg, hhost]
  rfl

omit hg in
theorem admitB_of_no_family (h : ¬Family s m) : s.admitB m ty pay = (s, false) := by
  refine (admitB_hostB rfl hhost).trans (if_pos ?_)
  rw [Family, not_and_or, Bool.not_eq_true] at h
  simpa [State.familyOn, State.hbPort] using h

variable (hfamily : Family s m)
include hfamily

theorem admitB_of_family : s.admitB m ty pay = checkRate s g m ty pay := by
  refine (admitB_hostB hg hhost).trans (if_neg ?_)
  simpa [Family, State.familyOn, State.hbPort] using hfamily

theorem admitB_of_late (hlate : max 1 (s.fld F.GTE_HB_RATE_RATE) ≤ g.rate) :
    s.admitB m ty pay = (({ s with gate := g } : State).gateDrop 1 ty (some F.GTE_RATE_DROP_COUNT), false) :=
  (admitB_of_family hg hhost hfamily).trans (if_pos hlate)

variable (hlate : ¬max 1 (s.fld F.GTE_HB_RATE_RATE) ≤ g.rate)
include hlate

theorem admitB_of_not_keyed (hkey : ¬Keyed s m ty pay) :
    s.admitB m ty pay = ((rated s g).gateDrop 2 ty (some F.GTE_AUTH_FAIL_COUNT), false) := by
  refine (admitB_of_family hg hhost hfamily).trans ((if_neg hlate).trans (if_pos ?_))
  rw [Keyed, not_and_or, Bool.not_eq_true, ← window_key s.gate s.tick, hg] at hkey
  simpa using hkey

variable (hkey : Keyed s m ty pay)
include hkey

theorem admitB_of_keyed : s.admitB m ty pay = checkSeq s g m ty := by
  refine (admitB_of_family hg hhost hfamily).trans ((if_neg hlate).trans (if_neg ?_))
  rw [Keyed, ← window_key s.gate s.tick, hg] at hkey
  simpa using hkey

omit hhost hfamily hlate hkey in
theorem newSeq_window : NewSeq s.gate m.seq ↔ NewSeq g m.seq := by
  rw [NewSeq, ← window_rxTop s.gate s.tick, ← window_seqWindow s.gate s.tick, hg]
  exact Iff.rfl

theorem admitB_of_replayed (hseq : ¬NewSeq s.gate m.seq) :
    s.admitB m ty pay = ((rated s g).gateDrop 3 ty (some F.GTE_REPLAY_DROP_COUNT), false) := by
  refine (admitB_of_keyed hg hhost hfamily hlate hkey).trans (if_pos ?_)
  rwa [Bool.not_eq_true', Bool.eq_false_iff, ne_eq, seqOk_iff, ← newSeq_window hg]

/-- A new SEQ is taken. -/
theorem admitB_of_new (hseq : NewSeq s.gate m.seq) : ∃ s1, s.admitB m ty pay = (s1, true) ∧ m.seq ∈ s1.gate.seqWindow ∧
    s1.gate.rxTop.toNat = max s.gate.rxTop.toNat m.seq.toNat := by
  have hnew : NewSeq ({ g with rate := g.rate + 1 } : Gate) m.seq := (newSeq_window hg).1 hseq
  have hok : ¬(!g.seqOk m.seq) = true := by
    rwa [Bool.not_eq_true', Bool.not_eq_false, seqOk_iff, ← newSeq_window hg]
  refine ⟨_, (admitB_of_keyed hg hhost hfamily hlate hkey).trans (if_neg hok), ?_⟩
  rw [recordSeq_gate, ← window_rxTop s.gate s.tick, hg]
  exact mem_takeSeq _ hnew

end

end Sys2Proof.Rule
end

section
/-! PROOF. The statement about the checks of the gate (R17, R339, R345 to R349, R396, R422). -/

namespace Sys2Proof.Rule

open Sys2Proof.Machine

variable {s s1 : State} {i : Instr} {m : Msg} {ty : Byte} {pay : List Byte}

/-! The submission ring of HOST-A (R346, R347). -/

/-- What does not come through the submission ring: a BAR0 access, and what a BAR2 write becomes. -/
def Direct (m : Msg) (ty : Byte) : Prop := ((ty = 1 ∨ ty = 2) ∧ m.tenant = 0xFFFF) ∨ m.tlp = .bar2

/-- The ring runs and holds a message that the module has not read. -/
def SlotReady (g : Gate) : Prop :=
  g.fld F.BAR4_RING_CTRL_EN = 1 ∧ g.fld F.BAR4_SQ_SIZE_SIZE ≠ 0 ∧
    g.fld F.BAR4_SQ_HEAD_HEAD ≠ g.fld F.BAR4_SQ_TAIL_TAIL

theorem byRing_iff (m : Msg) (ty : Byte) : byRing m ty = true ↔ ¬Direct m ty := by
  simp only [byRing, Direct, Bool.and_eq_true, Bool.not_eq_true', Bool.and_eq_false_iff, Bool.or_eq_false_iff,
    beq_eq_false_iff_ne, bne_iff_ne, ne_eq]
  tauto

theorem slotReady_iff (g : Gate) : (g.fld F.BAR4_RING_CTRL_EN = 1 && g.fld F.BAR4_SQ_SIZE_SIZE != 0
    && g.fld F.BAR4_SQ_HEAD_HEAD != g.fld F.BAR4_SQ_TAIL_TAIL) = true ↔ SlotReady g := by
  simp [SlotReady, and_assoc]

theorem takeSlot_of_ready {g : Gate} (h : SlotReady g) : g.takeSlot = some (g.setFld F.BAR4_SQ_HEAD_HEAD
    ((g.fld F.BAR4_SQ_HEAD_HEAD + 1) % g.fld F.BAR4_SQ_SIZE_SIZE)) :=
  if_pos ((slotReady_iff g).2 h)

theorem takeSlot_of_not_ready {g : Gate} (h : ¬SlotReady g) : g.takeSlot = none := if_neg (mt (slotReady_iff g).1 h)

theorem bar4Word_setFld (g : Gate) (f : Fld) (v a : Nat) :
    (g.setFld f v).bar4Word a = if a = f.key then setBits (g.bar4Word f.key) f.lo f.w v else g.bar4Word a :=
  Store.get_set _ _ _ _ _

section
variable (hhost : m.host = .a)
include hhost

theorem admitB_of_direct (h : Direct m ty) : s.admitB m ty pay = (s, true) := by
  have hring : byRing m ty = false := by rwa [← Bool.not_eq_true, byRing_iff, not_not]
  simp only [State.admitB, hhost, hring, Bool.false_eq_true, if_false]

theorem admitB_of_no_slot (h : ¬Direct m ty) (hslot : ¬SlotReady s.gate) : s.admitB m ty pay = (s, false) := by
  simp only [State.admitB, hhost, (byRing_iff m ty).2 h, if_true, takeSlot_of_not_ready hslot]

/-- A message of the ring takes the next slot. -/
theorem admitB_of_slot (h : ¬Direct m ty) (hslot : SlotReady s.gate) : ∃ g, s.admitB m ty pay = ({ s with gate := g }, true) ∧
    { g with bar4 := s.gate.bar4 } = s.gate ∧
    g.fld F.BAR4_SQ_HEAD_HEAD = (s.gate.fld F.BAR4_SQ_HEAD_HEAD + 1) % s.gate.fld F.BAR4_SQ_SIZE_SIZE % 4096 ∧
    ∀ a, a ≠ F.BAR4_SQ_HEAD_HEAD.key → g.bar4Word a = s.gate.bar4Word a := by
  refine ⟨s.gate.setFld F.BAR4_SQ_HEAD_HEAD
    ((s.gate.fld F.BAR4_SQ_HEAD_HEAD + 1) % s.gate.fld F.BAR4_SQ_SIZE_SIZE), ?_, rfl, ?_, fun a ha => ?_⟩
  · simp only [State.admitB, hhost, (byRing_iff m ty).2 h, if_true, takeSlot_of_ready hslot]
  · rw [Gate.fld, bar4Word_setFld, if_pos rfl, getBits_setBits _ _ _ _ (by decide)]
    rfl
  · rw [bar4Word_setFld, if_neg ha]

end

/-! What becomes of a message at a module that is on, or starts. -/

section
variable (hi : inbound i = some (m, ty, pay))
include hi

theorem arriveOne_of_no_link (hmode : s.power.mode = .on) (hlink : s.fld F.GTE_STATUS_LINK = 0) : s.arriveOne i = s := by
  simp only [State.arriveOne, hmode, hi, hlink, if_true]

section
variable (hlink : s.fld F.GTE_STATUS_LINK ≠ 0)
include hlink

theorem arriveOne_of_held (hmode : s.power.mode = .on) (hholds : s.linkHolds m.host = true) :
    s.arriveOne i = s.block i m.host := by
  simp only [State.arriveOne, hmode, hi, hlink, hholds, if_true, if_false]

variable (hholds : s.linkHolds m.host = false)
include hholds

theorem arriveOne_of_admitted (hmode : s.power.mode = .on) (hadmit : s.admitB m ty pay = (s1, true)) :
    s.arriveOne i = behind i m (s1.judge State.performNew i) := by
  simp only [State.arriveOne, hmode, hi, hlink, hholds, hadmit, if_false, Bool.false_eq_true, behind]

theorem arriveOne_of_admitted_start (hmode : s.power.mode = .start) (hadmit : s.admitB m ty pay = (s1, true)) :
    s.arriveOne i = if isRead i then s1.judge State.act i else s1.holdMsg i := by
  simp only [State.arriveOne, hmode, hi, hlink, hholds, hadmit, if_false, Bool.false_eq_true]

end

/-- A message that does not come in changes what its checks have changed. -/
theorem arriveOne_of_refused (hmode : s.power.mode = .on ∨ s.power.mode = .start) (hlink : s.fld F.GTE_STATUS_LINK ≠ 0)
    (hholds : s.linkHolds m.host = false) (hadmit : s.admitB m ty pay = (s1, false)) : s.arriveOne i = s1 := by
  rcases hmode with hmode | hmode <;>
    simp only [State.arriveOne, hmode, hi, hlink, hholds, hadmit, if_false, Bool.false_eq_true]

/-! Checks 4 and 5. -/

theorem judge_of_bad_form (go : State → Instr → State) (hform : formOk i m ty pay = false) :
    s.judge go i = s.gateDrop 4 ty none := by
  simp only [State.judge, hi, hform, Bool.not_false, if_true]

section
variable (hform : formOk i m ty pay = true)
include hform

theorem judge_of_disabled (go : State → Instr → State) (hen : s.bit F.MOD_EN = false) (hty : passesDisabled ty = false) :
    s.judge go i = s.gateDrop 5 ty none := by
  simp only [State.judge, hi, hform, hen, hty, Bool.not_false, Bool.not_true, Bool.and_self, Bool.false_eq_true, if_true,
    if_false]

theorem judge_of_passing (go : State → Instr → State) (h : s.bit F.MOD_EN = true ∨ passesDisabled ty = true) :
    s.judge go i = go s i := by
  have hpass : (!s.bit F.MOD_EN && !passesDisabled ty) = false := by
    rcases h with h | h <;> simp [h]
  simp only [State.judge, hi, hform, hpass, Bool.not_true, Bool.false_eq_true, if_false]

end

/-! What has passed the checks. -/

/-- PFW refuses no record of the message's epoch. -/
theorem performNew_of_accepted (h : isEpochCmd i = false ∨ s.bit F.NVS_STATUS_PFW = false ∨ s.stale i m ty = true) :
    s.performNew i = s.perform i := by
  have hrefused : (isEpochCmd i && s.bit F.NVS_STATUS_PFW && !s.stale i m ty) = false := by
    rcases h with h | h | h <;> simp [h]
  simp only [State.performNew, hi, hrefused, Bool.false_eq_true, if_false]

theorem performNew_of_waiting (hwait : s.mustWait i = true) (h : isEpochCmd i = false ∨ s.bit F.NVS_STATUS_PFW = false) :
    s.performNew i = s.holdMsg i := by
  rw [performNew_of_accepted hi (h.imp_right .inl), State.perform, if_pos hwait]

omit hi in
/-- What makes a message wait does not depend on how many records PFW has refused. -/
theorem mustWait_countRefused (s : State) (i : Instr) : (s.count F.NVS_REFUSED_COUNT).mustWait i = s.mustWait i := by
  have hbit (f : Fld) (hf : f.key ≠ F.NVS_REFUSED_COUNT.key) : (s.count F.NVS_REFUSED_COUNT).bit f = s.bit f :=
    State.bit_count_of_ne s _ f hf
  unfold State.mustWait State.supBusy State.isPfw
  rw [hbit F.MOD_STATUS_ENGINES_UP (by decide), hbit F.MOD_CONT_STATUS_SUP_TAKEOVER (by decide),
    hbit F.PWR_STATUS_PFW (by decide)]
  rfl

theorem performNew_of_refused (hwait : s.mustWait i = true) (hepoch : isEpochCmd i = true)
    (hpfw : s.bit F.NVS_STATUS_PFW = true) (hstale : s.stale i m ty = false) :
    s.performNew i = (s.count F.NVS_REFUSED_COUNT).holdMsg i := by
  have hrefused : (isEpochCmd i && s.bit F.NVS_STATUS_PFW && !s.stale i m ty) = true := by simp [hepoch, hpfw, hstale]
  simp only [State.performNew, hi, hrefused, if_true, State.perform, mustWait_countRefused, hwait]

theorem performNew_of_stale (hwait : s.mustWait i = false) (hstale : s.stale i m ty = true) :
    s.performNew i = (s.count F.GTE_STALE_NACKS_COUNT).reply m (access i).isSome 0x10 0 := by
  rw [performNew_of_accepted hi (.inr (.inr hstale)), State.perform, hwait]
  simp only [State.act, hi, hstale, if_true, Bool.false_eq_true, if_false]

theorem isRead_eq : isRead i = (ty == 2) := by simp only [isRead, hi]

end

theorem passesDisabled_iff (ty : Byte) : passesDisabled ty = true ↔ ty ∈ [(1 : Byte), 2, 3, 7] := by
  simp [passesDisabled, or_assoc]

/-! The clauses. -/

section
variable (hi : inbound i = some (m, ty, pay)) (hwhole : Whole i)
include hi hwhole

theorem exec_of_no_slot (hhost : m.host = .a) (hholds : s.linkHolds .a = false) (hdirect : ¬Direct m ty)
    (hslot : ¬SlotReady s.gate) : exec i s = .next s := by
  rw [← hhost] at hholds
  have hrefused := fun h hlink => arriveOne_of_refused hi h hlink hholds (admitB_of_no_slot hhost hdirect hslot)
  cases hmode : s.power.mode with
  | off => exact exec_of_off hi hmode
  | dormant => exact exec_of_dormant hi hmode hhost
  | start =>
    rw [exec_of_whole hi hwhole (by simp [hmode])]
    by_cases hlink : s.fld F.GTE_STATUS_LINK = 0
    · simp only [State.arriveOne, hmode, hi, hlink, if_true]
    · rw [hrefused (.inr hmode) hlink]
  | on =>
    rw [exec_of_whole hi hwhole (by simp [hmode])]
    by_cases hlink : s.fld F.GTE_STATUS_LINK = 0
    · rw [arriveOne_of_no_link hi hmode hlink]
    · rw [hrefused (.inl hmode) hlink]

end

end Sys2Proof.Rule

open Sys2Proof Sys2Proof.Machine Sys2Proof.Rule

/-- Settles O33: a message that arrives takes one branch of the checks, and each branch is one clause. -/
theorem gateChecks : Obligations.GateChecks := by
  unfold Obligations.GateChecks
  refine ⟨fun m a mask d x r s s' hhost => ⟨exec_write_more hhost a mask d x r, exec_read_more hhost a x r,
    exec_bar2_write hhost a d s, exec_bar2_read hhost a⟩, fun i m ty pay s hi => ⟨exec_of_off hi, ?_, ?_, ?_, ?_, ?_⟩⟩
  · intro hwhole hon hlink
    rw [exec_of_whole hi hwhole (by simp [hon]), arriveOne_of_no_link hi hon hlink]
  · intro hwhole hon hlink hholds
    rw [exec_of_whole hi hwhole (by simp [hon]), arriveOne_of_held hi hlink hon hholds]
    cases m.host <;> rfl
  · intro hwhole hon hlink hholds hhost
    generalize hg : s.gate.window s.tick = g
    have hexec (u : State) (h : s.admitB m ty pay = (u, false)) : exec i s = .next u := by
      rw [exec_of_whole hi hwhole (by simp [hon]), arriveOne_of_refused hi (.inl hon) hlink hholds h]
    refine ⟨?_, ?_, ?_, ?_, ?_⟩
    · exact fun hfamily => hexec _ (admitB_of_no_family hhost hfamily)
    · exact fun hfamily hlate =>
        ⟨_, hexec _ (admitB_of_late hg hhost hfamily hlate), dropped_gateDrop _ ty (by decide) (by decide)⟩
    · exact fun hfamily hlate hkey =>
        ⟨_, hexec _ (admitB_of_not_keyed hg hhost hfamily hlate hkey), dropped_gateDrop _ ty (by decide) (by decide)⟩
    · exact fun hfamily hlate hkey hseq =>
        ⟨_, hexec _ (admitB_of_replayed hg hhost hfamily hlate hkey hseq), dropped_gateDrop _ ty (by decide) (by decide)⟩
    · exact fun hfamily hlate hkey hseq => admitB_of_new hg hhost hfamily hlate hkey hseq
  · intro hwhole hhost hholds
    exact ⟨admitB_of_direct hhost, exec_of_no_slot hi hwhole hhost hholds, admitB_of_slot hhost⟩
  · intro hwhole hlink hholds s1 hadmit
    have hpassing : s1.bit F.MOD_EN = true ∨ ty ∈ [(1 : Byte), 2, 3, 7] → s1.bit F.MOD_EN = true ∨ passesDisabled ty = true :=
      Or.imp_right (passesDisabled_iff ty).2
    refine ⟨fun hstart hty => ?_, fun hstart hty hform hstale => ?_, fun hon hform => ?_, fun hon hform hen hty => ?_,
      fun hon hform hpass => ⟨fun hwait h => ?_, fun hwait hepoch hpfw hstale => ?_, fun hwait hstale => ?_⟩⟩
    · rw [exec_of_whole hi hwhole (by simp [hstart]), arriveOne_of_admitted_start hi hlink hholds hstart hadmit, isRead_eq hi,
        if_neg (by simpa using hty)]
      rfl
    · rw [exec_of_whole hi hwhole (by simp [hstart]), arriveOne_of_admitted_start hi hlink hholds hstart hadmit, isRead_eq hi,
        if_pos (by simpa using hty), judge_of_passing hi hform _ (.inr (by subst hty; rfl))]
      simp only [State.act, hi, hstale, Bool.false_eq_true, if_false]
    all_goals rw [exec_of_whole hi hwhole (by simp [hon]), arriveOne_of_admitted hi hlink hholds hon hadmit]
    · rw [judge_of_bad_form hi _ hform]
      exact ⟨_, rfl, dropped_gateDrop s1 ty (by decide) (by simp)⟩
    · rw [judge_of_disabled hi hform _ hen (by rwa [← Bool.not_eq_true, passesDisabled_iff])]
      exact ⟨_, rfl, dropped_gateDrop s1 ty (by decide) (by simp)⟩
    · rw [judge_of_passing hi hform _ (hpassing hpass), performNew_of_waiting hi hwait h]
      rfl
    · rw [judge_of_passing hi hform _ (hpassing hpass), performNew_of_refused hi hwait hepoch hpfw hstale]
      rfl
    · rw [judge_of_passing hi hform _ (hpassing hpass), performNew_of_stale hi hwait hstale]
      exact ⟨_, words_setWord s1 _ (List.mem_singleton_self _), (State.word_count s1 _ _).trans (if_pos rfl), rfl⟩
end

section
/-! PROOF. A mirror that moves to an engine that does not exist, and what the failure of its engine then writes (R22, R23,
R281). -/

namespace Sys2Proof.Rule

open Sys2Proof.Machine

/-- Engine 0 is in service, and the mirror of tenant 0 moves from it to slot 0 of engine `x`. The statements bound neither
the destination of a move nor the engine in it: for 72 ≤ `x` there is none, and the word at which `x` would have RNG.STATUS
reads here as that of an engine in retention. When engine 0 fails, the replacement becomes the mirror and wakes `x`, and
the notice of `x` (R23) sets bit `x` % 32 of whatever register stands at 0x40 + 4 · (`x` / 32). -/
def strayMove (x : Nat) : State :=
  let on : State := { State.reset with power := { State.reset.power with mode := .on } }
  let ready := ((on.setFld (F.RNG_STATUS_ESTATE 0) 0).setRstEng 0 false).setFld F.CLK_RST_SEC_SEC 0
  (ready.setFld (F.RNG_STATUS_ESTATE x) 6).setTenant 0
    ({ Tenant.reset with mirrorMove := some ⟨16 * x, 0⟩ }.setFld F.TEN_MIRROR_MSLOT 0)

/-- The field `f` after an instruction, where that ends in a state. -/
def fldAfter (o : Out) (f : Fld) : Option Nat :=
  match o with
  | .next u => some (u.fld f)
  | _ => none

theorem fld_of_fldAfter {o : Out} {u : State} {f : Fld} {v : Nat} (ho : o = .next u) (hv : fldAfter o f = some v) :
    u.fld f = v := by
  subst ho
  exact Option.some_inj.1 hv

/-! The notice of 256 is MOD.CONT_CTRL.AUTO_READMIT: a failed engine does not stay FENCED, its self-test starts. -/

theorem strayMove_inv : (strayMove 256).Inv := ⟨by decide +kernel, by decide +kernel, by decide +kernel⟩
theorem strayMove_pathOpen : (strayMove 256).pathOpen (.trailLaunch 0) = true := by decide +kernel
theorem strayMove_credit : creditMax (.trailLaunch 0) ≤ ((strayMove 256).credit (.trailLaunch 0)).held := by decide +kernel
theorem strayMove_estate : (strayMove 256).estate 0 = 0 := by decide +kernel
theorem strayMove_supTakeover : (strayMove 256).bit F.MOD_CONT_STATUS_SUP_TAKEOVER = false := by decide +kernel
theorem strayMove_autoReadmit : (strayMove 256).bit F.MOD_CONT_CTRL_AUTO_READMIT = false := by decide +kernel

/-- After a return above the count of a path of engine 0, its ESTATE is 3 (SELFTEST). -/
theorem estate_after_creditReturn :
    fldAfter (exec (.creditReturn (.trailLaunch 0)) (strayMove 256)) (F.RNG_STATUS_ESTATE 0) = some 3 := by decide +kernel

/-- After engine 0 has been declared failed, its ESTATE is 3 (SELFTEST). -/
theorem estate_after_engineFailed :
    fldAfter (exec (.engineFailed 0 true) (strayMove 256)) (F.RNG_STATUS_ESTATE 0) = some 3 := by decide +kernel

/-! The notice of 65280 is the lock of clock domain 0, which its own fault clears before. -/

theorem lock_after_clockFault :
    fldAfter (exec (.clockFault 0) (strayMove 65280)) ⟨(0x2020 + 4 * (0 / 32)) / 4, 0 % 32, 1⟩ = some 1 := by decide +kernel

end Sys2Proof.Rule

open Sys2Proof Sys2Proof.Machine Sys2Proof.Rule

/-- Refutes O53: in `strayMove 256` engine 0 is not FENCED after a return above the count of its launch path. -/
theorem not_creditsAndInterrupts : ¬Obligations.CreditsAndInterrupts := by
  unfold Obligations.CreditsAndInterrupts
  rintro ⟨hcredits, -⟩
  obtain ⟨-, hreturn, -⟩ := hcredits (.trailLaunch 0) [] 0 (strayMove 256)
  obtain ⟨-, hover⟩ := hreturn strayMove_pathOpen
  obtain ⟨v, w, hexec, -, -, -, hfail⟩ := hover strayMove_credit
  obtain ⟨hfenced, -⟩ := hfail strayMove_supTakeover strayMove_autoReadmit 0 (List.mem_singleton_self _)
  exact absurd ((fld_of_fldAfter hexec estate_after_creditReturn).symm.trans hfenced) (by decide)

/-- Refutes O54: in `strayMove 65280` clock domain 0 is locked after its fault. -/
theorem not_banks : ¬Obligations.Banks := by
  unfold Obligations.Banks
  intro h
  obtain ⟨-, -, -, -, -, -, -, -, -, -, -, -, hclock⟩ := h 0 0 0 0 false 0 0 false false (strayMove 65280)
  obtain ⟨u, hexec, -, hother⟩ := hclock (.inr rfl)
  obtain ⟨-, -, hlock, -⟩ := hother (by decide) (by decide)
  have hbit : u.fld ⟨(0x2020 + 4 * (0 / 32)) / 4, 0 % 32, 1⟩ = 1 := fld_of_fldAfter hexec lock_after_clockFault
  exact absurd (beq_iff_eq.2 hbit) (Bool.eq_false_iff.1 hlock)

/-- Refutes O55: in `strayMove 256` engine 0 is not FENCED after it has been declared failed. -/
theorem not_failoverAndMoves : ¬Obligations.FailoverAndMoves := by
  unfold Obligations.FailoverAndMoves
  rintro ⟨hfailover, -⟩
  obtain ⟨-, hfails, -⟩ := hfailover 0 true 0 0 (strayMove 256)
  obtain ⟨-, u, hexec, hfenced, -⟩ :=
    hfails (.inl strayMove_estate) strayMove_supTakeover strayMove_inv strayMove_autoReadmit
  exact absurd ((fld_of_fldAfter hexec estate_after_engineFailed).symm.trans hfenced) (by decide)
end

section
/-! PROOF. The registers after reset (R30, R75, R279, R422). -/

namespace Sys2Proof.Rule

open Sys2Proof.Machine

/-! A register that nothing has written holds its reset value. -/

@[simp] theorem reset_word (key : Nat) : State.reset.word key = moduleRst key := rfl

@[simp] theorem reset_tenant (k : Nat) : State.reset.tenant k = Tenant.reset := rfl

/-! The reset value of a register of a page is the one that the table of its block gives. -/

theorem moduleRst_of_page {key : Nat} {p : Page} (hp : pageOf (4 * key) = some p) :
    moduleRst key = BitVec.ofNat 32 (p.blk.word p.inst (4 * key - p.base)).rst := by
  have hoff : 4 * key % 0x1000 / 4 * 4 = 4 * key - p.base := by
    have hbase := pageOf_base hp
    omega
  simp only [moduleRst, moduleWord, hp, hoff]

/-- The first of a sector's pages, which begin at 0x40000, 128 KiB for each sector, is SEC (R15, R54). -/
theorem pageOf_sector (c : Sec) {off : Nat} (hoff : off < 0x1000) :
    pageOf (0x40000 + off + 0x20000 * c) = some ⟨.sec, c, 0x40000 + 0x20000 * c⟩ := by
  have hc := c.isLt
  have hinst : (0x40000 + off + 0x20000 * c.val - 0x40000) / 0x20000 = c := by omega
  have hindex : (0x40000 + off + 0x20000 * c.val - 0x40000) % 0x20000 / 0x1000 = 0 := by omega
  have hbase : (0x40000 + off + 0x20000 * c.val) / 0x1000 * 0x1000 = 0x40000 + 0x20000 * c := by omega
  simp only [pageOf, hinst, hindex, hbase, if_neg (show ¬0x40000 + off + 0x20000 * c.val < 0x40000 by omega),
    if_pos (show 0x40000 + off + 0x20000 * c.val < 0x140000 by omega)]

/-- The third of an engine's pages, which begin at 0x140000, 64 KiB for each engine, is RNG (R15, R54). -/
theorem pageOf_engineRing (e : Eng) {off : Nat} (hoff : off < 0x1000) :
    pageOf (0x142000 + off + 0x10000 * e) = some ⟨.rng, e, 0x142000 + 0x10000 * e⟩ := by
  have he := e.isLt
  have hinst : (0x142000 + off + 0x10000 * e.val - 0x140000) / 0x10000 = e := by omega
  have hindex : (0x142000 + off + 0x10000 * e.val - 0x140000) % 0x10000 / 0x1000 = 2 := by omega
  have hbase : (0x142000 + off + 0x10000 * e.val) / 0x1000 * 0x1000 = 0x142000 + 0x10000 * e := by omega
  simp only [pageOf, hinst, hindex, hbase, if_neg (show ¬0x142000 + off + 0x10000 * e.val < 0x40000 by omega),
    if_neg (show ¬0x142000 + off + 0x10000 * e.val < 0x140000 by omega),
    if_pos (show 0x142000 + off + 0x10000 * e.val < 0x5C0000 by omega)]

theorem reset_word_sector (c : Sec) {off : Nat} (hoff : off < 0x1000) (hword : off % 4 = 0) :
    State.reset.word ((0x40000 + off + 0x20000 * c) / 4) = BitVec.ofNat 32 (Blk.sec.word c off).rst := by
  have hkey : 4 * ((0x40000 + off + 0x20000 * c.val) / 4) = 0x40000 + off + 0x20000 * c := by omega
  rw [reset_word, moduleRst_of_page (hkey ▸ pageOf_sector c hoff), hkey, Nat.add_right_comm,
    Nat.add_sub_cancel_left]

theorem reset_word_engineRing (e : Eng) {off : Nat} (hoff : off < 0x1000) (hword : off % 4 = 0) :
    State.reset.word ((0x142000 + off + 0x10000 * e) / 4) = BitVec.ofNat 32 (Blk.rng.word e off).rst := by
  have hkey : 4 * ((0x142000 + off + 0x10000 * e.val) / 4) = 0x142000 + off + 0x10000 * e := by omega
  rw [reset_word, moduleRst_of_page (hkey ▸ pageOf_engineRing e hoff), hkey, Nat.add_right_comm,
    Nat.add_sub_cancel_left]

/-! The values themselves. The registers of a SEC or RNG page are the same in every instance. -/

theorem ringA_rst : getBits (BitVec.ofNat 32 (Blk.sec.word 0 0x20).rst) 0 2 = 3 := by decide +kernel
theorem ringB_rst : getBits (BitVec.ofNat 32 (Blk.sec.word 0 0x24).rst) 0 2 = 3 := by decide +kernel
theorem estate_rst : getBits (BitVec.ofNat 32 (Blk.rng.word 0 0xC).rst) 0 3 = 7 := by decide +kernel

/-- An engine is OFF after reset. -/
theorem reset_estate (e : Eng) : State.reset.estate e = 7 :=
  (congrArg (getBits · 0 3) (reset_word_engineRing e (off := 0xC) (by decide) (by decide))).trans estate_rst

/-- Both fabric rings of a sector are OFF after reset. -/
theorem reset_ringState (c : Sec) (b : Bool) : State.reset.ringState c b = 3 := by
  cases b with
  | false =>
    exact (congrArg (getBits · 0 2) (reset_word_sector c (off := 0x20) (by decide) (by decide))).trans ringA_rst
  | true =>
    exact (congrArg (getBits · 0 2) (reset_word_sector c (off := 0x24) (by decide) (by decide))).trans ringB_rst

theorem reset_inv : State.reset.Inv := ⟨rfl, rfl, by decide⟩

theorem reset_not_ready : State.reset.bit F.MOD_STATUS_READY = false := by decide +kernel

theorem reset_readmitLimit : State.reset.fld F.MOD_CONT_CTRL_READMIT_LIMIT = 2 := by decide +kernel

/-- A tenant is EMPTY after reset, in no slot and without a mirror. -/
theorem tenantReset_unplaced : Tenant.reset.fld F.TEN_CONT_STATE = 0 ∧ Tenant.reset.slot = 0x7FF ∧
    Tenant.reset.mslot = 0x7FF ∧ Tenant.reset.mirror = none := by
  decide +kernel

end Sys2Proof.Rule

open Sys2Proof Sys2Proof.Machine Sys2Proof.Rule

/-- Settles O58: the tables are empty, and each register reads its reset value from the register table. -/
theorem resetHolds : Obligations.ResetHolds := by
  unfold Obligations.ResetHolds
  refine ⟨reset_inv, rfl, rfl, reset_estate, reset_ringState, reset_not_ready, reset_readmitLimit, reset_word,
    fun k => ?_, fun _ => rfl, fun _ => rfl⟩
  rw [reset_tenant]
  exact tenantReset_unplaced
end

section
/-! PROOF. PAGE_VER (R426). -/

namespace Sys2Proof.Rule

open Sys2Proof.Machine

variable {s s1 : State} {src : BusSrc} {p : Page} {a : Nat}

/-! No field of a register table reaches into the word of PAGE_VER, so that no RC field is hidden in its read. -/

theorem maskIn_of_above {start lo hi off : Nat} (h : off + 3 < start) : maskIn start lo hi off = 0 :=
  if_pos (by simp only [Bool.or_eq_true, decide_eq_true_eq]; omega)

theorem startsNear_of_above {off base : Nat} (h : off + 3 < base) (reps : List (Nat × Nat)) :
    ∀ start ∈ startsNear off base reps, off + 3 < start := by
  cases reps with
  | nil => simpa [startsNear] using h
  | cons rep rest => simp [startsNear, h]

theorem addField_of_above {off start : Nat} (h : off + 3 < start) (d : WordDef) (f : FieldRow) :
    WordDef.addField off start d f = d := by
  rw [WordDef.addField, maskIn_of_above h]
  rfl

theorem addFields_of_above {off start : Nat} (h : off + 3 < start) (d : WordDef) (fields : List FieldRow) :
    fields.foldl (WordDef.addField off start) d = d :=
  List.foldl_fixed' (addField_of_above h d) fields

/-- Registers above a word leave it without a field. -/
theorem wordOf_of_above {rows : List RegRow} {off : Nat} (h : ∀ r ∈ rows, off + 3 < r.off) :
    wordOf rows off = WordDef.none := by
  refine (List.foldl_ext _ (fun d _ => d) _ fun d r hr => ?_).trans (List.foldl_fixed rows)
  refine (List.foldl_ext _ (fun d _ => d) d fun d start hstart => ?_).trans (List.foldl_fixed _)
  exact addFields_of_above (startsNear_of_above (h r hr) r.reps start hstart) d r.fields

theorem rows_from_ctrl (b : Blk) : ∀ r ∈ commonRows b.fixed ++ b.rows, 7 < r.off := by
  cases b <;> decide

theorem rowsAt_subset (b : Blk) (inst : Nat) : b.rowsAt inst ⊆ b.rows := by
  unfold Blk.rowsAt
  split
  · split <;> simp
  · split <;> simp
  · exact List.Subset.refl _

/-- The register tables begin with CTRL (R29). -/
theorem word_pageVer (b : Blk) (inst : Nat) : b.word inst 4 = WordDef.none :=
  wordOf_of_above fun r hr => rows_from_ctrl b r <| List.mem_append.2 <|
    (List.mem_append.1 hr).imp_right (rowsAt_subset b inst ·)

theorem moduleWord_pageVer (hmod : a % 0x1000 = 4) : moduleWord a = WordDef.none := by
  unfold moduleWord
  split
  · rw [hmod]
    exact word_pageVer _ _
  · rfl

/-! The read. -/

theorem hasReg_pageVer (p : Page) : p.hasReg 4 = true := rfl

/-- PAGE_VER is read from no latch. -/
theorem isLatched_pageVer (p : Page) : isLatched p 4 = false := by
  unfold isLatched latchedBy
  cases p.blk <;> rfl

theorem pageRead_pageVer (s : State) (x : Master) (hoff : a - p.base = 4) : s.pageRead p x a = 0x100 := by
  simp only [State.pageRead, hoff]
  rfl

/-- A read of PAGE_VER returns the word as it is or as it was before a write, and both are the same. -/
theorem readValue_pageVer (s : State) (x : Master) (hmod : a % 0x1000 = 4) (hoff : a - p.base = 4)
    (hshown : ∀ w ∈ s.bus.wrote, w.key = a / 4 → w.shown = 0x100) : s.readValue p x a = 0x100 := by
  simp only [State.readValue, hoff, isLatched_pageVer, moduleWord_pageVer hmod, pageRead_pageVer s x hoff]
  rw [if_neg (by decide), if_neg (by decide), if_neg (by simp)]
  split
  next w hfind =>
    have hfound := List.find?_some hfind
    simp only [Bool.and_eq_true, beq_iff_eq] at hfound
    obtain ⟨⟨hkey, -⟩, -⟩ := hfound
    exact hshown w (List.mem_of_find?_eq_some hfind) hkey
  next => exact blend_zero _ _

/-- A read of PAGE_VER that arrives answers 0x100 on a page that has a layout. -/
theorem pageVer_read (harrives : Arrives s s1 (.configRead src (BitVec.ofNat 32 a))) (hlt : a < 2 ^ 32)
    (hmod : a % 0x1000 = 4) (hp : pageOf a = some p)
    (hshown : ∀ w ∈ (turn s1 src).bus.wrote, w.key = a / 4 → w.shown = 0x100) :
    ∃ v, exec (.configRead src (BitVec.ofNat 32 a)) s = .next (answered src v 0x100) := by
  have hoff : a - p.base = 4 := by
    have hbase := pageOf_base hp
    omega
  have hreg : p.hasReg (a - p.base) = true := by rw [hoff, hasReg_pageVer]
  refine ⟨((turn s1 src).accrue p a).readEffect p (master src) a, congrArg Host.Outcome.next ?_⟩
  rw [arrive_configRead harrives, busRead_of_reg (by omega) hlt hp hreg,
    readValue_pageVer _ _ hmod hoff (by rwa [accrue_wrote])]

end Sys2Proof.Rule

open Sys2Proof Sys2Proof.Machine Sys2Proof.Rule

/-- Settles O60: on a page that has a layout the read finds the constant of `State.pageRead`; a reserved page has no
register. -/
theorem pageVersion : Obligations.PageVersion := by
  unfold Obligations.PageVersion
  intro m a s s1 i harrives hlt hmod
  constructor
  · intro hpage hshown
    obtain ⟨p, hp⟩ := Option.ne_none_iff_exists'.1 hpage
    exact pageVer_read harrives hlt hmod hp hshown
  · intro hp
    obtain ⟨v, hexec, -⟩ := reserved_read harrives (by omega) hlt hp
    exact ⟨v, hexec⟩
end

section
/-! PROOF. How an instruction of a tenant's CPU gives its rule: from the shared effect that it runs to what the statements
say of registers, loads and stores (R83, R105, R113, R118). -/

namespace Sys2Proof.Rule

open Sys2Proof.Machine

variable {k : Tn} {cc : Cond} {i : Instr} {n m : Nat}

/-- An instruction does what its effect does; the issue slots are those that `runCpu` counts. -/
theorem does_of_runCpu {eff : Geo → Tenant → Tenant} {post : Geo → Tenant → Tenant → Prop}
    (hexec : ∀ s, exec i s = runCpu k cc i eff s) (hpost : ∀ g t, post g t (eff g t)) : Does k cc i post := by
  intro s t hready hholds
  refine ⟨eff (s.geo k) t, ?_, hpost _ _⟩
  simp only [hexec, runCpu, hready, State.afterCpu, hholds, if_true, issueSlots]

/-- The next boundary of an instruction of `n` cycles is `n` cycles later. -/
theorem finish_eq (g : Geo) (hn : 0 < n) (ws : List (Addr × Byte)) (t : Tenant) :
    t.finish g n ws = { t.post g (t.core.now + n - 1) ws with
      core := { (t.post g (t.core.now + n - 1) ws).core with now := t.core.now + n } } := by
  rw [Tenant.finish, Nat.sub_add_cancel (by omega)]

/-- An instruction that stores nothing only lets its cycles pass. -/
theorem finish_nil (g : Geo) (hn : 0 < n) (t : Tenant) : t.finish g n [] = after t t.core.cpu n := finish_eq g hn [] t

theorem regEff_eq (g : Geo) (t : Tenant) (h : Cpu → Cpu) (hn : 0 < n) : regEff n h g t = after t (h t.core.cpu) n :=
  finish_nil g hn _

theorem regs_of_regEff {h : Cpu → Cpu} {P : Cpu → Cpu → Prop} (hexec : ∀ s, exec i s = runCpu k cc i (regEff n h) s)
    (hP : ∀ c, P c (h c)) (hn : 0 < n := by omega) : Regs k cc i n P :=
  does_of_runCpu hexec fun g t => ⟨h t.core.cpu, regEff_eq g t h hn, hP t.core.cpu⟩

/-! Loads and pops. -/

theorem loads_of_loadEff {a : Cpu → Addr} {put : List Byte → Cpu → Cpu}
    (hexec : ∀ s, exec i s = runCpu k cc i (loadEff m n a put) s) (hm : 0 < m := by omega) : Loads k cc i m n a put :=
  does_of_runCpu hexec fun g _ => finish_nil g hm _

/-- A pop loads at sp and puts its bytes away after sp has risen. -/
theorem loads_of_popEff {put : List Byte → Cpu → Cpu} (hexec : ∀ s, exec i s = runCpu k cc i (popEff m n put) s)
    (hm : 0 < m := by omega) : Loads k cc i m n Cpu.sp fun b c => put b { c with sp := c.sp + BitVec.ofNat 24 n } :=
  loads_of_loadEff hexec hm

/-- F but for T is loaded. -/
theorem loadF_eq (c : Cpu) (v : Byte) : c.loadF v = { c with f := (v &&& 0x3F) ||| (c.f &&& 0x40) } := by
  rw [Cpu.loadF, BitVec.or_comm]

/-! Stores and pushes. -/

theorem stores_of_storeEff {a : Cpu → Addr} {v : Cpu → List Byte} {put : Cpu → Cpu}
    (hexec : ∀ s, exec i s = runCpu k cc i (storeEff m a v put) s) (hm : 0 < m := by omega) : Stores k cc i m a v put :=
  does_of_runCpu hexec fun g t => finish_eq g hm _ (t.onCpu put)

/-- A push of `n` bytes stores at sp after it has fallen by `n`. -/
theorem stores_of_pushEff {v : Cpu → List Byte} (hexec : ∀ s, exec i s = runCpu k cc i (pushEff m v) s)
    (hlen : ∀ c, (v c).length = n) (hm : 0 < m := by omega) :
    Stores k cc i m (fun c => c.sp - BitVec.ofNat 24 n) v fun c => { c with sp := c.sp - BitVec.ofNat 24 n } :=
  does_of_runCpu hexec fun g t => by
    rw [← hlen t.core.cpu]
    exact finish_eq g hm _ _

/-- The bytes of a pair are its low and its high register (R83). -/
theorem leBytes_w (c : Cpu) (wd : Fin 4) : leBytes 2 (c.w wd) = [c.g (lowG wd), c.g (highG wd)] :=
  congrArg₂ (fun x y => [x, y]) BitVec.extractLsb'_append_eq_right BitVec.extractLsb'_append_eq_left

end Sys2Proof.Rule

open Sys2Proof Sys2Proof.Machine Sys2Proof.Rule

/-- Settles O5: each load runs `loadEff`, each pop `popEff`. -/
theorem loading : Obligations.Loading := by
  unfold Obligations.Loading
  intro k cc gd gx wd pk ps m a u s14
  have hpopf := loads_of_popEff (k := k) (cc := cc) (i := .popf k cc) (put := fun b c => c.loadF (leVec 8 b)) fun _ => rfl
  simp only [loadF_eq] at hpopf
  exact ⟨loads_of_loadEff fun _ => rfl, loads_of_loadEff fun _ => rfl, loads_of_loadEff fun _ => rfl,
    loads_of_loadEff fun _ => rfl, loads_of_loadEff fun _ => rfl, loads_of_loadEff fun _ => rfl,
    loads_of_loadEff fun _ => rfl, loads_of_popEff (put := fun b c => c.setG gd (leVec 8 b)) fun _ => rfl,
    loads_of_popEff (put := fun b c => c.setW wd (leVec 16 b)) fun _ => rfl,
    loads_of_popEff (put := fun b c => c.setP pk (leVec 24 b)) fun _ => rfl, hpopf⟩

/-- Settles O6: each store runs `storeEff`, each push `pushEff`; a pair is stored as its two registers. -/
theorem storing : Obligations.Storing := by
  unfold Obligations.Storing
  intro k cc gs gx ws pk ps m a u s14
  simp only [← leBytes_w]
  exact ⟨stores_of_storeEff fun _ => rfl, stores_of_storeEff fun _ => rfl, stores_of_storeEff fun _ => rfl,
    stores_of_storeEff fun _ => rfl, stores_of_storeEff fun _ => rfl, stores_of_storeEff fun _ => rfl,
    stores_of_storeEff fun _ => rfl, stores_of_pushEff (fun _ => rfl) fun _ => rfl,
    stores_of_pushEff (fun _ => rfl) fun _ => rfl, stores_of_pushEff (fun _ => rfl) fun _ => rfl,
    stores_of_pushEff (fun _ => rfl) fun _ => rfl⟩
end

section
/-! PROOF. What reads and recorded transfers of control leave of a tenant (R104, R105, R159, R269, R315). -/

namespace Sys2Proof.Machine

/-! A register word written changes the registers alone. -/

theorem Tenant.setWord_core (t : Tenant) (key : Nat) (v : Word) :
    (t.setWord key v).core = { t.core with regs := (t.setWord key v).core.regs } := by
  unfold Tenant.setWord
  split <;> rfl

theorem Tenant.violate_core (t : Tenant) (a : Addr) (write : Bool) (master : Nat) :
    (t.violate a write master).core = { t.core with regs := (t.violate a write master).core.regs } := by
  simp only [Tenant.violate, Tenant.setBit, Tenant.setFld]
  rw [setWord_core, setWord_core, setWord_core, setWord_core]

/-! Reads. -/

theorem Tenant.captureBeam_mem (g : Geo) (t : Tenant) (e : Nat) : (t.captureBeam g e).core.mem = t.core.mem := by
  simp only [captureBeam, setFld_core_mem]

theorem Core.setTimer_mem (c : Core) (n : Nat) (x : Timer) : (c.setTimer n x).mem = c.mem := by
  unfold Core.setTimer
  split <;> rfl

theorem Tenant.latchCount_mem (t : Tenant) (n : Nat) : (t.latchCount n).core.mem = t.core.mem := Core.setTimer_mem ..

/-- What a read of an address does beside returning its value is to no byte of memory. -/
theorem Tenant.touch_mem (g : Geo) (e : Nat) (t : Tenant) (a : Addr) : (t.touch g e a).core.mem = t.core.mem := by
  unfold touch
  simp only [apply_ite Tenant.core, apply_ite Core.mem, captureBeam_mem, latchCount_mem, ite_self]

theorem Tenant.foldl_touch_mem (g : Geo) (e : Nat) (as : List Addr) (t : Tenant) :
    (as.foldl (touch g e) t).core.mem = t.core.mem := by
  induction as generalizing t with
  | nil => rfl
  | cons a as ih => rw [List.foldl_cons, ih, touch_mem]

theorem Tenant.readAll_mem (g : Geo) (t : Tenant) (e master : Nat) (as : List Addr) :
    (t.readAll g e master as).1.core.mem = t.core.mem := by
  unfold readAll
  dsimp only
  split
  · rw [violate_core]
  · rfl

theorem Tenant.readAll_length (g : Geo) (t : Tenant) (e master : Nat) (as : List Addr) :
    (t.readAll g e master as).2.length = as.length := by
  unfold readAll
  dsimp only
  split <;> exact List.length_map _

theorem Tenant.cpuRead_mem (g : Geo) (t : Tenant) (e : Nat) (as : List Addr) : (t.cpuRead g e as).1.core.mem = t.core.mem :=
  (readAll_mem ..).trans (foldl_touch_mem ..)

theorem Tenant.cpuRead_length (g : Geo) (t : Tenant) (e : Nat) (a : Addr) (n : Nat) :
    (t.cpuRead g e (addrs a n)).2.length = n := by
  rw [cpuRead, readAll_length, addrs, List.length_map, List.length_range]

/-! The branch trace (R104). -/

theorem Tenant.trace_of_frozen {t : Tenant} (h : t.bit F.CPU_CTRL_BT_FREEZE = true) (a : Addr) : t.trace a = t := if_pos h

theorem Tenant.trace_of_recording {t : Tenant} (h : t.bit F.CPU_CTRL_BT_FREEZE = false) (a : Addr) :
    t.trace a = t.onCpu fun c => { c with
      bt := Store.set 0 c.bt (c.btHead + 1).toNat a, btHead := c.btHead + 1, btCount := min 32 (c.btCount + 1) } :=
  if_neg (by rw [h]; decide)

/-- A recorded transfer changes the branch trace alone. -/
theorem Tenant.trace_eq (t : Tenant) (a : Addr) : t.trace a = t.onCpu fun c => { c with
    bt := (t.trace a).core.cpu.bt, btHead := (t.trace a).core.cpu.btHead, btCount := (t.trace a).core.cpu.btCount } := by
  cases h : t.bit F.CPU_CTRL_BT_FREEZE with
  | true => rw [trace_of_frozen h]; rfl
  | false => rw [trace_of_recording h]; rfl

end Sys2Proof.Machine
end

section
/-! PROOF. The system instructions, and the ends of WAIT and FENCE (R98, R99, R118, R120, R128). -/

namespace Sys2Proof.Rule

open Sys2Proof.Machine

variable {s : State} {k : Tn} {cc : Cond} {g : Geo} {t : Tenant}

/-! FENCE. -/

theorem fenceEff_of_none (h : t.core.trail = none ∧ t.core.qdm = none ∧ t.core.dma0 = none ∧ t.core.dma1 = none) :
    fenceEff g t = after t t.core.cpu 1 := by
  obtain ⟨htrail, hqdm, hdma0, hdma1⟩ := h
  refine (if_pos ?_).trans (finish_nil g Nat.one_pos t)
  simp only [htrail, hqdm, hdma0, hdma1, Option.isNone_none, Bool.and_self]

theorem fenceEff_of_some (h : ¬(t.core.trail = none ∧ t.core.qdm = none ∧ t.core.dma0 = none ∧ t.core.dma1 = none)) :
    fenceEff g t = after t { t.core.cpu with fence := some ⟨t.core.now, t.core.trail.isSome, t.core.qdm.isSome,
      t.core.dma0.isSome, t.core.dma1.isSome⟩ } 0 := by
  refine if_neg ?_
  simpa only [Bool.and_eq_true, Option.isNone_iff_eq_none, and_assoc] using h

/-! RTT. -/

theorem b0_eq (bs : List Byte) : b0 bs = bs.getD 0 0 := by
  cases bs with
  | nil => rfl
  | cons b bs => exact BitVec.eq_of_toNat_eq (by simp [b0, leVec, leNat, Nat.mod_eq_of_lt b.isLt])

theorem b0_drop (bs : List Byte) (n : Nat) : b0 (bs.drop n) = bs.getD n 0 := by
  rw [b0_eq, List.getD_eq_getElem?_getD, List.getElem?_drop, List.getD_eq_getElem?_getD, Nat.add_zero]

theorem leVec_twentyFour (x y z : Byte) : leVec 24 [x, y, z] = (z ++ y ++ x : BitVec 24) := by
  apply BitVec.eq_of_toNat_eq
  rw [BitVec.toNat_append, ← Nat.shiftLeft_add_eq_or_of_lt x.isLt, BitVec.toNat_append,
    ← Nat.shiftLeft_add_eq_or_of_lt y.isLt]
  simp only [leVec, leNat, BitVec.toNat_ofNat]
  omega

/-- The last three of six bytes as an address. -/
theorem leVec_drop_three {bs : List Byte} (h : bs.length = 6) :
    leVec 24 (bs.drop 3) = (bs.getD 5 0 ++ bs.getD 4 0 ++ bs.getD 3 0 : BitVec 24) := by
  match bs, h with
  | [_, _, _, x, y, z], _ => exact leVec_twentyFour x y z

/-- A transfer of control that ends its instruction changes pc and the branch trace. -/
theorem finish_jumpTo (g : Geo) {n : Nat} (hn : 0 < n) (t : Tenant) (here target : Addr) : ∃ bt head count,
    (t.jumpTo here target).finish g n [] =
      after t { t.core.cpu with pc := target &&& ~~~1, bt := bt, btHead := head, btCount := count } n := by
  rw [finish_nil g hn, Tenant.jumpTo, Tenant.traceAt, Tenant.trace_eq]
  exact ⟨_, _, _, rfl⟩

/-- RTT restores CPL, F and pc from the frame, and takes the frame off the stack (R98). -/
theorem rttEff_restores :
    let r := t.cpuRead g t.core.now (addrs t.core.cpu.sp 6)
    let b (i : Nat) : Byte := r.2.getD i 0
    let long := (b 0).getLsbD 7
    let u := rttEff g t
    u.core.cpu.cpl = (b 1).setWidth 3 ∧ u.core.cpu.f = b 2 &&& 0x7F ∧ u.core.mem = t.core.mem ∧
      u.core.cpu.sp = r.1.core.cpu.sp + (if long then 10 else 6) ∧
      u.core.cpu.pc = (b 5 ++ b 4 ++ b 3 : BitVec 24) &&& ~~~1 ∧ u.core.now = r.1.core.now + (if long then 8 else 6) := by
  have hmem := t.cpuRead_mem g t.core.now (addrs t.core.cpu.sp 6)
  have hlen := t.cpuRead_length g t.core.now t.core.cpu.sp 6
  unfold rttEff
  generalize t.cpuRead g t.core.now (addrs t.core.cpu.sp 6) = r at hmem hlen ⊢
  obtain ⟨r, bs⟩ := r
  dsimp only at hmem hlen ⊢
  simp only [b0_eq bs, b0_drop, leVec_drop_three hlen]
  have hcost : 0 < if (bs.getD 0 0).getLsbD 7 then 8 else 6 := by split <;> decide
  obtain ⟨bt, head, count, hjump⟩ := finish_jumpTo g hcost (r.onCpu fun c => { c with
    cpl := (bs.getD 1 0).setWidth 3, f := bs.getD 2 0 &&& 0x7F
    sp := c.sp + (if (bs.getD 0 0).getLsbD 7 then 10 else 6) }) (t.here 2) (bs.getD 5 0 ++ bs.getD 4 0 ++ bs.getD 3 0)
  rw [hjump]
  exact ⟨rfl, rfl, hmem, rfl, rfl, rfl⟩

/-! The flags. -/

theorem putBit_not (f : Byte) : putBit f 0 (some !f.getLsbD 0) = f ^^^ 1 := by
  decide +revert

/-- The system instructions (R98, R99, R118, R120, R128). -/
theorem systemGroup : SystemGroup := by
  intro k cc
  exact ⟨regs_of_regEff (fun _ => rfl) fun _ => rfl, regs_of_regEff (fun _ => rfl) fun _ => rfl,
    regs_of_regEff (fun _ => rfl) fun _ => rfl, regs_of_regEff (fun _ => rfl) fun _ => rfl,
    regs_of_regEff (fun _ => rfl) fun _ => rfl,
    regs_of_regEff (fun _ => rfl) fun c => congrArg (fun f => { c with f := f }) (putBit_not c.f),
    does_of_runCpu (fun _ => rfl) fun _ _ => rfl,
    does_of_runCpu (fun _ => rfl) fun _ _ => ⟨fenceEff_of_none, fenceEff_of_some⟩,
    does_of_runCpu (fun _ => rfl) fun _ _ => rttEff_restores⟩

/-! The ends of WAIT and FENCE. -/

theorem Quiet.all_due (h : Quiet g t) : (allEvents.all fun x => match t.due g x with
    | some c => decide (t.core.now < c)
    | none => true) = true := by
  refine List.all_eq_true.2 fun x hx => ?_
  split
  · next c hc => exact decide_eq_true (h x hx c hc)
  · rfl

section

variable (ht : t = (s.tenant k).prep (s.geo k) (s.tenant k).core.now) (hexecutes : t.executes = true) (hring : t.ring = none)
  (hquiet : Quiet (s.geo k) t)

include ht hexecutes hring hquiet

/-- WAIT ends at a cycle at which a waking condition holds (R99). -/
theorem exec_waitWake {n : Nat} (hwait : t.core.cpu.wait = some n) (hwakes : t.wakes = true) :
    exec (.waitWake k) s = .next (s.setTenant k (after t { t.core.cpu with wait := none } 1)) := by
  change execWaitWake k s = _
  simp only [execWaitWake, ← ht, hexecutes, hwait, hring, hwakes, Option.isSome_some, Option.isNone_none, Bool.true_and,
    Bool.and_true]
  exact if_pos hquiet.all_due

/-- FENCE ends when no item launched before it is left (R128). -/
theorem exec_fenceEnd {f : Fence} (hfence : t.core.cpu.fence = some f) (htrail : f.trail = false) (hqdm : f.qdm = false)
    (hdma0 : f.dma0 = false) (hdma1 : f.dma1 = false) :
    exec (.fenceEnd k) s = .next (s.setTenant k (after t { t.core.cpu with fence := none } 1)) := by
  change execFenceEnd k s = _
  simp only [execFenceEnd, ← ht, hfence, hexecutes, hring, htrail, hqdm, hdma0, hdma1, Option.isNone_none, Bool.true_and,
    Bool.or_self, Bool.not_false, Bool.and_true]
  exact if_pos hquiet.all_due

end

theorem waitsEnd : WaitsEnd := fun _ _ hexecutes hring hquiet =>
  ⟨fun _ => exec_waitWake rfl hexecutes hring hquiet, fun _ => exec_fenceEnd rfl hexecutes hring hquiet⟩

end Sys2Proof.Rule

open Sys2Proof.Rule

/-- Settles O13: WAIT and FENCE only mark that the tenant waits, and the commands that end them act under the hypotheses. -/
theorem systemAndWaits : Obligations.SystemAndWaits := by
  unfold Obligations.SystemAndWaits
  exact ⟨systemGroup, waitsEnd⟩
end

section
/-! PROOF. What a store leaves in memory (R85, R103, R105, R268, R269). -/

namespace Sys2Proof.Machine

/-! A byte written into a live return-stack entry (R103). -/

theorem lowByte_getLsbD (n : Nat) : (0xFF : Addr).getLsbD n = decide (n < 8) := by
  rw [show (0xFF : Addr) = BitVec.ofNat 24 (2 ^ 8 - 1) from rfl, BitVec.getLsbD_ofNat, Nat.testBit_two_pow_sub_one]
  by_cases h : n < 8
  · simp [h, show n < 24 by omega]
  · simp [h]

/-- A byte put over byte `d` of an address is read back at `d`, and the other bytes stay. -/
theorem byteOf_putByte (p : Addr) (v : Byte) {d j : Nat} (hj : j < 3) :
    byteOf ((p &&& ~~~((0xFF : Addr) <<< (8 * d))) ||| (BitVec.setWidth 24 v <<< (8 * d))) j
      = if j = d then v else byteOf p j := by
  refine BitVec.eq_of_getLsbD_eq fun b hb => ?_
  have hlt : 8 * j + b < 24 := by omega
  simp only [byteOf, BitVec.getLsbD_extractLsb', BitVec.getLsbD_or, BitVec.getLsbD_and, BitVec.getLsbD_not,
    BitVec.getLsbD_shiftLeft, BitVec.getLsbD_setWidth, lowByte_getLsbD, hlt, hb]
  by_cases hjd : j = d
  · subst hjd
    have hsub : 8 * j + b - 8 * j = b := by omega
    simp [hb, hsub, show b < 24 by omega]
  · rw [if_neg hjd]
    by_cases hlo : 8 * j + b < 8 * d
    · simp [hlo, hb]
    · have hge : 8 ≤ 8 * j + b - 8 * d := by omega
      simp [hlo, hb, hge]

theorem RsEntry.write_res (a : Addr) (v : Byte) (e : RsEntry) : (e.write a v).res = e.res := by
  unfold RsEntry.write
  dsimp only
  split <;> rfl

/-- The byte of a live entry at an address that it covers, after a byte is written. -/
theorem RsEntry.byteOf_write (a b : Addr) (v : Byte) {e : RsEntry} (hb : (b - e.res).toNat < 3) :
    byteOf (e.write a v).ret (b - e.res).toNat = if b = a then v else byteOf e.ret (b - e.res).toNat := by
  unfold RsEntry.write
  dsimp only
  by_cases ha : (a - e.res).toNat < 3
  · have hiff : (b - e.res).toNat = (a - e.res).toNat ↔ b = a := by rw [BitVec.toNat_inj, sub_left_inj]
    rw [if_pos ha, byteOf_putByte _ _ hb]
    simp only [hiff]
  · rw [if_neg ha, if_neg]
    rintro rfl
    exact ha hb

/-- Live entries give the byte written at its address, and what they gave at every other. -/
theorem liveByte_write (rs : List RsEntry) (a b : Addr) (v : Byte) :
    liveByte (rs.map (RsEntry.write a v)) b = (liveByte rs b).map fun w => if b = a then v else w := by
  unfold liveByte
  rw [List.foldl_map]
  refine List.foldl_hom (Option.map fun w => if b = a then v else w) (init := none) fun r e => ?_
  simp only [RsEntry.write_res]
  by_cases hb : (b - e.res).toNat < 3
  · simp only [if_pos hb, Option.map_some, RsEntry.byteOf_write a b v hb]
  · simp only [if_neg hb]

/-! A byte of memory written. -/

theorem Core.ramByte_eq (c : Core) (b : Nat) :
    c.ramByte b = (liveByte c.cpu.rs (BitVec.ofNat 24 b)).getD (memGet c.mem b) := by
  unfold Core.ramByte
  cases liveByte c.cpu.rs (BitVec.ofNat 24 b) <;> rfl

section

variable (g : Geo) (e : Nat) (t : Tenant)

theorem Tenant.pokeByte_mem (w : Addr × Byte) : (t.pokeByte g e w).core.mem = memSet t.core.mem w.1.toNat w.2 := by
  unfold pokeByte
  dsimp only
  split
  · rw [setBit_core_mem]
  · rfl

theorem Tenant.pokeByte_rs (w : Addr × Byte) :
    (t.pokeByte g e w).core.cpu.rs = t.core.cpu.rs.map (RsEntry.write w.1 w.2) := by
  unfold pokeByte
  dsimp only
  split
  · rw [setBit_core_cpu]
  · rfl

/-- A byte written reads as written, in memory and under live entries, and every other byte as before (R103). -/
theorem Tenant.pokeByte_ramByte (w : Addr × Byte) {b : Nat} (hb : b < 2 ^ 24) :
    (t.pokeByte g e w).core.ramByte b = if b = w.1.toNat then w.2 else t.core.ramByte b := by
  have hiff : BitVec.ofNat 24 b = w.1 ↔ b = w.1.toNat := by
    rw [← BitVec.toNat_inj, BitVec.toNat_ofNat, Nat.mod_eq_of_lt hb]
  rw [Core.ramByte_eq, Core.ramByte_eq, pokeByte_rs, pokeByte_mem, liveByte_write, memGet_memSet]
  cases liveByte t.core.cpu.rs (BitVec.ofNat 24 b) with
  | none => rfl
  | some r => simp only [hiff, Option.map_some, Option.getD_some]

theorem Tenant.issue_core (ws : List (Nat × Byte)) : (t.issue ws).core = t.core := by
  unfold issue
  split
  · split <;> rfl
  · rfl

/-- Bytes written leave every other byte. -/
theorem Tenant.pokeAll_ramByte_of_ne {ws : List (Addr × Byte)} {b : Nat} (hb : b < 2 ^ 24)
    (h : ∀ w ∈ ws, b ≠ w.1.toNat) : (t.pokeAll g e ws).core.ramByte b = t.core.ramByte b := by
  rw [pokeAll, issue_core]
  induction ws generalizing t with
  | nil => rfl
  | cons w ws ih =>
    obtain ⟨hw, hws⟩ := List.forall_mem_cons.1 h
    rw [List.foldl_cons, ih _ hws, pokeByte_ramByte g e t w hb, if_neg hw]

/-! The violation counter (R269). -/

theorem Tenant.pokeByte_fld (w : Addr × Byte) {f : Fld} (hf : f.key ≠ F.PAL_STATUS_PENDING.key) :
    (t.pokeByte g e w).fld f = t.fld f := by
  unfold pokeByte
  dsimp only
  split
  · exact fld_setFld_of_ne _ _ _ _ (.inl hf)
  · rfl

theorem Tenant.issue_fld (ws : List (Nat × Byte)) (f : Fld) : (t.issue ws).fld f = t.fld f := by
  unfold issue
  split
  · split <;> rfl
  · rfl

theorem Tenant.pokeAll_fld (ws : List (Addr × Byte)) {f : Fld} (hf : f.key ≠ F.PAL_STATUS_PENDING.key) :
    (t.pokeAll g e ws).fld f = t.fld f := by
  rw [pokeAll, issue_fld]
  induction ws generalizing t with
  | nil => rfl
  | cons w ws ih => rw [List.foldl_cons, ih, pokeByte_fld _ _ _ _ hf]

theorem Tenant.violate_ramByte (a : Addr) (write : Bool) (master b : Nat) :
    (t.violate a write master).core.ramByte b = t.core.ramByte b := by
  rw [violate_core]
  rfl

theorem Tenant.violate_count (a : Addr) (write : Bool) (master : Nat) :
    (t.violate a write master).fld F.TEN_VIOLATIONS_COUNT
      = (t.fld F.TEN_VIOLATIONS_COUNT + 1) % 2 ^ F.TEN_VIOLATIONS_COUNT.w := by
  rw [violate, fld_setFld_of_ne _ _ _ _ (.inl (by decide)), setBit, fld_setFld_of_ne _ _ _ _ (.inl (by decide)),
    fld_setFld_of_ne _ _ _ _ (.inl (by decide)), fld_setFld _ _ _ (by decide)]

/-! A CPU store outside the I/O pages. -/

theorem cpuWritable_of_not_io {a : Nat} (h : isIo a = false) : cpuWritable a = isWritableRam a := by
  rw [cpuWritable, h, Bool.false_and, Bool.or_false]

theorem isIo_of_isWritableRam {a : Nat} (h : isWritableRam a = true) : isIo a = false := by
  simp only [isWritableRam, isIo, Bool.or_eq_true, Bool.and_eq_true, decide_eq_true_eq, Bool.and_eq_false_iff,
    decide_eq_false_iff_not] at h ⊢
  omega

/-- A store outside the I/O pages writes the bytes that it may write; the first other one is its violation. -/
theorem Tenant.cpuWrite_of_not_io {ws : List (Addr × Byte)} (hio : ∀ w ∈ ws, isIo w.1.toNat = false) :
    t.cpuWrite g e ws =
      (ws.find? fun w => !isWritableRam w.1.toNat).elim (t.pokeAll g e (ws.filter fun w => isWritableRam w.1.toNat))
        fun w => (t.pokeAll g e (ws.filter fun w => isWritableRam w.1.toNat)).violate w.1 true 0 := by
  have hnone : (ws.filter fun w => isIo w.1.toNat && cpuWritable w.1.toNat) = [] :=
    List.filter_eq_nil_iff.2 fun w hw => by rw [hio w hw, Bool.false_and]; exact Bool.false_ne_true
  have hfind : (ws.find? fun w => !cpuWritable w.1.toNat) = ws.find? fun w => !isWritableRam w.1.toNat :=
    List.find?_congr fun w hw => by rw [cpuWritable_of_not_io (hio w hw)]
  unfold cpuWrite
  simp only [hnone, if_true, hfind]
  cases ws.find? fun w => !isWritableRam w.1.toNat <;> rfl

end

end Sys2Proof.Machine

namespace Sys2Proof.Rule

open Sys2Proof.Machine

theorem storedByte : StoredByte := by
  intro g t e a v ha b hb
  have hio : ∀ w ∈ [(a, v)], isIo w.1.toNat = false := List.forall_mem_singleton.2 (isIo_of_isWritableRam ha)
  rw [Tenant.cpuWrite_of_not_io g e t hio, List.find?_singleton, List.filter_singleton, ha]
  rw [← Tenant.pokeByte_ramByte g e t (a, v) hb]
  exact congrArg (Core.ramByte · b) (Tenant.issue_core ..)

theorem storeFrame : StoreFrame := by
  intro g t e ws hio
  have hframe {b : Nat} (hb : b < 2 ^ 24) (h : ∀ w ∈ ws, w.1.toNat = b → isWritableRam b = false) :
      (t.pokeAll g e (ws.filter fun w => isWritableRam w.1.toNat)).core.ramByte b = t.core.ramByte b := by
    refine Tenant.pokeAll_ramByte_of_ne g e t hb fun w hw hbw => ?_
    obtain ⟨hmem, hwritable⟩ := List.mem_filter.1 hw
    rw [← hbw, h w hmem hbw.symm] at hwritable
    exact Bool.false_ne_true hwritable
  have hcount := Tenant.pokeAll_fld g e t (ws.filter fun w => isWritableRam w.1.toNat) (f := F.TEN_VIOLATIONS_COUNT)
    (by decide)
  rw [Tenant.cpuWrite_of_not_io g e t hio]
  cases hfind : ws.find? fun w => !isWritableRam w.1.toNat with
  | none =>
    have hall : (ws.all fun w => isWritableRam w.1.toNat) = true := by simpa using hfind
    exact ⟨fun b => hframe, by rw [if_pos hall]; exact hcount⟩
  | some w =>
    have hall : ¬(ws.all fun w => isWritableRam w.1.toNat) = true := fun hall => by
      have hw := List.find?_some hfind
      rw [List.all_eq_true.1 hall w (List.mem_of_find?_eq_some hfind)] at hw
      exact Bool.false_ne_true hw
    refine ⟨fun b hb h => (Tenant.violate_ramByte ..).trans (hframe hb h), ?_⟩
    rw [if_neg hall, Option.elim, Tenant.violate_count, hcount]

end Sys2Proof.Rule

open Sys2Proof.Rule

/-- Settles O7: memory and the live entries over it take a stored byte together. -/
theorem storedBytes : Obligations.StoredBytes := by
  unfold Obligations.StoredBytes
  exact ⟨storedByte, storeFrame⟩
end

section
/-! PROOF. Entry sequences: traps, the double trap, and interrupts (R87 to R97, R104, R115). -/

namespace Sys2Proof.Rule

open Sys2Proof.Machine

variable {s : State} {k : Tn} {g : Geo} {t : Tenant} {x : VecRead} {e : Nat}

/-! The parts of an entry sequence. -/

theorem stepEntry_reads (hx : t.core.vread = some x) (hgot : x.got = none) (hcycle : x.cycle ≤ e)
    (hbegun : x.cycle < t.core.begun * g.cpl) : t.stepEntry g e = t.readVector g x := by
  simp only [Tenant.stepEntry, hx, hgot, hcycle, hbegun, decide_true, Bool.and_self, if_true]

theorem stepEntry_ends {pc : Addr} (hx : t.core.vread = some x) (hgot : x.got = some pc) (hlast : x.last < e) :
    t.stepEntry g e = t.endEntry x pc := by
  simp only [Tenant.stepEntry, hx, hgot, hlast, if_true]

/-- The tenant whose vector is read and no longer waited for. -/
def vectorTaken (t : Tenant) : Tenant := { t with core := { t.core with vread := none } }

/-- The tenant at the end of an entry sequence, which is in the branch trace (R104). -/
def traced (t : Tenant) (x : VecRead) : Tenant := (vectorTaken t).trace (x.from_ ||| 1)

/-- The end of an entry sequence sets pc, and CPL of an interrupt or T and I of a trap, and may freeze the trace. -/
theorem endEntry_core (t : Tenant) (x : VecRead) (pc : Addr) :
    (t.endEntry x pc).core = { (traced t x).core with
      cpu := { (traced t x).core.cpu with
        pc := pc, cpl := x.cpl.getD (traced t x).core.cpu.cpl
        f := if x.cpl.isSome then (traced t x).core.cpu.f else ((traced t x).core.cpu.f &&& 0xDF) ||| 0x40 }
      regs := (t.endEntry x pc).core.regs } := by
  unfold Tenant.endEntry
  cases x.cpl with
  | some p => rfl
  | none =>
    dsimp only
    split
    · exact Tenant.setWord_core ..
    · rfl

theorem entryEnds (g : Geo) : EntryEnds g := by
  intro t x e hx
  refine ⟨fun hgot hcycle hbegun => stepEntry_reads hx hgot hcycle hbegun, fun pc hgot hlast => ?_⟩
  rw [stepEntry_ends hx hgot hlast]
  dsimp only
  rw [endEntry_core, traced]
  refine ⟨?_, ?_, ?_, fun hfreeze => ?_, fun hfreeze => ?_⟩
  · rw [Tenant.trace_eq]; rfl
  · rw [Tenant.trace_eq]; rfl
  · rw [Tenant.trace_eq]; rfl
  · rw [Tenant.trace_of_frozen (t := vectorTaken t) hfreeze]
    exact ⟨rfl, rfl⟩
  · rw [Tenant.trace_of_recording (t := vectorTaken t) hfreeze]
    exact ⟨rfl, Store.get_set_self ..⟩

/-- An entry sequence that begins, with its counter. -/
theorem enters_enter (g : Geo) (t : Tenant) (frame : List Byte) (v p : Nat) (cpl : Option (BitVec 3)) (f : Fld) :
    Enters g t ((t.enter g frame v p cpl).count f) frame v p cpl f := by
  refine ⟨Tenant.setWord_core .., fun a ha => ?_, ?_⟩
  · rw [Tenant.word_count, if_neg ha]; rfl
  · rw [Tenant.word_count, if_pos rfl]; rfl

/-! Traps. -/

theorem trap_enters (v : Nat) (hT : t.core.cpu.fT = false) :
    ∃ u, s.trap k t v = s.setTenant k u ∧ TrapEntry (s.geo k) v t u := by
  refine ⟨_, ?_, enters_enter ..⟩
  rw [State.trap, hT]
  rfl

/-- The tenant that a double trap holds (R97). -/
def doubleTrapped (t : Tenant) : Tenant :=
  ({ t.onCpu fun c => { c with doubleTrap := true } with redo := false, heldByModule := false } : Tenant).setFld
    F.TEN_CONT_STATE (if t.redo then t.fld F.TEN_CONT_STATE else 3)

theorem doubleTrapped_state (t : Tenant) :
    (doubleTrapped t).fld F.TEN_CONT_STATE = if t.redo then t.fld F.TEN_CONT_STATE else 3 := by
  rw [doubleTrapped, Tenant.fld_setFld _ _ _ (by decide)]
  split
  · exact Nat.mod_mod _ _
  · rfl

/-- CONT is a word that the module keeps, so that the execution changes in the double-trap bit alone. -/
theorem doubleTrapped_core (t : Tenant) :
    (doubleTrapped t).core = { t.core with cpu := { t.core.cpu with doubleTrap := true } } := by
  rw [doubleTrapped, Tenant.setFld, Tenant.setWord, if_neg (by decide)]
  rfl

/-- A double trap tells the hosts, but for one that a failover makes repeat. -/
theorem doubleTrap_eq (s : State) (k : Tn) (t : Tenant) (v : Nat) :
    s.doubleTrap k t v = if t.redo then s.setTenant k (doubleTrapped t) else (s.setTenant k (doubleTrapped t)).notify 0x0108
      [(k.val, v), (k.val, t.core.cpu.pc.toNat % 65536), (k.val, t.core.cpu.pc.toNat / 65536)] := rfl

theorem sent_doubleTrap (s : State) (k : Tn) (t : Tenant) (v : Nat) :
    (s.setTenant k (doubleTrapped t)).Sent (s.doubleTrap k t v) := by
  rw [doubleTrap_eq]
  split
  · exact .rfl
  · exact State.notify_sent ..

/-- A trap while T is 1 is a double trap (R97). -/
theorem trap_doubleTrap (v : Nat) (hT : t.core.cpu.fT = true) : DoubleTrap s k t (s.trap k t v) := by
  have htrap : s.trap k t v = s.doubleTrap k t v := by rw [State.trap, hT]; rfl
  have hsent := sent_doubleTrap s k t v
  have ⟨_, _, _, hs, _⟩ := hsent
  have htenant (j : Nat) : (s.doubleTrap k t v).tenant j = if j = k.val then doubleTrapped t else s.tenant j := by
    rw [hs, ← State.tenant_setTenant]
    rfl
  rw [htrap]
  refine ⟨?_, ?_, fun j hj => ?_, fun a ha => hsent.word ha, by rw [hs]; rfl⟩
  · rw [htenant, if_pos rfl, doubleTrapped_state]
  · rw [htenant, if_pos rfl, doubleTrapped_core]
  · rw [htenant, if_neg hj]

/-- What is true of a trap through vector `v` at the boundary: the entry with T at 0, the double trap with T at 1. -/
theorem trap_spec (v : Nat) {i : Instr} (hexec : exec i s = .next (s.trap k t v)) :
    (t.core.cpu.fT = false → ∃ u, exec i s = .next (s.setTenant k u) ∧ TrapEntry (s.geo k) v t u) ∧
      (t.core.cpu.fT = true → ∃ s', exec i s = .next s' ∧ DoubleTrap s k t s') := by
  rw [hexec]
  constructor
  · intro hT
    obtain ⟨u, hu, hentry⟩ := trap_enters (s := s) (k := k) v hT
    exact ⟨u, congrArg _ hu, hentry⟩
  · exact fun hT => ⟨_, rfl, trap_doubleTrap v hT⟩

theorem exec_reservedOpcodeTrap {h0 h1 : Half} (ht : s.trapReady k = some t) (hfetch : t.fetch (s.geo k) = some (h0, h1))
    (hreserved : zdecode k h0 h1 = none) : exec (.reservedOpcodeTrap k) s = .next (s.trap k t 1) := by
  change execReservedOpcodeTrap k s = _
  simp only [execReservedOpcodeTrap, ht, hfetch, hreserved, Option.isNone_none, if_true]

theorem exec_fetchFault (ht : s.trapReady k = some t) (hfetch : t.fetch (s.geo k) = none) :
    exec (.fetchFault k) s = .next (s.trap k t 2) := by
  change execFetchFault k s = _
  simp only [execFetchFault, ht, hfetch, Option.isNone_none, if_true]

end Sys2Proof.Rule

open Sys2Proof Sys2Proof.Machine Sys2Proof.Rule

/-- Settles O11: both traps are `State.trap` with their vector, which is an entry sequence or the double trap. -/
theorem traps : Obligations.Traps := by
  unfold Obligations.Traps
  refine ⟨entryEnds, fun s k t ht => ⟨fun h0 h1 hfetch hreserved => ?_, fun hfetch => ?_⟩⟩
  · exact trap_spec 1 (exec_reservedOpcodeTrap ht hfetch hreserved)
  · exact trap_spec 2 (exec_fetchFault ht hfetch)

/-- Settles O12: an accepted interrupt is an entry sequence with the short frame, whose counter rises. -/
theorem interruptEntry : Obligations.InterruptEntry := by
  unfold Obligations.InterruptEntry
  intro s k t n p ht hinterrupt
  refine ⟨_, ?_, enters_enter .., entryEnds _⟩
  change execInterruptEntry k s = _
  simp only [execInterruptEntry, ht, hinterrupt]
  rfl

end

section
/-! PROOF. The fields of an encoding (R108 to R115): each is a run of bits of its halfword, and a halfword is what its
fields make of it. -/

namespace Sys2Proof.Machine

-- One proof at a time: each thread of Lean keeps a stack of its own, and the whole text is near the memory limit.
set_option Elab.async false

/-! Runs of bits. -/

theorem extractLsb'_extractLsb' {w s l lo len : Nat} (x : BitVec w) (h : s + l ≤ len) :
    (x.extractLsb' lo len).extractLsb' s l = x.extractLsb' (lo + s) l := by
  refine BitVec.eq_of_getLsbD_eq fun i hi => ?_
  simp only [BitVec.getLsbD_extractLsb', hi, show s + i < len by omega, decide_true, Bool.true_and, Nat.add_assoc]

theorem extractLsb'_eq_append_iff {w m n lo : Nat} {x : BitVec w} {a : BitVec m} {b : BitVec n} :
    x.extractLsb' lo (m + n) = a ++ b ↔ x.extractLsb' (lo + n) m = a ∧ x.extractLsb' lo n = b := by
  constructor
  · intro h
    have hhi := congrArg (BitVec.extractLsb' n m) h
    have hlo := congrArg (BitVec.extractLsb' 0 n) h
    rw [BitVec.extractLsb'_append_eq_left, extractLsb'_extractLsb' x (by omega)] at hhi
    rw [BitVec.extractLsb'_append_eq_right, extractLsb'_extractLsb' x (by omega)] at hlo
    exact ⟨hhi, hlo⟩
  · rintro ⟨rfl, rfl⟩
    exact (BitVec.extractLsb'_append_extractLsb'_eq_extractLsb' rfl).symm

theorem eq_append_iff (m n : Nat) {x : BitVec (m + n)} {a : BitVec m} {b : BitVec n} :
    x = a ++ b ↔ x.extractLsb' n m = a ∧ x.extractLsb' 0 n = b := by
  rw [← BitVec.extractLsb'_eq_self (x := x), extractLsb'_eq_append_iff, BitVec.extractLsb'_eq_self, Nat.zero_add]

theorem eq_iff_extractLsb' (m n : Nat) {x y : BitVec (m + n)} :
    x = y ↔ x.extractLsb' n m = y.extractLsb' n m ∧ x.extractLsb' 0 n = y.extractLsb' 0 n := by
  rw [← eq_append_iff, ← (eq_append_iff m n).2 ⟨rfl, rfl⟩]

/-! What each kind of field holds. -/

section

variable {w lo : Nat} {x : BitVec w}

theorem extractLsb'_eq_f3 {d : Fin 8} : x.extractLsb' lo 3 = f3 d ↔ reg3 x lo = d :=
  ⟨congrArg BitVec.toFin, congrArg f3⟩

theorem extractLsb'_eq_f2 {k : Fin 4} : x.extractLsb' lo 2 = f2 k ↔ ptr2 x lo = k :=
  ⟨congrArg BitVec.toFin, congrArg f2⟩

theorem extractLsb'_eq_ofBool {b : Bool} : x.extractLsb' lo 1 = BitVec.ofBool b ↔ x.getLsbD lo = b := by
  rw [BitVec.getLsbD_eq_extractLsb', beq_eq_decide]
  generalize x.extractLsb' lo 1 = y
  revert y b
  decide

theorem extractLsb'_eq_zero : x.extractLsb' lo 1 = 0 ↔ x.getLsbD lo = false := extractLsb'_eq_ofBool (b := false)

theorem extractLsb'_eq_one : x.extractLsb' lo 1 = 1 ↔ x.getLsbD lo = true := extractLsb'_eq_ofBool (b := true)

/-- A pair field holds twice the number of the pair (R109). -/
theorem extractLsb'_eq_fw {k : Fin 4} : x.extractLsb' lo 3 = fw k ↔ pair3 x lo = some k := by
  refine (extractLsb'_eq_append_iff (m := 2) (n := 1)).trans ?_
  rw [extractLsb'_eq_f2, extractLsb'_eq_zero, pair3, ptr2]
  cases x.getLsbD lo <;> simp

theorem condCode_condOf (c : BitVec 4) : condCode (condOf c) = c := by
  decide +revert

theorem condOf_condCode (cc : Cond) : condOf (condCode cc) = cc := by
  cases cc <;> rfl

theorem eq_condCode {c : BitVec 4} {cc : Cond} : c = condCode cc ↔ condOf c = cc :=
  ⟨fun h => h ▸ condOf_condCode cc, fun h => h ▸ (condCode_condOf c).symm⟩

theorem eq_selCode {y : BitVec 3} {d : PSel} : y = selCode d ↔ selOf y = some d := by
  cases d with
  | p k => decide +revert
  | sp => decide +revert

theorem eq_byteNo {y : BitVec 2} {n : Fin 3} : y = BitVec.ofNat 2 n.val ↔ byteNo y = some n := by
  decide +revert

end

/-! The operand byte of a short instruction (R113). -/

section

variable {x : Byte} {d g : Fin 8} {v w k : Fin 4} {b : Bool}

theorem operand_regs {o : BitVec 2} :
    x = o ++ f3 d ++ f3 g ↔ x.extractLsb' 6 2 = o ∧ reg3 x 3 = d ∧ reg3 x 0 = g := by
  refine (eq_append_iff (2 + 3) 3).trans ?_
  simp only [extractLsb'_eq_append_iff, extractLsb'_eq_f3, and_assoc]

theorem operand_pairs {o : BitVec 2} :
    x = o ++ fw v ++ fw w ↔ x.extractLsb' 6 2 = o ∧ pair3 x 3 = some v ∧ pair3 x 0 = some w := by
  refine (eq_append_iff (2 + 3) 3).trans ?_
  simp only [extractLsb'_eq_append_iff, extractLsb'_eq_fw, and_assoc]

theorem operand_reg {o : BitVec 5} : x = o ++ f3 g ↔ x.extractLsb' 3 5 = o ∧ reg3 x 0 = g := by
  refine (eq_append_iff 5 3).trans ?_
  simp only [extractLsb'_eq_f3]

theorem operand_pair {o : BitVec 5} : x = o ++ fw w ↔ x.extractLsb' 3 5 = o ∧ pair3 x 0 = some w := by
  refine (eq_append_iff 5 3).trans ?_
  simp only [extractLsb'_eq_fw]

theorem operand_ptr {o : BitVec 5} :
    x = o ++ (0 : BitVec 1) ++ f2 k ↔ x.extractLsb' 3 5 = o ∧ x.getLsbD 2 = false ∧ ptr2 x 0 = k := by
  refine (eq_append_iff (5 + 1) 2).trans ?_
  simp only [extractLsb'_eq_append_iff, extractLsb'_eq_zero, extractLsb'_eq_f2, and_assoc]

theorem operand_reg_ptr {o : BitVec 2} : x = o ++ f3 d ++ f2 k ++ BitVec.ofBool b ↔
    x.extractLsb' 6 2 = o ∧ reg3 x 3 = d ∧ ptr2 x 1 = k ∧ x.getLsbD 0 = b := by
  refine (eq_append_iff (2 + 3 + 2) 1).trans ?_
  simp only [extractLsb'_eq_append_iff, extractLsb'_eq_f3, extractLsb'_eq_f2, extractLsb'_eq_ofBool, and_assoc]

theorem operand_pair_ptr {o : BitVec 2} : x = o ++ fw w ++ f2 k ++ BitVec.ofBool b ↔
    x.extractLsb' 6 2 = o ∧ pair3 x 3 = some w ∧ ptr2 x 1 = k ∧ x.getLsbD 0 = b := by
  refine (eq_append_iff (2 + 3 + 2) 1).trans ?_
  simp only [extractLsb'_eq_append_iff, extractLsb'_eq_fw, extractLsb'_eq_f2, extractLsb'_eq_ofBool, and_assoc]

theorem operand_adj {u : BitVec 6} : x = f2 k ++ u ↔ ptr2 x 6 = k ∧ x.extractLsb' 0 6 = u := by
  refine (eq_append_iff 2 6).trans ?_
  simp only [extractLsb'_eq_f2]

end

/-! The low nibble of the first halfword of a long instruction (R114). -/

section

variable {a : BitVec 4} {d : Fin 8} {w k : Fin 4}

theorem nibble_reg : a = (0 : BitVec 1) ++ f3 d ↔ a.getLsbD 3 = false ∧ reg3 a 0 = d := by
  refine (eq_append_iff 1 3).trans ?_
  simp only [extractLsb'_eq_zero, extractLsb'_eq_f3]

theorem nibble_pair : a = (0 : BitVec 1) ++ fw w ↔ a.getLsbD 3 = false ∧ pair3 a 0 = some w := by
  refine (eq_append_iff 1 3).trans ?_
  simp only [extractLsb'_eq_zero, extractLsb'_eq_fw]

theorem nibble_ptr {o : BitVec 2} : a = o ++ f2 k ↔ a.extractLsb' 2 2 = o ∧ ptr2 a 0 = k := by
  refine (eq_append_iff 2 2).trans ?_
  simp only [extractLsb'_eq_f2]

theorem nibble_sel {s : PSel} :
    a = (0 : BitVec 1) ++ selCode s ↔ a.getLsbD 3 = false ∧ selOf (a.extractLsb' 0 3) = some s := by
  refine (eq_append_iff 1 3).trans ?_
  simp only [extractLsb'_eq_zero, eq_selCode]

/-- The top bit of an absolute address is in the nibble of the register, the others are the second halfword. -/
theorem nibble_addr_reg {A : BitVec 17} {h : Half} :
    (a = A.extractLsb' 16 1 ++ f3 d ∧ h = A.extractLsb' 0 16) ↔ reg3 a 0 = d ∧ a.extractLsb' 3 1 ++ h = A := by
  rw [(eq_append_iff 1 3 : a = _ ++ f3 d ↔ _), extractLsb'_eq_f3, eq_comm (b := A), (eq_append_iff 1 16 : A = _ ++ h ↔ _)]
  tauto

end

section

variable {a : BitVec 4} {h : Half} {d : Fin 8} {w k : Fin 4}

theorem nibble_addr_pair {A : BitVec 17} :
    (a = A.extractLsb' 16 1 ++ fw w ∧ h = A.extractLsb' 0 16) ↔ pair3 a 0 = some w ∧ a.extractLsb' 3 1 ++ h = A := by
  rw [(eq_append_iff 1 3 : a = _ ++ fw w ↔ _), extractLsb'_eq_fw, eq_comm (b := A), (eq_append_iff 1 16 : A = _ ++ h ↔ _)]
  tauto

theorem nibble_lea {A : BitVec 18} :
    (a = A.extractLsb' 16 2 ++ f2 k ∧ h = A.extractLsb' 0 16) ↔ ptr2 a 0 = k ∧ a.extractLsb' 2 2 ++ h = A := by
  rw [nibble_ptr, eq_comm (b := A), (eq_append_iff 2 16 : A = _ ++ h ↔ _)]
  tauto

theorem nibble_far {A : BitVec 20} : (a = A.extractLsb' 16 4 ∧ h = A.extractLsb' 0 16) ↔ a ++ h = A := by
  rw [eq_comm (b := A), (eq_append_iff 4 16 : A = _ ++ h ↔ _), eq_comm, eq_comm (a := h)]

end

/-! The second halfword of a long instruction (R114). -/

section

variable {h : Half} {x y : Fin 8} {v w k q : Fin 4} {b : Bool} {i : Byte}

theorem second_byte {o : BitVec 8} : h = o ++ i ↔ h.extractLsb' 8 8 = o ∧ h.extractLsb' 0 8 = i := eq_append_iff 8 8

/-- The high byte of an immediate form: five bits 0 and the number of the operation. -/
theorem second_op_byte {o : BitVec 8} :
    h = o ++ i ↔ h.extractLsb' 11 5 = o.extractLsb' 3 5 ∧ h.extractLsb' 8 3 = o.extractLsb' 0 3 ∧ h.extractLsb' 0 8 = i := by
  rw [second_byte, eq_iff_extractLsb' 5 3, extractLsb'_extractLsb' h (by decide), extractLsb'_extractLsb' h (by decide),
    and_assoc]

/-- Above the pair of a 16-bit operation are nine bits 0, the number of the operation and a bit 0. -/
theorem second_op_pair {o : BitVec 13} : h = o ++ fw w ↔ h.extractLsb' 7 9 = o.extractLsb' 4 9 ∧
    h.extractLsb' 4 3 = o.extractLsb' 1 3 ∧ h.extractLsb' 3 1 = o.extractLsb' 0 1 ∧ pair3 h 0 = some w := by
  rw [(eq_append_iff 13 3 : h = o ++ fw w ↔ _), extractLsb'_eq_fw, eq_iff_extractLsb' 9 4,
    eq_iff_extractLsb' 3 1 (x := BitVec.extractLsb' 0 4 _)]
  simp only [extractLsb'_extractLsb', Nat.reduceAdd, Nat.reduceLeDiff, and_assoc]

theorem second_regs : h = (0 : BitVec 10) ++ f3 x ++ f3 y ↔ h.extractLsb' 6 10 = 0 ∧ reg3 h 3 = x ∧ reg3 h 0 = y := by
  refine (eq_append_iff (10 + 3) 3).trans ?_
  simp only [extractLsb'_eq_append_iff, extractLsb'_eq_f3, and_assoc]

theorem second_sel {sc : Cond} : h = condCode sc ++ (0 : BitVec 6) ++ f3 x ++ f3 y ↔
    condOf (h.extractLsb' 12 4) = sc ∧ h.extractLsb' 6 6 = 0 ∧ reg3 h 3 = x ∧ reg3 h 0 = y := by
  refine (eq_append_iff (4 + 6 + 3) 3).trans ?_
  simp only [extractLsb'_eq_append_iff, eq_condCode, extractLsb'_eq_f3, and_assoc]

theorem second_selw {sc : Cond} : h = condCode sc ++ (0 : BitVec 6) ++ fw v ++ fw w ↔
    condOf (h.extractLsb' 12 4) = sc ∧ h.extractLsb' 6 6 = 0 ∧ pair3 h 3 = some v ∧ pair3 h 0 = some w := by
  refine (eq_append_iff (4 + 6 + 3) 3).trans ?_
  simp only [extractLsb'_eq_append_iff, eq_condCode, extractLsb'_eq_fw, and_assoc]

theorem second_bit : h = (0 : BitVec 15) ++ BitVec.ofBool b ↔ h.extractLsb' 1 15 = 0 ∧ h.getLsbD 0 = b := by
  refine (eq_append_iff 15 1).trans ?_
  simp only [extractLsb'_eq_ofBool]

theorem second_ptr {u : BitVec 14} : h = f2 k ++ u ↔ ptr2 h 14 = k ∧ h.extractLsb' 0 14 = u := by
  refine (eq_append_iff 2 14).trans ?_
  simp only [extractLsb'_eq_f2]

theorem second_ptr_reg :
    h = f2 k ++ (0 : BitVec 11) ++ f3 x ↔ ptr2 h 14 = k ∧ h.extractLsb' 3 11 = 0 ∧ reg3 h 0 = x := by
  refine (eq_append_iff (2 + 11) 3).trans ?_
  simp only [extractLsb'_eq_append_iff, extractLsb'_eq_f2, extractLsb'_eq_f3, and_assoc]

theorem second_padd : h = (0 : BitVec 12) ++ BitVec.ofBool b ++ fw w ↔
    h.extractLsb' 4 12 = 0 ∧ h.getLsbD 3 = b ∧ pair3 h 0 = some w := by
  refine (eq_append_iff (12 + 1) 3).trans ?_
  simp only [extractLsb'_eq_append_iff, extractLsb'_eq_ofBool, extractLsb'_eq_fw, and_assoc]

theorem second_psel {s : PSel} :
    h = (0 : BitVec 13) ++ selCode s ↔ h.extractLsb' 3 13 = 0 ∧ selOf (h.extractLsb' 0 3) = some s := by
  refine (eq_append_iff 13 3).trans ?_
  simp only [eq_selCode]

theorem second_byteNo {n : Fin 3} : h = (0 : BitVec 10) ++ BitVec.ofNat 2 n.val ++ (0 : BitVec 2) ++ f2 k ↔
    h.extractLsb' 6 10 = 0 ∧ byteNo (h.extractLsb' 4 2) = some n ∧ h.extractLsb' 2 2 = 0 ∧ ptr2 h 0 = k := by
  refine (eq_append_iff (10 + 2 + 2) 2).trans ?_
  simp only [extractLsb'_eq_append_iff, eq_byteNo, extractLsb'_eq_f2, and_assoc]

theorem second_string : h = (0 : BitVec 11) ++ BitVec.ofBool b ++ f2 q ++ f2 k ↔
    h.extractLsb' 5 11 = 0 ∧ h.getLsbD 4 = b ∧ ptr2 h 2 = q ∧ ptr2 h 0 = k := by
  refine (eq_append_iff (11 + 1 + 2) 2).trans ?_
  simp only [extractLsb'_eq_append_iff, extractLsb'_eq_ofBool, extractLsb'_eq_f2, and_assoc]

end

/-! The first halfword (R108, R112). -/

section

variable {h : Half} {cc : Cond} {x : Byte} {a : BitVec 4}

/-- The condition of a short instruction has three bits. -/
theorem eq_condCode_short {c : BitVec 3} (hcc : (condCode cc).getLsbD 3 = false) :
    c = (condCode cc).extractLsb' 0 3 ↔ condOf ((0 : BitVec 1) ++ c) = cc := by
  rw [← eq_condCode]
  generalize condCode cc = y at hcc
  decide +revert

theorem eq_shortHalf {m : BitVec 4} (hcc : (condCode cc).getLsbD 3 = false) : h = shortHalf cc m x ↔
    h.getLsbD 15 = false ∧ condOf ((0 : BitVec 1) ++ h.extractLsb' 12 3) = cc ∧ h.extractLsb' 8 4 = m ∧
      h.extractLsb' 0 8 = x := by
  refine (eq_append_iff (1 + 3 + 4) 8).trans ?_
  simp only [extractLsb'_eq_append_iff, extractLsb'_eq_zero, eq_condCode_short hcc, and_assoc]

theorem eq_longHalf {m : BitVec 7} : h = longHalf cc m a ↔
    h.getLsbD 15 = true ∧ condOf (h.extractLsb' 11 4) = cc ∧ h.extractLsb' 4 7 = m ∧ h.extractLsb' 0 4 = a := by
  refine (eq_append_iff (1 + 4 + 7) 4).trans ?_
  simp only [extractLsb'_eq_append_iff, extractLsb'_eq_one, eq_condCode, and_assoc]

end

end Sys2Proof.Machine
end

section
/-! PROOF. The decoder and the encoder undo each other (R108 to R115). Each row of the tables is used twice: its fields
give the instruction, and the instruction gives its fields. -/

namespace Sys2Proof.Machine

-- One proof at a time: each thread of Lean keeps a stack of its own, and the whole text is near the memory limit.
set_option Elab.async false

variable {t : Tn} {cc : Cond} {i : Instr} {h h0 h1 : Half}

/-! From the encoding to the decoder. -/

theorem decodeShort_of_encodeShort {m : BitVec 4} {x : Byte}
    (hc : condOf ((0 : BitVec 1) ++ h.extractLsb' 12 3) = cc) (hm : h.extractLsb' 8 4 = m) (hx : h.extractLsb' 0 8 = x)
    (ht : cpuTenant i = some t) (hi : encodeShort i = some (cc, m, x)) : decodeShort t h = some i := by
  cases i with cases ht
  | nop | wait | fence | ret | rtt | ei | di | dajA | dajS | pushf | popf | clc | sec | cmc =>
    cases hi
    simp only [decodeShort, hc, hm, hx]
    rfl
  | mov | exg | add | adc | sub | sbc | and | or | xor | cmp =>
    cases hi
    obtain ⟨ho, hd, hg⟩ := operand_regs.1 hx
    simp only [decodeShort, hc, hm, ho, hd, hg]
    rfl
  | movw =>
    cases hi
    obtain ⟨ho, hv, hw⟩ := operand_pairs.1 hx
    simp only [decodeShort, hc, hm, ho, hv, hw]
    rfl
  | inc | dec | neg | not | shl | shr | asr | rol | ror | clr | tst | swapn | push | pop =>
    cases hi
    obtain ⟨ho, hg⟩ := operand_reg.1 hx
    simp only [decodeShort, decodeUnary, hc, hm, ho, hg]
    rfl
  | incw | decw | pushw | popw | ext =>
    cases hi
    obtain ⟨ho, hw⟩ := operand_pair.1 hx
    simp only [decodeShort, decodeUnary, hc, hm, ho, hw]
    rfl
  | pushp | popp =>
    cases hi
    obtain ⟨ho, hz, hk⟩ := operand_ptr.1 hx
    simp only [decodeShort, decodeUnary, hc, hm, ho, hz, hk]
    rfl
  | ld _ _ _ p | st _ _ _ p =>
    cases p with
    | long => cases hi
    | short =>
      cases hi
      obtain ⟨ho, hd, hk, hb⟩ := operand_reg_ptr.1 hx
      simp only [decodeShort, hc, hm, ho, hd, hk, hb]
      rfl
  | ldw _ _ _ p | stw _ _ _ p =>
    cases p with
    | long => cases hi
    | short =>
      cases hi
      obtain ⟨ho, hw, hk, hb⟩ := operand_pair_ptr.1 hx
      simp only [decodeShort, hc, hm, ho, hw, hk, hb]
      rfl
  | bra =>
    cases hi
    simp only [decodeShort, hc, hm, hx]
    rfl
  | call _ _ f =>
    cases f with
    | rel20 | ptr => cases hi
    | rel8 =>
      cases hi
      simp only [decodeShort, hc, hm, hx]
      rfl
  | ldi _ _ f | cmpi _ _ f | addi _ _ f | andi _ _ f =>
    cases f with
    | long => cases hi
    | short =>
      cases hi
      simp only [decodeShort, hc, hm, hx]
      rfl
  | adj =>
    cases hi
    obtain ⟨hk, hu⟩ := operand_adj.1 hx
    simp only [decodeShort, hc, hm, hk, hu]
    rfl
  | lds | sts =>
    cases hi
    obtain ⟨hu, hg⟩ := operand_reg.1 hx
    simp only [decodeShort, hc, hm, hu, hg]
    rfl
  | _ => cases hi

theorem decodeLong_of_encodeLong {m : BitVec 7} {a : BitVec 4}
    (hc : condOf (h0.extractLsb' 11 4) = cc) (hm : h0.extractLsb' 4 7 = m) (ha : h0.extractLsb' 0 4 = a)
    (ht : cpuTenant i = some t) (hi : encodeLong i = some (cc, m, a, h)) (hh : h1 = h) : decodeLong t h0 h1 = some i := by
  cases i with cases ht
  | ldi _ _ f =>
    cases f with
    | short => cases hi
    | long =>
      cases hi
      obtain ⟨hz, hd⟩ := nibble_reg.1 ha
      obtain ⟨ho, hi8⟩ := second_byte.1 hh
      simp only [decodeLong, decodeLongData, hc, hm, hz, hd, ho, hi8]
      rfl
  | ldiw | addiw | cmpiw =>
    cases hi
    obtain ⟨hz, hw⟩ := nibble_pair.1 ha
    simp only [decodeLong, decodeLongData, hc, hm, hz, hw, hh]
    rfl
  | addi _ _ f | andi _ _ f | cmpi _ _ f =>
    cases f with
    | short => cases hi
    | long =>
      cases hi
      obtain ⟨hz, hd⟩ := nibble_reg.1 ha
      obtain ⟨hz', ho, hi8⟩ := second_op_byte.1 hh
      simp only [decodeLong, decodeLongData, hc, hm, hz, hd, hz', ho, hi8]
      rfl
  | adci | subi | sbci | ori | xori =>
    cases hi
    obtain ⟨hz, hd⟩ := nibble_reg.1 ha
    obtain ⟨hz', ho, hi8⟩ := second_op_byte.1 hh
    simp only [decodeLong, decodeLongData, hc, hm, hz, hd, hz', ho, hi8]
    rfl
  | addw | adcw | subw | sbcw | cmpw =>
    cases hi
    obtain ⟨hz, hv⟩ := nibble_pair.1 ha
    obtain ⟨hhi, ho, hlo, hw⟩ := second_op_pair.1 hh
    simp only [decodeLong, decodeLongData, hc, hm, hz, hv, hhi, ho, hlo, hw]
    rfl
  | mul =>
    cases hi
    obtain ⟨hz, hw⟩ := nibble_pair.1 ha
    obtain ⟨hz', hx, hy⟩ := second_regs.1 hh
    simp only [decodeLong, decodeLongData, hc, hm, hz, hw, hz', hx, hy]
    rfl
  | sel =>
    cases hi
    obtain ⟨hz, hd⟩ := nibble_reg.1 ha
    obtain ⟨hsc, hz', hx, hy⟩ := second_sel.1 hh
    simp only [decodeLong, decodeLongData, hc, hm, hz, hd, hsc, hz', hx, hy]
    rfl
  | selw =>
    cases hi
    obtain ⟨hz, hw⟩ := nibble_pair.1 ha
    obtain ⟨hsc, hz', hx, hy⟩ := second_selw.1 hh
    simp only [decodeLong, decodeLongData, hc, hm, hz, hw, hsc, hz', hx, hy]
    rfl
  | cnvbD =>
    cases hi
    obtain ⟨hz, hw⟩ := nibble_pair.1 ha
    obtain ⟨hz', hb⟩ := (second_bit (b := false)).1 hh
    simp only [decodeLong, decodeLongData, hc, hm, hz, hw, hz', hb]
    rfl
  | cnvbB =>
    cases hi
    obtain ⟨hz, hw⟩ := nibble_pair.1 ha
    obtain ⟨hz', hb⟩ := (second_bit (b := true)).1 hh
    simp only [decodeLong, decodeLongData, hc, hm, hz, hw, hz', hb]
    rfl
  | ld _ _ _ p | st _ _ _ p =>
    cases p with
    | short => cases hi
    | long =>
      cases hi
      obtain ⟨hz, hd⟩ := nibble_reg.1 ha
      obtain ⟨hk, hu⟩ := second_ptr.1 hh
      simp only [decodeLong, decodeLongPtr, hc, hm, hz, hd, hk, hu]
      rfl
  | ldw _ _ _ p | stw _ _ _ p =>
    cases p with
    | short => cases hi
    | long =>
      cases hi
      obtain ⟨hz, hw⟩ := nibble_pair.1 ha
      obtain ⟨hk, hu⟩ := second_ptr.1 hh
      simp only [decodeLong, decodeLongPtr, hc, hm, hz, hw, hk, hu]
      rfl
  | lda | sta =>
    cases hi
    obtain ⟨hd, hA⟩ := nibble_addr_reg.1 ⟨ha, hh⟩
    simp only [decodeLong, decodeLongPtr, hc, hm, hd, hA]
    rfl
  | ldaw | staw =>
    cases hi
    obtain ⟨hw, hA⟩ := nibble_addr_pair.1 ⟨ha, hh⟩
    simp only [decodeLong, decodeLongPtr, hc, hm, hw, hA]
    rfl
  | ldx | stx =>
    cases hi
    obtain ⟨hz, hd⟩ := nibble_reg.1 ha
    obtain ⟨hk, hz', hx⟩ := second_ptr_reg.1 hh
    simp only [decodeLong, decodeLongPtr, hc, hm, hz, hd, hk, hz', hx]
    rfl
  | ldp | stp =>
    cases hi
    obtain ⟨hz, hk⟩ := nibble_ptr.1 ha
    obtain ⟨hq, hu⟩ := second_ptr.1 hh
    simp only [decodeLong, decodeLongPtr, hc, hm, hz, hk, hq, hu]
    rfl
  | ldpi =>
    cases hi
    obtain ⟨hz, hk⟩ := nibble_ptr.1 ha
    simp only [decodeLong, decodeLongPtr, hc, hm, hz, hk, hh]
    rfl
  | ldph =>
    cases hi
    obtain ⟨hz, hk⟩ := nibble_ptr.1 ha
    obtain ⟨hz', hi8⟩ := second_byte.1 hh
    simp only [decodeLong, decodeLongPtr, hc, hm, hz, hk, hz', hi8]
    rfl
  | lea =>
    cases hi
    obtain ⟨hk, hA⟩ := nibble_lea.1 ⟨ha, hh⟩
    simp only [decodeLong, decodeLongPtr, hc, hm, hk, hA]
    rfl
  | padd =>
    cases hi
    obtain ⟨hz, hk⟩ := nibble_ptr.1 ha
    obtain ⟨hz', hb, hw⟩ := second_padd.1 hh
    simp only [decodeLong, decodeLongPtr, hc, hm, hz, hk, hz', hb, hw]
    rfl
  | movp =>
    cases hi
    obtain ⟨hz, hd⟩ := nibble_sel.1 ha
    obtain ⟨hz', hx⟩ := second_psel.1 hh
    simp only [decodeLong, decodeLongPtr, hc, hm, hz, hd, hz', hx]
    rfl
  | adjsp =>
    cases hi
    simp only [decodeLong, decodeLongPtr, hc, hm, ha, hh]
    rfl
  | movgp | movpg =>
    cases hi
    obtain ⟨hz, hd⟩ := nibble_reg.1 ha
    obtain ⟨hhi, hn, hmid, hk⟩ := second_byteNo.1 hh
    simp only [decodeLong, decodeLongPtr, hc, hm, hz, hd, hhi, hn, hmid, hk]
    rfl
  | brl =>
    cases hi
    simp only [decodeLong, decodeLongControl, hc, hm, nibble_far.1 ⟨ha, hh⟩]
    rfl
  | call _ _ f =>
    cases f with
    | rel8 => cases hi
    | rel20 =>
      cases hi
      simp only [decodeLong, decodeLongControl, hc, hm, nibble_far.1 ⟨ha, hh⟩]
      rfl
    | ptr =>
      cases hi
      obtain ⟨hz, hk⟩ := nibble_ptr.1 ha
      simp only [decodeLong, decodeLongControl, hc, hm, hz, hk, hh]
      rfl
  | jmp =>
    cases hi
    obtain ⟨hz, hk⟩ := nibble_ptr.1 ha
    simp only [decodeLong, decodeLongControl, hc, hm, hz, hk, hh]
    rfl
  | dbnz =>
    cases hi
    obtain ⟨hz, hd⟩ := nibble_reg.1 ha
    simp only [decodeLong, decodeLongControl, hc, hm, hz, hd, hh]
    rfl
  | addp | subp | cmpp =>
    cases hi
    obtain ⟨hz, hb, hq, hk⟩ := second_string.1 hh
    simp only [decodeLong, decodeLongControl, hc, hm, ha, hz, hb, hq, hk]
    rfl
  | _ => cases hi

/-! From the decoder to the encoding. -/

theorem onlyIf_eq_some {b : Bool} {j : Instr} : onlyIf b j = some i ↔ b = true ∧ j = i := by
  cases b <;> simp [onlyIf]

theorem eq_ofNat {w n : Nat} {x : BitVec w} (hx : x.toNat = n) : x = BitVec.ofNat w n := by
  rw [← hx, BitVec.ofNat_toNat, BitVec.setWidth_eq]

/-- A two-bit field has four values. -/
theorem twoBits_cases (o : BitVec 2) : o = 0 ∨ o = 1 ∨ o = 2 ∨ o = 3 := by
  decide +revert

/-- A three-bit field has eight values. -/
theorem threeBits_cases (o : BitVec 3) : o = 0 ∨ o = 1 ∨ o = 2 ∨ o = 3 ∨ o = 4 ∨ o = 5 ∨ o = 6 ∨ o = 7 := by
  decide +revert

/-- What a short row of the table makes of its fields. -/
theorem short_row {m m' : BitVec 4} {x y : Byte} (hm : m' = m) (hx : x = y) : some (cc, m, y) = some (cc, m', x) := by
  rw [hm, hx]

theorem encodeShort_of_decodeSystem {x : Byte} (hi : decodeSystem t cc x = some i) :
    cpuTenant i = some t ∧ encodeShort i = some (cc, 0, x) := by
  unfold decodeSystem at hi
  split at hi <;> cases hi
  all_goals next hx => exact ⟨rfl, short_row rfl (eq_ofNat hx)⟩

theorem encodeShort_of_decodeUnary {x : Byte} (hi : decodeUnary t cc x = some i) :
    cpuTenant i = some t ∧ encodeShort i = some (cc, 4, x) := by
  unfold decodeUnary at hi
  split at hi
  -- INC to POP
  case h_1 ho | h_2 ho | h_3 ho | h_4 ho | h_5 ho | h_6 ho | h_7 ho | h_8 ho | h_9 ho | h_10 ho | h_11 ho | h_12 ho
    | h_13 ho | h_14 ho =>
    cases hi
    exact ⟨rfl, short_row rfl (operand_reg.2 ⟨eq_ofNat ho, rfl⟩)⟩
  -- INCW to EXT
  case h_15 ho | h_16 ho | h_17 ho | h_18 ho | h_19 ho =>
    obtain ⟨w, hw, rfl⟩ := Option.map_eq_some_iff.1 hi
    exact ⟨rfl, short_row rfl (operand_pair.2 ⟨eq_ofNat ho, hw⟩)⟩
  -- PUSHP and POPP
  case h_20 ho | h_21 ho =>
    obtain ⟨hz, rfl⟩ := onlyIf_eq_some.1 hi
    exact ⟨rfl, short_row rfl (operand_ptr.2 ⟨eq_ofNat ho, (Bool.not_eq_true' _).mp hz, rfl⟩)⟩
  case h_22 => cases hi

theorem encodeShort_of_decodeShort (hi : decodeShort t h = some i) : cpuTenant i = some t ∧
    encodeShort i = some (condOf ((0 : BitVec 1) ++ h.extractLsb' 12 3), h.extractLsb' 8 4, h.extractLsb' 0 8) := by
  simp only [decodeShort] at hi
  generalize condOf ((0 : BitVec 1) ++ h.extractLsb' 12 3) = cc at hi ⊢
  generalize BitVec.extractLsb' 8 4 h = m at hi ⊢
  generalize BitVec.extractLsb' 0 8 h = x at hi ⊢
  split at hi
  -- The system group
  case h_1 hm =>
    obtain ⟨ht, hi⟩ := encodeShort_of_decodeSystem hi
    exact ⟨ht, hi.trans (short_row (eq_ofNat hm) rfl)⟩
  -- MOV, MOVW and EXG
  case h_2 hm =>
    split at hi
    case h_1 ho | h_3 ho =>
      cases hi
      exact ⟨rfl, short_row (eq_ofNat hm) (operand_regs.2 ⟨eq_ofNat ho, rfl, rfl⟩)⟩
    case h_2 ho =>
      obtain ⟨v, hv, hi⟩ := Option.bind_eq_some_iff.1 hi
      obtain ⟨w, hw, rfl⟩ := Option.map_eq_some_iff.1 hi
      exact ⟨rfl, short_row (eq_ofNat hm) (operand_pairs.2 ⟨eq_ofNat ho, hv, hw⟩)⟩
    case h_4 => cases hi
  -- Arithmetic and logic
  case h_3 hm | h_4 hm =>
    rcases twoBits_cases (x.extractLsb' 6 2) with ho | ho | ho | ho <;> simp only [ho] at hi <;> cases hi <;>
      exact ⟨rfl, short_row (eq_ofNat hm) (operand_regs.2 ⟨ho, rfl, rfl⟩)⟩
  -- The unary group
  case h_5 hm =>
    obtain ⟨ht, hi⟩ := encodeShort_of_decodeUnary hi
    exact ⟨ht, hi.trans (short_row (eq_ofNat hm) rfl)⟩
  -- LD, ST, LDW and STW
  case h_6 hm =>
    rcases twoBits_cases (x.extractLsb' 6 2) with ho | ho | ho | ho <;> simp only [ho] at hi
    · cases hi
      exact ⟨rfl, short_row (eq_ofNat hm) (operand_reg_ptr.2 ⟨ho, rfl, rfl, rfl⟩)⟩
    · cases hi
      exact ⟨rfl, short_row (eq_ofNat hm) (operand_reg_ptr.2 ⟨ho, rfl, rfl, rfl⟩)⟩
    · obtain ⟨w, hw, rfl⟩ := Option.map_eq_some_iff.1 hi
      exact ⟨rfl, short_row (eq_ofNat hm) (operand_pair_ptr.2 ⟨ho, hw, rfl, rfl⟩)⟩
    · obtain ⟨w, hw, rfl⟩ := Option.map_eq_some_iff.1 hi
      exact ⟨rfl, short_row (eq_ofNat hm) (operand_pair_ptr.2 ⟨ho, hw, rfl, rfl⟩)⟩
  -- BRA, CALL and the immediate forms
  case h_7 hm | h_8 hm | h_9 hm | h_10 hm | h_11 hm | h_12 hm =>
    cases hi
    exact ⟨rfl, short_row (eq_ofNat hm) rfl⟩
  -- ADJ
  case h_13 hm =>
    cases hi
    exact ⟨rfl, short_row (eq_ofNat hm) (operand_adj.2 ⟨rfl, rfl⟩)⟩
  -- LDS and STS
  case h_14 hm | h_15 hm =>
    cases hi
    exact ⟨rfl, short_row (eq_ofNat hm) (operand_reg.2 ⟨rfl, rfl⟩)⟩
  case h_16 => cases hi

/-- What a long row of the table makes of its fields. -/
theorem long_row {m m' : BitVec 7} {a b : BitVec 4} {g : Half} (hm : m' = m) (ha : a = b) (hh : h = g) :
    some (cc, m, b, g) = some (cc, m', a, h) := by
  rw [hm, ha, hh]

theorem encodeLong_of_decodeLongData {m : BitVec 7} {a : BitVec 4} (hi : decodeLongData t cc m.toNat a h = some i) :
    cpuTenant i = some t ∧ encodeShort i = none ∧ encodeLong i = some (cc, m, a, h) := by
  unfold decodeLongData at hi
  split at hi <;> simp only [Option.bind_eq_some_iff, onlyIf_eq_some, Bool.and_eq_true, Bool.not_eq_true', beq_iff_eq,
    Option.ite_none_right_eq_some, reduceCtorEq] at hi
  -- LDI
  case h_1 hm =>
    obtain ⟨⟨hz, hz'⟩, rfl⟩ := hi
    exact ⟨rfl, rfl, long_row (eq_ofNat hm) (nibble_reg.2 ⟨hz, rfl⟩) (second_byte.2 ⟨hz', rfl⟩)⟩
  -- LDIW, ADDIW and CMPIW
  case h_2 hm | h_5 hm | h_6 hm =>
    obtain ⟨w, hw, hz, rfl⟩ := hi
    exact ⟨rfl, rfl, long_row (eq_ofNat hm) (nibble_pair.2 ⟨hz, hw⟩) rfl⟩
  -- The other immediate forms
  case h_3 hm =>
    obtain ⟨⟨hz, hz'⟩, hi⟩ := hi
    rcases threeBits_cases (h.extractLsb' 8 3) with ho | ho | ho | ho | ho | ho | ho | ho <;>
      simp only [ho] at hi <;> cases hi <;>
      exact ⟨rfl, rfl, long_row (eq_ofNat hm) (nibble_reg.2 ⟨hz, rfl⟩) (second_op_byte.2 ⟨hz', ho, rfl⟩)⟩
  -- Arithmetic of pairs
  case h_4 hm =>
    obtain ⟨v, hv, w, hw, ⟨⟨hz, hlo⟩, hhi⟩, hi⟩ := hi
    split at hi <;> cases hi
    all_goals
      next ho =>
        exact ⟨rfl, rfl, long_row (eq_ofNat hm) (nibble_pair.2 ⟨hz, hv⟩) (second_op_pair.2 ⟨hhi, eq_ofNat ho, hlo, hw⟩)⟩
  -- MUL
  case h_7 hm =>
    obtain ⟨w, hw, ⟨hz, hz'⟩, rfl⟩ := hi
    exact ⟨rfl, rfl, long_row (eq_ofNat hm) (nibble_pair.2 ⟨hz, hw⟩) (second_regs.2 ⟨hz', rfl, rfl⟩)⟩
  -- SEL
  case h_8 hm =>
    obtain ⟨⟨hz, hz'⟩, rfl⟩ := hi
    exact ⟨rfl, rfl, long_row (eq_ofNat hm) (nibble_reg.2 ⟨hz, rfl⟩) (second_sel.2 ⟨rfl, hz', rfl, rfl⟩)⟩
  -- SELW
  case h_9 hm =>
    obtain ⟨d, hd, x, hx, y, hy, ⟨hz, hz'⟩, rfl⟩ := hi
    exact ⟨rfl, rfl, long_row (eq_ofNat hm) (nibble_pair.2 ⟨hz, hd⟩) (second_selw.2 ⟨rfl, hz', hx, hy⟩)⟩
  -- CNVB
  case h_10 hm =>
    obtain ⟨w, hw, ⟨hz, hz'⟩, rfl⟩ := hi
    cases hb : h.getLsbD 0 <;>
      exact ⟨rfl, rfl, long_row (eq_ofNat hm) (nibble_pair.2 ⟨hz, hw⟩) (second_bit.2 ⟨hz', hb⟩)⟩

theorem encodeLong_of_decodeLongPtr {m : BitVec 7} {a : BitVec 4} (hi : decodeLongPtr t cc m.toNat a h = some i) :
    cpuTenant i = some t ∧ encodeShort i = none ∧ encodeLong i = some (cc, m, a, h) := by
  unfold decodeLongPtr at hi
  split at hi <;> simp only [Option.bind_eq_some_iff, Option.map_eq_some_iff, onlyIf_eq_some, Bool.and_eq_true,
    Bool.not_eq_true', beq_iff_eq, Option.some.injEq, reduceCtorEq] at hi
  -- LD and ST
  case h_1 hm | h_2 hm =>
    obtain ⟨hz, rfl⟩ := hi
    exact ⟨rfl, rfl, long_row (eq_ofNat hm) (nibble_reg.2 ⟨hz, rfl⟩) (second_ptr.2 ⟨rfl, rfl⟩)⟩
  -- LDW and STW
  case h_3 hm | h_4 hm =>
    obtain ⟨w, hw, hz, rfl⟩ := hi
    exact ⟨rfl, rfl, long_row (eq_ofNat hm) (nibble_pair.2 ⟨hz, hw⟩) (second_ptr.2 ⟨rfl, rfl⟩)⟩
  -- LDA and STA
  case h_5 hm | h_6 hm =>
    cases hi
    obtain ⟨ha, hh⟩ := nibble_addr_reg.2 ⟨rfl, rfl⟩
    exact ⟨rfl, rfl, long_row (eq_ofNat hm) ha hh⟩
  -- LDAW and STAW
  case h_7 hm | h_8 hm =>
    obtain ⟨w, hw, rfl⟩ := hi
    obtain ⟨ha, hh⟩ := nibble_addr_pair.2 ⟨hw, rfl⟩
    exact ⟨rfl, rfl, long_row (eq_ofNat hm) ha hh⟩
  -- LDX and STX
  case h_9 hm | h_10 hm =>
    obtain ⟨⟨hz, hz'⟩, rfl⟩ := hi
    exact ⟨rfl, rfl, long_row (eq_ofNat hm) (nibble_reg.2 ⟨hz, rfl⟩) (second_ptr_reg.2 ⟨rfl, hz', rfl⟩)⟩
  -- LDP and STP
  case h_11 hm | h_12 hm =>
    obtain ⟨hz, rfl⟩ := hi
    exact ⟨rfl, rfl, long_row (eq_ofNat hm) (nibble_ptr.2 ⟨hz, rfl⟩) (second_ptr.2 ⟨rfl, rfl⟩)⟩
  -- LDPI
  case h_13 hm =>
    obtain ⟨hz, rfl⟩ := hi
    exact ⟨rfl, rfl, long_row (eq_ofNat hm) (nibble_ptr.2 ⟨hz, rfl⟩) rfl⟩
  -- LDPH
  case h_14 hm =>
    obtain ⟨⟨hz, hz'⟩, rfl⟩ := hi
    exact ⟨rfl, rfl, long_row (eq_ofNat hm) (nibble_ptr.2 ⟨hz, rfl⟩) (second_byte.2 ⟨hz', rfl⟩)⟩
  -- LEA
  case h_15 hm =>
    cases hi
    obtain ⟨ha, hh⟩ := nibble_lea.2 ⟨rfl, rfl⟩
    exact ⟨rfl, rfl, long_row (eq_ofNat hm) ha hh⟩
  -- PADD
  case h_16 hm =>
    obtain ⟨w, hw, ⟨hz, hz'⟩, rfl⟩ := hi
    exact ⟨rfl, rfl, long_row (eq_ofNat hm) (nibble_ptr.2 ⟨hz, rfl⟩) (second_padd.2 ⟨hz', rfl, hw⟩)⟩
  -- MOVP
  case h_17 hm =>
    obtain ⟨d, hd, x, hx, ⟨hz, hz'⟩, rfl⟩ := hi
    exact ⟨rfl, rfl, long_row (eq_ofNat hm) (nibble_sel.2 ⟨hz, hd⟩) (second_psel.2 ⟨hz', hx⟩)⟩
  -- ADJSP
  case h_18 hm =>
    obtain ⟨ha, rfl⟩ := hi
    exact ⟨rfl, rfl, long_row (eq_ofNat hm) ha rfl⟩
  -- MOVGP and MOVPG
  case h_19 hm | h_20 hm =>
    obtain ⟨n, hn, ⟨⟨hz, hmid⟩, hhi⟩, rfl⟩ := hi
    exact ⟨rfl, rfl, long_row (eq_ofNat hm) (nibble_reg.2 ⟨hz, rfl⟩) (second_byteNo.2 ⟨hhi, hn, hmid, rfl⟩)⟩

theorem encodeLong_of_decodeLongControl {m : BitVec 7} {a : BitVec 4}
    (hi : decodeLongControl t cc m.toNat a h = some i) :
    cpuTenant i = some t ∧ encodeShort i = none ∧ encodeLong i = some (cc, m, a, h) := by
  unfold decodeLongControl at hi
  split at hi <;> simp only [onlyIf_eq_some, Bool.and_eq_true, Bool.not_eq_true', beq_iff_eq, Option.some.injEq,
    reduceCtorEq] at hi
  -- BRL and CALL
  case h_1 hm | h_2 hm =>
    cases hi
    obtain ⟨ha, hh⟩ := nibble_far.2 rfl
    exact ⟨rfl, rfl, long_row (eq_ofNat hm) ha hh⟩
  -- JMP and CALL through a pointer
  case h_3 hm | h_4 hm =>
    obtain ⟨⟨hz, hh⟩, rfl⟩ := hi
    exact ⟨rfl, rfl, long_row (eq_ofNat hm) (nibble_ptr.2 ⟨hz, rfl⟩) hh⟩
  -- DBNZ
  case h_5 hm =>
    obtain ⟨hz, rfl⟩ := hi
    exact ⟨rfl, rfl, long_row (eq_ofNat hm) (nibble_reg.2 ⟨hz, rfl⟩) rfl⟩
  -- ADDP, SUBP and CMPP
  case h_6 hm | h_7 hm | h_8 hm =>
    obtain ⟨hz, rfl⟩ := hi
    exact ⟨rfl, rfl, long_row (eq_ofNat hm) rfl (second_string.2 ⟨hz, rfl, rfl, rfl⟩)⟩

theorem encodeLong_of_decodeLong (hi : decodeLong t h0 h1 = some i) : cpuTenant i = some t ∧ encodeShort i = none ∧
    encodeLong i = some (condOf (h0.extractLsb' 11 4), h0.extractLsb' 4 7, h0.extractLsb' 0 4, h1) := by
  simp only [decodeLong] at hi
  split at hi
  · exact encodeLong_of_decodeLongData hi
  · split at hi
    · exact encodeLong_of_decodeLongPtr hi
    · exact encodeLong_of_decodeLongControl hi

/-! Whole halfwords. -/

theorem condCode_short (c : BitVec 3) : (condCode (condOf ((0 : BitVec 1) ++ c))).getLsbD 3 = false := by
  rw [condCode_condOf]
  decide +revert

/-- A well-formed short instruction has a condition of three bits (R112). -/
theorem condCode_of_wf {m : BitVec 4} {x : Byte} (hwf : i.wf = true) (hi : encodeShort i = some (cc, m, x)) :
    (condCode cc).getLsbD 3 = false := by
  simp only [Instr.wf, shortCondOk, hi, Bool.and_eq_true, Bool.not_eq_true'] at hwf
  obtain ⟨⟨⟨hcc, -⟩, -⟩, -⟩ := hwf
  exact hcc

theorem zencode_of_encodeShort {m : BitVec 4} {x : Byte} (hi : encodeShort i = some (cc, m, x))
    (hcc : (condCode cc).getLsbD 3 = false) : zencode i = some (shortHalf cc m x, none) := by
  simp only [zencode, hi, hcc]
  rfl

theorem zencode_of_encodeLong {m : BitVec 7} {a : BitVec 4} (hshort : encodeShort i = none)
    (hlong : encodeLong i = some (cc, m, a, h)) : zencode i = some (longHalf cc m a, some h) := by
  simp only [zencode, hshort, hlong, Option.map_some]

/-- An instruction of a tenant's CPU has a short form or a long one. -/
theorem exists_encoding (hi : cpuTenant i = some t) :
    (∃ cc m x, encodeShort i = some (cc, m, x)) ∨
      (encodeShort i = none ∧ ∃ cc m a h, encodeLong i = some (cc, m, a, h)) := by
  cases i with cases hi
  | ld _ _ _ p | st _ _ _ p | ldw _ _ _ p | stw _ _ _ p =>
    cases p with
    | short => exact .inl ⟨_, _, _, rfl⟩
    | long => exact .inr ⟨rfl, _, _, _, _, rfl⟩
  | call _ _ f =>
    cases f with
    | rel8 => exact .inl ⟨_, _, _, rfl⟩
    | rel20 | ptr => exact .inr ⟨rfl, _, _, _, _, rfl⟩
  | ldi _ _ f | cmpi _ _ f | addi _ _ f | andi _ _ f =>
    cases f with
    | short => exact .inl ⟨_, _, _, rfl⟩
    | long => exact .inr ⟨rfl, _, _, _, _, rfl⟩
  | ldiw | adci | subi | sbci | ori | xori | addw | adcw | subw | sbcw | cmpw | addiw | cmpiw | mul | sel | selw | cnvbD
  | cnvbB | lda | sta | ldaw | staw | ldx | stx | ldp | stp | ldpi | ldph | lea | padd | movp | adjsp | movgp | movpg
  | brl | jmp | dbnz | addp | subp | cmpp => exact .inr ⟨rfl, _, _, _, _, rfl⟩
  | _ => exact .inl ⟨_, _, _, rfl⟩

end Sys2Proof.Machine

open Sys2Proof Sys2Proof.Machine

/-- Settles O14: the fields of the halfword that an instruction is encoded in are what the decoder reads. -/
theorem decodeOfEncode : Obligations.DecodeOfEncode := by
  unfold Obligations.DecodeOfEncode
  intro i k x ht hwf
  rcases exists_encoding ht with ⟨cc, m, b, hi⟩ | ⟨hshort, cc, m, a, h, hlong⟩
  · have hcc := condCode_of_wf hwf hi
    obtain ⟨hbit, hc, hm, hx⟩ := (eq_shortHalf hcc).1 rfl
    refine ⟨_, _, zencode_of_encodeShort hi hcc, hbit, ?_⟩
    rw [zdecode, hbit]
    exact decodeShort_of_encodeShort hc hm hx ht hi
  · obtain ⟨hbit, hc, hm, ha⟩ := eq_longHalf.1 rfl
    refine ⟨_, _, zencode_of_encodeLong hshort hlong, hbit, ?_⟩
    rw [zdecode, hbit]
    exact decodeLong_of_encodeLong hc hm ha ht hlong rfl

/-- Settles O15: what the decoder reads are the fields of the halfword. -/
theorem encodeOfDecode : Obligations.EncodeOfDecode := by
  unfold Obligations.EncodeOfDecode
  intro k h0 h1 i hi
  unfold zdecode at hi
  cases hbit : h0.getLsbD 15 with
  | false =>
    rw [hbit] at hi
    obtain ⟨ht, hi⟩ := encodeShort_of_decodeShort hi
    have hcc := condCode_short (h0.extractLsb' 12 3)
    exact ⟨ht, (eq_shortHalf hcc).2 ⟨hbit, rfl, rfl, rfl⟩ ▸ zencode_of_encodeShort hi hcc⟩
  | true =>
    rw [hbit] at hi
    obtain ⟨ht, hshort, hlong⟩ := encodeLong_of_decodeLong hi
    exact ⟨ht, eq_longHalf.2 ⟨hbit, rfl, rfl, rfl⟩ ▸ zencode_of_encodeLong hshort hlong⟩

/-- Settles O16: the decoder evaluated on the halfwords. -/
theorem sampleWords : Obligations.SampleWords := by
  unfold Obligations.SampleWords
  intro k
  exact ⟨rfl, rfl, rfl, rfl, rfl, rfl, rfl, rfl, rfl, rfl, rfl⟩
end

section
/-! PROOF. Arithmetic, logic and shifts of bytes and pairs (R117, R118): from the result that the model computes to what
the statements say of registers and flags. -/

namespace Sys2Proof.Rule

-- One proof at a time: each thread of Lean keeps a stack of its own, and the whole text is near the memory limit.
set_option Elab.async false

open Sys2Proof.Machine

variable {c c' : Cpu} {w : Nat}

/-! Flags. -/

theorem putBit_getLsbD (f : Byte) {i j : Nat} (v : Option Bool) (hj : j < 8) :
    (putBit f i v).getLsbD j = if j = i then v.getD (f.getLsbD j) else f.getLsbD j := by
  have hone : ((1 : Byte) <<< i).getLsbD j = decide (j = i) := by
    rw [show (1 : Byte) <<< i = BitVec.twoPow 8 i from (BitVec.twoPow_eq ..).symm, BitVec.getLsbD_twoPow]
    by_cases h : j = i
    · simp [← h, hj]
    · simp [h, Ne.symm h]
  match v with
  | none => exact (ite_self _).symm
  | some true =>
    rw [putBit, BitVec.getLsbD_or, hone]
    by_cases h : j = i <;> simp [h]
  | some false =>
    rw [putBit, BitVec.getLsbD_and, BitVec.getLsbD_not, hone]
    by_cases h : j = i <;> simp [h, hj]

theorem flags_of_res {x : Res w} (hf : c'.f = x.flags c.f) : Flags c c' x.c x.z x.n x.v x.h := by
  simp only [Flags, Cpu.fC, Cpu.fZ, Cpu.fN, Cpu.fV, Cpu.fH, Cpu.fI, Cpu.fT, hf, Res.flags]
  simp [-BitVec.getLsbD_eq_getElem, putBit_getLsbD]

/-! Registers take a result, and F its flags. -/

theorem setG_withF (gd : Fin 8) (r f : Byte) : ({ c with f := f }).setG gd r = { c.setG gd r with f := f } := by
  unfold Cpu.setG
  split <;> rfl

theorem setW_withF (wd : Fin 4) (r : Half) (f : Byte) : ({ c with f := f }).setW wd r = { c.setW wd r with f := f } :=
  (congrArg (Cpu.setG · (highG wd) (byteOf r 1)) (setG_withF ..)).trans (setG_withF ..)

/-! Signed overflow. -/

theorem toInt_eq_ite {n : Nat} (a : BitVec (n + 1)) :
    a.toInt = if a.toNat < 2 ^ n then (a.toNat : Int) else a.toNat - 2 * (2 ^ n : Nat) := by
  have h : 2 * a.toNat < 2 ^ (n + 1) ↔ a.toNat < 2 ^ n := by rw [Nat.pow_succ']; omega
  simp only [BitVec.toInt_eq_toNat_cond, h]
  rw [Nat.pow_succ', Nat.cast_mul, Nat.cast_ofNat]

theorem addRes_r (a b : BitVec w) (i : Bool) : (addRes a b i).r = a + b + BitVec.ofNat w i.toNat := by
  apply BitVec.eq_of_toNat_eq
  simp only [addRes, BitVec.toNat_ofNat, BitVec.toNat_add, Nat.add_mod_mod, Nat.mod_add_mod]

theorem addRes_toNat {n : Nat} (a b : BitVec (n + 1)) (i : Bool) : (addRes a b i).r.toNat =
    if a.toNat + b.toNat + i.toNat < 2 * 2 ^ n then a.toNat + b.toNat + i.toNat
    else a.toNat + b.toNat + i.toNat - 2 * 2 ^ n := by
  have ha := a.isLt
  have hb := b.isLt
  have hi := i.toNat_le
  simp only [addRes, BitVec.toNat_ofNat]
  rw [Nat.pow_succ'] at *
  split
  · exact Nat.mod_eq_of_lt ‹_›
  · rw [Nat.mod_eq_sub_mod (by omega), Nat.mod_eq_of_lt (by omega)]

theorem subRes_toNat {n : Nat} (a b : BitVec (n + 1)) (i : Bool) : (subRes a b i).r.toNat =
    if b.toNat + i.toNat ≤ a.toNat then a.toNat - b.toNat - i.toNat
    else 2 * 2 ^ n + a.toNat - b.toNat - i.toNat := by
  have ha := a.isLt
  have hb := b.isLt
  have hi := i.toNat_le
  have hp : 0 < 2 ^ n := Nat.two_pow_pos n
  simp only [subRes, BitVec.toNat_sub, BitVec.toNat_ofNat]
  rw [Nat.pow_succ'] at *
  rw [Nat.mod_eq_of_lt (a := i.toNat) (by omega), Nat.add_mod_mod]
  split
  · rw [show 2 * 2 ^ n - i.toNat + (2 * 2 ^ n - b.toNat + a.toNat) = a.toNat - b.toNat - i.toNat + 2 * 2 ^ n * 2 by omega,
      Nat.add_mul_mod_self_left, Nat.mod_eq_of_lt (by omega)]
  · rw [show 2 * 2 ^ n - i.toNat + (2 * 2 ^ n - b.toNat + a.toNat) = 2 * 2 ^ n + a.toNat - b.toNat - i.toNat + 2 * 2 ^ n * 1
      by omega, Nat.add_mul_mod_self_left, Nat.mod_eq_of_lt (by omega)]

/-- V of a sum: the operands have one sign and the sum has the other. -/
theorem addRes_v (hw : 0 < w) (a b : BitVec w) (i : Bool) : (addRes a b i).v = some (decide
    (a.toInt + b.toInt + i.toNat < -2 ^ (w - 1) ∨ 2 ^ (w - 1) ≤ a.toInt + b.toInt + i.toNat)) := by
  obtain ⟨n, rfl⟩ : ∃ n, w = n + 1 := ⟨w - 1, by omega⟩
  have ha := a.isLt
  have hb := b.isLt
  have hi := i.toNat_le
  have hr := addRes_toNat a b i
  change some (a.msb == b.msb && (addRes a b i).r.msb != a.msb) = _
  simp only [BitVec.msb_eq_decide, toInt_eq_ite, hr, Nat.add_sub_cancel]
  rw [Nat.pow_succ'] at *
  rw [show (2 : Int) ^ n = (2 ^ n : Nat) by push_cast; rfl, Option.some.injEq, Bool.eq_iff_iff]
  simp only [Bool.and_eq_true, beq_iff_eq, bne_iff_ne, decide_eq_decide, decide_eq_true_eq, ne_eq]
  split <;> split <;> split <;> omega

/-- V of a difference: the operands have different signs, and the difference has that of the subtrahend. -/
theorem subRes_v (hw : 0 < w) (a b : BitVec w) (i : Bool) : (subRes a b i).v = some (decide
    (a.toInt - b.toInt - i.toNat < -2 ^ (w - 1) ∨ 2 ^ (w - 1) ≤ a.toInt - b.toInt - i.toNat)) := by
  obtain ⟨n, rfl⟩ : ∃ n, w = n + 1 := ⟨w - 1, by omega⟩
  have ha := a.isLt
  have hb := b.isLt
  have hi := i.toNat_le
  have hr := subRes_toNat a b i
  change some (a.msb != b.msb && (subRes a b i).r.msb != a.msb) = _
  simp only [BitVec.msb_eq_decide, toInt_eq_ite, hr, Nat.add_sub_cancel]
  rw [Nat.pow_succ'] at *
  rw [show (2 : Int) ^ n = (2 ^ n : Nat) by push_cast; rfl, Option.some.injEq, Bool.eq_iff_iff]
  simp only [Bool.and_eq_true, bne_iff_ne, decide_eq_decide, decide_eq_true_eq, ne_eq]
  split <;> split <;> split <;> omega

/-! What a result in a register says. -/

/-- The sum, with C or without, with H of the byte forms or H 0. -/
def sumRes (a b : BitVec w) (i carry half : Bool) : Res w :=
  { addRes a b i with
    c := if carry then (addRes a b i).c else none
    h := some (half && decide (16 ≤ a.toNat % 16 + b.toNat % 16 + i.toNat)) }

/-- The difference, with C or without, with H of the byte forms or H 0. -/
def diffRes (a b : BitVec w) (i carry half : Bool) : Res w :=
  { subRes a b i with
    c := if carry then (subRes a b i).c else none
    h := some (half && decide (a.toNat % 16 < b.toNat % 16 + i.toNat)) }

theorem sumFlags_of_res (hw : 0 < w) {a b : BitVec w} {i carry half : Bool}
    (hf : c'.f = (sumRes a b i carry half).flags c.f) :
    SumFlags c c' a b (a + b + BitVec.ofNat w i.toNat) i carry half := by
  have h := flags_of_res hf
  have hv : (sumRes a b i carry half).v = (addRes a b i).v := rfl
  rw [hv, addRes_v hw] at h
  rw [← addRes_r]
  exact h

theorem diffFlags_of_res (hw : 0 < w) {a b : BitVec w} {i carry half : Bool}
    (hf : c'.f = (diffRes a b i carry half).flags c.f) :
    DiffFlags c c' a b (a - b - BitVec.ofNat w i.toNat) i carry half := by
  have h := flags_of_res hf
  have hv : (diffRes a b i carry half).v = (subRes a b i).v := rfl
  rw [hv, subRes_v hw] at h
  exact h

theorem put8_eq (gd : Fin 8) (x : Res 8) : c.put8 gd x = { c.setG gd x.r with f := x.flags c.f } := setG_withF ..

theorem put16_eq (wd : Fin 4) (x : Res 16) : c.put16 wd x = { c.setW wd x.r with f := x.flags c.f } := setW_withF ..

theorem put8_spec (gd : Fin 8) (x : Res 8) : c.put8 gd x = { c.setG gd x.r with f := (c.put8 gd x).f } ∧
    Flags c (c.put8 gd x) x.c x.z x.n x.v x.h := by
  rw [put8_eq]
  exact ⟨rfl, flags_of_res rfl⟩

theorem put16_spec (wd : Fin 4) (x : Res 16) : c.put16 wd x = { c.setW wd x.r with f := (c.put16 wd x).f } ∧
    Flags c (c.put16 wd x) x.c x.z x.n x.v x.h := by
  rw [put16_eq]
  exact ⟨rfl, flags_of_res rfl⟩

section

variable {k : Tn} {cc : Cond} {i : Instr} {n : Nat} {gd : Fin 8} {wd : Fin 4} {ci : Cpu → Bool} {carry : Bool}

theorem regs_sum8 {a b : Cpu → Byte} (hexec : ∀ s, exec i s = runCpu k cc i
    (regEff n fun c => c.put8 gd (sumRes (a c) (b c) (ci c) carry true)) s) (hn : 0 < n := by decide) :
    Regs k cc i n (Sum8 gd a b ci carry) :=
  regs_of_regEff hexec (hn := hn) fun c => by
    rw [put8_eq, sumRes, addRes_r]
    exact ⟨rfl, sumFlags_of_res (by decide) rfl⟩

theorem regs_diff8 {a b : Cpu → Byte} (hexec : ∀ s, exec i s = runCpu k cc i
    (regEff n fun c => c.put8 gd (diffRes (a c) (b c) (ci c) carry true)) s) (hn : 0 < n := by decide) :
    Regs k cc i n (Diff8 gd a b ci carry) :=
  regs_of_regEff hexec (hn := hn) fun c => by
    rw [put8_eq]
    exact ⟨rfl, diffFlags_of_res (by decide) rfl⟩

theorem regs_compare8 {a b : Cpu → Byte} (hexec : ∀ s, exec i s = runCpu k cc i
    (regEff n fun c => c.setFlags (diffRes (a c) (b c) false true true)) s) (hn : 0 < n := by decide) :
    Regs k cc i n (Compare8 a b) :=
  regs_of_regEff hexec (hn := hn) fun c => by
    rw [Compare8, ← sub_zero (a c - b c)]
    exact ⟨rfl, diffFlags_of_res (by decide) rfl⟩

theorem regs_logic8 {r : Cpu → Byte} (hexec : ∀ s, exec i s = runCpu k cc i
    (regEff n fun c => c.put8 gd (logicRes (r c))) s) (hn : 0 < n := by decide) : Regs k cc i n (Logic8 gd r) :=
  regs_of_regEff hexec (hn := hn) fun c => put8_spec gd (logicRes (r c))

end

theorem immBase_pos (f : ImmForm) : 0 < immBase f := by
  cases f
  · exact Nat.one_pos
  · exact Nat.two_pos

theorem byteArithmetic : ByteArithmetic := by
  intro k cc gd gs f v
  have himm := immBase_pos f
  exact ⟨regs_sum8 fun _ => rfl, regs_sum8 fun _ => rfl, regs_diff8 fun _ => rfl, regs_diff8 fun _ => rfl,
    regs_logic8 fun _ => rfl, regs_logic8 fun _ => rfl, regs_logic8 fun _ => rfl, regs_compare8 fun _ => rfl,
    regs_sum8 (fun _ => rfl) himm, regs_compare8 (fun _ => rfl) himm, regs_logic8 (fun _ => rfl) himm,
    regs_sum8 fun _ => rfl, regs_diff8 fun _ => rfl, regs_diff8 fun _ => rfl, regs_logic8 fun _ => rfl,
    regs_logic8 fun _ => rfl⟩

/-! One register. -/

theorem not_beq_zero (x : Byte) : (~~~x == 0) = (x == 0xFF) := by
  decide +revert

theorem swapNibbles_eq (x : Byte) : x.extractLsb' 0 4 ++ x.extractLsb' 4 4 = (x <<< 4) ||| (x >>> 4) := by
  decide +revert

theorem swapNibbles_beq_zero (x : Byte) : ((x <<< 4) ||| (x >>> 4) == 0) = (x == 0) := by
  decide +revert

theorem swapNibbles_msb (x : Byte) : ((x <<< 4) ||| (x >>> 4)).msb = x.getLsbD 3 := by
  decide +revert

theorem sshiftRight_one (x : Byte) : x.sshiftRight 1 = (x >>> 1) ||| (x &&& 0x80) := by
  decide +revert

theorem rol_eq (x : Byte) (b : Bool) :
    (x.extractLsb' 0 7 ++ BitVec.ofBool b : Byte) = (x <<< 1) ||| BitVec.ofNat 8 b.toNat := by
  decide +revert

theorem ror_eq (x : Byte) (b : Bool) :
    (BitVec.ofBool b ++ x.extractLsb' 1 7 : Byte) = (x >>> 1) ||| BitVec.ofNat 8 (128 * b.toNat) := by
  decide +revert

theorem regs_shift8 {k : Tn} {cc : Cond} {i : Instr} {gd : Fin 8} {r r' : Cpu → Byte} {out : Cpu → Bool}
    (hexec : ∀ s, exec i s = runCpu k cc i (regEff 1 fun c => c.put8 gd (shiftRes (r' c) (out c))) s)
    (hr : ∀ c, r' c = r c) : Regs k cc i 1 (Shift8 gd r out) := by
  obtain rfl : r' = r := funext hr
  exact regs_of_regEff hexec fun c => put8_spec gd (shiftRes (r' c) (out c))

theorem byteUnary : ByteUnary := by
  intro k cc g
  refine ⟨regs_sum8 fun _ => rfl, regs_diff8 fun _ => rfl, regs_diff8 fun _ => rfl, ?not, ?swapn,
    regs_shift8 (fun _ => rfl) fun _ => rfl, regs_shift8 (fun _ => rfl) fun _ => rfl,
    regs_shift8 (fun _ => rfl) fun c => sshiftRight_one (c.g g),
    regs_shift8 (fun _ => rfl) fun c => rol_eq (c.g g) c.fC,
    regs_shift8 (fun _ => rfl) fun c => ror_eq (c.g g) c.fC,
    regs_of_regEff (fun _ => rfl) fun _ => put8_spec g clrRes,
    regs_of_regEff (fun _ => rfl) fun c => ⟨rfl, flags_of_res (x := tstRes (c.g g)) rfl⟩⟩
  case not =>
    refine regs_of_regEff (fun _ => rfl) fun c => ?_
    rw [← not_beq_zero, ← (BitVec.msb_not.trans (Bool.true_and _) : (~~~c.g g).msb = _)]
    exact put8_spec g (znRes (~~~c.g g))
  case swapn =>
    refine regs_of_regEff (fun _ => rfl) fun c => ?_
    rw [swapNibbles_eq, ← swapNibbles_beq_zero, ← swapNibbles_msb]
    exact put8_spec g (znRes ((c.g g <<< 4) ||| (c.g g >>> 4)))

/-! Pairs. -/

section

variable {k : Tn} {cc : Cond} {i : Instr} {n : Nat} {wd : Fin 4} {ci : Cpu → Bool} {a b : Cpu → Half}

theorem regs_sum16 (hexec : ∀ s, exec i s = runCpu k cc i
    (regEff 2 fun c => c.put16 wd (sumRes (a c) (b c) (ci c) true false)) s) : Regs k cc i 2 (Sum16 wd a b ci) :=
  regs_of_regEff hexec fun c => by
    rw [put16_eq, sumRes, addRes_r]
    exact ⟨rfl, sumFlags_of_res (by decide) rfl⟩

theorem regs_diff16 (hexec : ∀ s, exec i s = runCpu k cc i
    (regEff 2 fun c => c.put16 wd (diffRes (a c) (b c) (ci c) true false)) s) : Regs k cc i 2 (Diff16 wd a b ci) :=
  regs_of_regEff hexec fun c => by
    rw [put16_eq]
    exact ⟨rfl, diffFlags_of_res (by decide) rfl⟩

theorem regs_compare16 (hexec : ∀ s, exec i s = runCpu k cc i
    (regEff 2 fun c => c.setFlags (diffRes (a c) (b c) false true false)) s) : Regs k cc i 2 (Compare16 a b) :=
  regs_of_regEff hexec fun c => by
    rw [Compare16, ← sub_zero (a c - b c)]
    exact ⟨rfl, diffFlags_of_res (by decide) rfl⟩

theorem byteOf_w_zero (c : Cpu) (wd : Fin 4) : byteOf (c.w wd) 0 = c.g (lowG wd) := BitVec.extractLsb'_append_eq_right

theorem mul_eq (x y : Byte) : (BitVec.ofNat 16 (x.toNat * y.toNat)) = x.setWidth 16 * y.setWidth 16 := by
  rw [BitVec.ofNat_mul, BitVec.ofNat_toNat, BitVec.ofNat_toNat]

end

end Sys2Proof.Rule

open Sys2Proof Sys2Proof.Machine Sys2Proof.Rule

/-- Settles O1: each byte instruction writes a result of `Machine/Flags.lean`, whose flags are those of the rule. -/
theorem byteInstructions : Obligations.ByteInstructions := by
  unfold Obligations.ByteInstructions
  exact ⟨byteArithmetic, byteUnary⟩

/-- Settles O2: the 16-bit forms write the sum or the difference with H 0. -/
theorem pairArithmetic : Obligations.PairArithmetic := by
  unfold Obligations.PairArithmetic
  intro k cc wd ws ga gb v
  refine ⟨regs_sum16 fun _ => rfl, regs_sum16 fun _ => rfl, regs_diff16 fun _ => rfl, regs_diff16 fun _ => rfl,
    regs_compare16 fun _ => rfl, regs_sum16 fun _ => rfl, regs_compare16 fun _ => rfl,
    regs_of_regEff (fun _ => rfl) fun c => put16_spec wd (znRes (c.w wd + 1)),
    regs_of_regEff (fun _ => rfl) fun c => put16_spec wd (znRes (c.w wd - 1)), ?ext, ?mul⟩
  case ext =>
    refine regs_of_regEff (fun _ => rfl) fun c => ?_
    rw [byteOf_w_zero]
    exact put16_spec wd (znRes ((c.g (lowG wd)).signExtend 16))
  case mul =>
    refine regs_of_regEff (fun _ => rfl) fun c => ?_
    rw [mulRes, mul_eq]
    exact put16_spec wd (logicRes ((c.g ga).setWidth 16 * (c.g gb).setWidth 16))
end

section
/-! PROOF. An instruction whose condition is false (R111), moves, selects and pointers (R83, R118, R121). -/

namespace Sys2Proof.Rule

-- One proof at a time: each thread of Lean keeps a stack of its own, and the whole text is near the memory limit.
set_option Elab.async false

open Sys2Proof.Machine

variable {s : State} {k : Tn} {cc : Cond} {i : Instr} {g : Geo} {t : Tenant}

/-! A false condition. -/

/-- Every instruction of a tenant's CPU runs through `runCpu` with the condition that its encoding carries. -/
theorem exists_effect (hk : cpuTenant i = some k)
    (hcc : (encodeShort i).map (fun x => x.1) = some cc ∨ (encodeLong i).map (fun x => x.1) = some cc) :
    ∃ eff, ∀ s, exec i s = runCpu k cc i eff s := by
  cases i with cases hk
  | ld _ _ _ p | st _ _ _ p | ldw _ _ _ p | stw _ _ _ p | call _ _ p | ldi _ _ p | cmpi _ _ p | addi _ _ p | andi _ _ p =>
    cases p
    all_goals
      rcases hcc with h | h <;> cases h
      exact ⟨_, fun _ => rfl⟩
  | _ =>
    rcases hcc with h | h <;> cases h
    exact ⟨_, fun _ => rfl⟩

theorem runCpu_of_not_holds {eff : Geo → Tenant → Tenant} (hready : s.cpuReady k i = some t)
    (hholds : t.holds (s.geo k) cc = false) :
    runCpu k cc i eff s = .next ((s.setTenant k (after t t.core.cpu 1)).issued t 1) := by
  have hslots : (if (after t t.core.cpu 1).waiting then 1 else (after t t.core.cpu 1).core.now - t.core.now) = 1 := by
    rw [show (after t t.core.cpu 1).core.now = t.core.now + 1 from rfl, Nat.add_sub_cancel_left, ite_self]
  simp only [runCpu, hready, State.afterCpu, hholds, Bool.false_eq_true, if_false, finish_nil (s.geo k) Nat.one_pos, hslots]

/-! Pointers. -/

theorem setPtrByte_two (p : Addr) (v : Byte) : setPtrByte p 2 v = (v ++ p.setWidth 16 : BitVec 24) :=
  congrArg (v ++ ·) (BitVec.setWidth_eq_extractLsb' (by decide)).symm

theorem ptrByte_eq (p : Addr) (n : Fin 3) : ptrByte p n = BitVec.ofNat 8 (p.toNat / 256 ^ n.val) := by
  rw [ptrByte, byteOf, BitVec.extractLsb', Nat.shiftRight_eq_div_pow, Nat.pow_mul]

/-- Bits that two addresses share hold the same byte. -/
theorem byteOf_of_extractLsb' {p q : Addr} {lo len : Nat} (h : q.extractLsb' lo len = p.extractLsb' lo len) {m : Nat}
    (hlo : lo ≤ 8 * m := by decide) (hhi : 8 * m + 8 ≤ lo + len := by decide) : byteOf q m = byteOf p m := by
  have h := congrArg (BitVec.extractLsb' (8 * m - lo) 8) h
  rwa [extractLsb'_extractLsb' q (by omega), extractLsb'_extractLsb' p (by omega), Nat.add_sub_cancel' hlo] at h

/-- A pointer's byte is written, and its two others stay. -/
theorem byteOf_setPtrByte (p : Addr) (n m : Fin 3) (v : Byte) :
    byteOf (setPtrByte p n v) m = if m = n then v else byteOf p m := by
  match n with
  | 0 =>
    obtain ⟨hhi, hlo⟩ := (eq_append_iff 16 8).1 (rfl : setPtrByte p 0 v = p.extractLsb' 8 16 ++ v)
    match m with
    | 0 => exact hlo
    | 1 | 2 => exact byteOf_of_extractLsb' hhi
  | 1 =>
    obtain ⟨hhi, hlo⟩ := (eq_append_iff (8 + 8) 8).1
      (rfl : setPtrByte p 1 v = p.extractLsb' 16 8 ++ v ++ p.extractLsb' 0 8)
    obtain ⟨hhi, hmid⟩ := extractLsb'_eq_append_iff.1 hhi
    match m with
    | 0 => exact byteOf_of_extractLsb' hlo
    | 1 => exact hmid
    | 2 => exact byteOf_of_extractLsb' hhi
  | 2 =>
    obtain ⟨hhi, hlo⟩ := (eq_append_iff 8 16).1 (rfl : setPtrByte p 2 v = v ++ p.extractLsb' 0 16)
    match m with
    | 0 | 1 => exact byteOf_of_extractLsb' hlo
    | 2 => exact hhi

end Sys2Proof.Rule

open Sys2Proof Sys2Proof.Machine Sys2Proof.Rule

/-- Settles O9: the condition decides before the effect, whatever the instruction is. -/
theorem conditionFalse : Obligations.ConditionFalse := by
  unfold Obligations.ConditionFalse
  intro k cc i hk hcc s t hready hholds
  obtain ⟨eff, hexec⟩ := exists_effect hk hcc
  rw [hexec, runCpu_of_not_holds hready hholds]

/-- Settles O3: each move changes registers alone, and a select judges its condition on the tenant of its first cycle. -/
theorem moves : Obligations.Moves := by
  unfold Obligations.Moves
  intro k cc gd gs gb wd ws wb f v v16 sc
  refine ⟨regs_of_regEff (fun _ => rfl) fun _ => rfl, regs_of_regEff (fun _ => rfl) fun _ => rfl,
    regs_of_regEff (fun _ => rfl) fun _ => rfl, regs_of_regEff (fun _ => rfl) (fun _ => rfl) (immBase_pos f),
    regs_of_regEff (fun _ => rfl) fun _ => rfl, does_of_runCpu (fun _ => rfl) fun g t => regEff_eq g t _ Nat.two_pos,
    does_of_runCpu (fun _ => rfl) fun g t => regEff_eq g t _ Nat.two_pos,
    List.forall_mem_cons.2 ⟨fun _ _ => runCpu_of_not_holds, List.forall_mem_singleton.2 fun _ _ => runCpu_of_not_holds⟩⟩

/-- Settles O4: each pointer instruction changes registers alone; a pointer is read and written by its three bytes. -/
theorem pointers : Obligations.Pointers := by
  unfold Obligations.Pointers
  intro k cc pk ws g n v v16 s18 s6 x d e
  exact ⟨regs_of_regEff (fun _ => rfl) fun _ => rfl,
    regs_of_regEff (fun _ => rfl) fun c => congrArg (c.setP pk) (setPtrByte_two (c.p pk) v),
    regs_of_regEff (fun _ => rfl) fun _ => rfl, regs_of_regEff (fun _ => rfl) fun _ => rfl,
    regs_of_regEff (fun _ => rfl) fun _ => rfl, regs_of_regEff (fun _ => rfl) fun _ => rfl,
    regs_of_regEff (fun _ => rfl) fun _ => rfl,
    regs_of_regEff (fun _ => rfl) fun c => congrArg (c.setG g) (ptrByte_eq (c.p pk) n),
    regs_of_regEff (fun _ => rfl) fun c => ⟨_, fun m => byteOf_setPtrByte (c.p pk) n m (c.g g), rfl⟩⟩
end

section
/-! PROOF. Transfers of control (R101, R102, R104, R113, R114). -/

namespace Sys2Proof.Rule

-- One proof at a time: each thread of Lean keeps a stack of its own, and the whole text is near the memory limit.
set_option Elab.async false

open Sys2Proof.Machine

variable {k : Tn} {cc : Cond} {i : Instr} {m : Nat} {g : Geo} {t : Tenant}

/-! Jumps. -/

theorem rel_eq {w : Nat} (next : Addr) (d : BitVec w) : rel next d = next + 2 * d.signExtend 24 := by
  rw [rel, add_assoc, two_mul]

theorem traceAt_now (t : Tenant) (a : Addr) : (t.traceAt a).core.now = t.core.now := by
  rw [Tenant.traceAt, Tenant.trace_eq]
  rfl

theorem jumpEff_eq (len : Addr) (f : Cpu → Addr) (hm : 0 < m) :
    let w := (t.onCpu fun c => { c with pc := f t.core.cpu &&& ~~~1 }).traceAt (t.core.cpu.pc - len)
    jumpEff m len f g t = { w with core := { w.core with now := t.core.now + m } } := by
  intro w
  exact (finish_nil g hm w).trans
    (congrArg (fun n => ({ w with core := { w.core with now := n + m } } : Tenant)) (traceAt_now ..))

theorem jumps_of_jumpEff {len : Addr} {f : Cpu → Addr} (hexec : ∀ s, exec i s = runCpu k cc i (jumpEff m len f) s)
    (hm : 0 < m := by omega) : Jumps k cc i m len f :=
  does_of_runCpu hexec fun _ _ => jumpEff_eq len f hm

theorem setG_pc (c : Cpu) (gd : Fin 8) (v : Byte) : (c.setG gd v).pc = c.pc := by
  unfold Cpu.setG
  split <;> rfl

theorem jumpTargets : JumpTargets := by
  intro k cc gd pk s8 s20 s16
  simp only [← rel_eq]
  refine ⟨jumps_of_jumpEff fun _ => rfl, jumps_of_jumpEff fun _ => rfl, jumps_of_jumpEff fun _ => rfl,
    does_of_runCpu (fun _ => rfl) fun g t => ⟨fun hone => ?_, fun hone => ?_⟩⟩
  · rw [if_pos (by rw [hone]; rfl)]
    exact finish_nil g Nat.two_pos _
  · rw [if_neg fun h => hone (sub_eq_zero.1 h), jumpEff_eq _ _ (by decide)]
    simp only [Tenant.onCpu, setG_pc]

/-! Calls and returns. -/

/-- Bytes noted for reads leave the CPU, memory and the clock. -/
theorem noteBytes_keeps (g : Geo) (e : Nat) (as : List Addr) (t : Tenant) : (t.noteBytes g e as).core.cpu = t.core.cpu ∧
    (t.noteBytes g e as).core.mem = t.core.mem ∧ (t.noteBytes g e as).core.now = t.core.now := by
  unfold Tenant.noteBytes
  induction as generalizing t with
  | nil => exact ⟨rfl, rfl, rfl⟩
  | cons a as ih => exact ih _

/-- What a transfer of control that ends its instruction leaves. -/
theorem finish_jumpTo_keeps (g : Geo) (hm : 0 < m) (t : Tenant) (here target : Addr) :
    let u := (t.jumpTo here target).finish g m []
    u.core.cpu.sp = t.core.cpu.sp ∧ u.core.cpu.rs = t.core.cpu.rs ∧ u.core.mem = t.core.mem ∧ u.core.now = t.core.now + m ∧
      u.core.cpu.pc = target &&& ~~~1 := by
  obtain ⟨bt, head, count, hjump⟩ := finish_jumpTo g hm t here target
  rw [hjump]
  exact ⟨rfl, rfl, rfl, rfl, rfl⟩

/-- The tenant whose CALL at cycle `e` has made its live entry (R101). -/
def called (g : Geo) (e : Nat) (t : Tenant) : Tenant :=
  ((t.onCpu fun c => { c with sp := c.sp - 3 }).noteBytes g e (addrs (t.core.cpu.sp - 3) 3)).onCpu fun c =>
    { c with rs := c.rs ++ [⟨t.core.cpu.pc, t.core.cpu.sp - 3⟩] }

theorem called_keeps (g : Geo) (e : Nat) (t : Tenant) :
    (called g e t).core.cpu.sp = t.core.cpu.sp - 3 ∧
      (called g e t).core.cpu.rs = t.core.cpu.rs ++ [⟨t.core.cpu.pc, t.core.cpu.sp - 3⟩] ∧
      (called g e t).core.mem = t.core.mem ∧ (called g e t).core.now = t.core.now := by
  obtain ⟨hcpu, hmem, hnow⟩ := noteBytes_keeps g e (addrs (t.core.cpu.sp - 3) 3) (t.onCpu fun c => { c with sp := c.sp - 3 })
  exact ⟨congrArg Cpu.sp hcpu, congrArg (fun c => c.rs ++ _) hcpu, hmem, hnow⟩

theorem callEff_of_live {cost : Nat} (len : Addr) (f : Cpu → Addr) (hcost : 0 < cost)
    (hlives : ((addrs (t.core.cpu.sp - 3) 3).all fun a => cpuWritable a.toNat) = true) (hfree : t.core.cpu.rs.length < 16) :
    let c := t.core.cpu
    let u := callEff cost len f g t
    u.core.cpu.sp = c.sp - 3 ∧ u.core.cpu.rs = c.rs ++ [⟨c.pc, c.sp - 3⟩] ∧ u.core.mem = t.core.mem ∧
      u.core.now = t.core.now + cost ∧ u.core.cpu.pc = f c &&& ~~~1 := by
  have hcall : callEff cost len f g t =
      ((called g (t.core.now + cost - 1) t).jumpTo (t.here len) (f t.core.cpu)).finish g cost [] := by
    simp only [callEff, called, Tenant.onCpu, hlives, hfree.ne, if_true, if_false, Nat.add_zero]
  obtain ⟨hsp, hrs, hmem, hnow⟩ := called_keeps g (t.core.now + cost - 1) t
  obtain ⟨hsp', hrs', hmem', hnow', hpc⟩ := finish_jumpTo_keeps g hcost (called g (t.core.now + cost - 1) t) (t.here len)
    (f t.core.cpu)
  dsimp only
  rw [hcall]
  exact ⟨hsp'.trans hsp, hrs'.trans hrs, hmem'.trans hmem, hnow'.trans (congrArg (· + cost) hnow), hpc⟩

/-- The tenant whose RET has taken the newest live entry (R102). -/
def returned (g : Geo) (x : RsEntry) (t : Tenant) : Tenant :=
  (t.noteBytes g (t.core.now + 1) (addrs x.res 3)).onCpu fun c => { c with sp := c.sp + 3, rs := c.rs.dropLast }

theorem returned_keeps (g : Geo) (x : RsEntry) (t : Tenant) :
    (returned g x t).core.cpu.sp = t.core.cpu.sp + 3 ∧ (returned g x t).core.cpu.rs = t.core.cpu.rs.dropLast ∧
      (returned g x t).core.mem = t.core.mem ∧ (returned g x t).core.now = t.core.now := by
  obtain ⟨hcpu, hmem, hnow⟩ := noteBytes_keeps g (t.core.now + 1) (addrs x.res 3) t
  exact ⟨congrArg (fun c => c.sp + 3) hcpu, congrArg (fun c => c.rs.dropLast) hcpu, hmem, hnow⟩

theorem retEff_of_live {r : List RsEntry} {x : RsEntry} (hrs : t.core.cpu.rs = r ++ [x]) (hx : x.res = t.core.cpu.sp) :
    let u := retEff g t
    u.core.cpu.sp = t.core.cpu.sp + 3 ∧ u.core.cpu.rs = r ∧ u.core.cpu.pc = x.ret &&& ~~~1 ∧ u.core.mem = t.core.mem ∧
      u.core.now = t.core.now + 2 := by
  have hret : retEff g t = ((returned g x t).jumpTo (t.here 2) x.ret).finish g 2 [] := by
    simp only [retEff, hrs, List.getLast?_concat, hx, if_true, returned]
  obtain ⟨hsp, hdrop, hmem, hnow⟩ := returned_keeps g x t
  rw [hrs, List.dropLast_concat] at hdrop
  obtain ⟨hsp', hrs', hmem', hnow', hpc⟩ := finish_jumpTo_keeps g Nat.two_pos (returned g x t) (t.here 2) x.ret
  dsimp only
  rw [hret]
  exact ⟨hsp'.trans hsp, hrs'.trans hdrop, hpc, hmem'.trans hmem, hnow'.trans (congrArg (· + 2) hnow)⟩

theorem callAndReturn : CallAndReturn := by
  intro k cc f
  simp only [← rel_eq]
  refine ⟨?_, does_of_runCpu (fun _ => rfl) fun _ _ _ _ => retEff_of_live⟩
  cases f with
  | rel8 d => exact does_of_runCpu (fun _ => rfl) fun _ _ => callEff_of_live 2 (fun c => rel c.pc d) Nat.two_pos
  | rel20 d => exact does_of_runCpu (fun _ => rfl) fun _ _ => callEff_of_live 4 (fun c => rel c.pc d) (by decide)
  | ptr p => exact does_of_runCpu (fun _ => rfl) fun _ _ => callEff_of_live 4 (fun c => c.p p) (by decide)

end Sys2Proof.Rule

open Sys2Proof Sys2Proof.Machine Sys2Proof.Rule

/-- Settles O8: CALL and RET note the bytes of a live entry, which changes no register, and end as a jump does. -/
theorem controlTransfers : Obligations.ControlTransfers := by
  unfold Obligations.ControlTransfers
  exact ⟨jumpTargets, callAndReturn⟩
end

section
/-! PROOF. Packed decimal (R122 to R127). -/

namespace Sys2Proof.Machine

-- One proof at a time: each thread of Lean keeps a stack of its own, and the whole text is near the memory limit.
set_option Elab.async false

/-! A data read leaves the CPU's registers. -/

theorem Core.setTimer_cpu (c : Core) (n : Nat) (x : Timer) : (c.setTimer n x).cpu = c.cpu := by
  unfold Core.setTimer
  split <;> rfl

theorem Tenant.captureBeam_cpu (g : Geo) (t : Tenant) (e : Nat) : (t.captureBeam g e).core.cpu = t.core.cpu := by
  simp only [captureBeam, setFld_core_cpu]

theorem Tenant.latchCount_cpu (t : Tenant) (n : Nat) : (t.latchCount n).core.cpu = t.core.cpu := Core.setTimer_cpu ..

theorem Tenant.touch_cpu (g : Geo) (e : Nat) (t : Tenant) (a : Addr) : (t.touch g e a).core.cpu = t.core.cpu := by
  unfold touch
  simp only [apply_ite Tenant.core, apply_ite Core.cpu, captureBeam_cpu, latchCount_cpu, ite_self]

theorem Tenant.foldl_touch_cpu (g : Geo) (e : Nat) (as : List Addr) (t : Tenant) :
    (as.foldl (touch g e) t).core.cpu = t.core.cpu := by
  induction as generalizing t with
  | nil => rfl
  | cons a as ih => rw [List.foldl_cons, ih, touch_cpu]

theorem Tenant.readAll_cpu (g : Geo) (t : Tenant) (e master : Nat) (as : List Addr) :
    (t.readAll g e master as).1.core.cpu = t.core.cpu := by
  unfold readAll
  dsimp only
  split
  · rw [violate_core]
  · rfl

theorem Tenant.cpuRead_cpu (g : Geo) (t : Tenant) (e : Nat) (as : List Addr) : (t.cpuRead g e as).1.core.cpu = t.core.cpu :=
  (readAll_cpu ..).trans (foldl_touch_cpu ..)

end Sys2Proof.Machine

namespace Sys2Proof.Rule

-- One proof at a time: each thread of Lean keeps a stack of its own, and the whole text is near the memory limit.
set_option Elab.async false

open Sys2Proof.Machine

variable {c : Cpu}

/-! On registers. -/

theorem dajAdjust_toNat (low high : Bool) : ((if low then 6 else 0) + (if high then 0x60 else 0) : Byte).toNat =
    (if low then 6 else 0) + (if high then 0x60 else 0) := by
  decide +revert

theorem dajARes_eq (x : Byte) (ci h : Bool) :
    let low := h || decide (9 < x.toNat % 16)
    let high := ci || decide (0x99 < x.toNat)
    let d : Byte := (if low then 6 else 0) + (if high then 0x60 else 0)
    dajARes x ci h = ⟨x + d, some high, some (x + d == 0), some (x + d).msb, some false,
      some (decide (16 ≤ x.toNat % 16 + d.toNat % 16))⟩ := by
  intro low high d
  have hr : BitVec.ofNat 8 (x.toNat + ((if low then 6 else 0) + (if high then 0x60 else 0))) = x + d := by
    rw [← dajAdjust_toNat, BitVec.ofNat_add, BitVec.ofNat_toNat, BitVec.ofNat_toNat, BitVec.setWidth_eq, BitVec.setWidth_eq]
  rw [← hr, dajAdjust_toNat]
  rfl

theorem cnvDRes_digit (x : Half) {i : Nat} (hi : i < 4) : (cnvDRes x).r.toNat / 16 ^ i % 16 = x.toNat % 10000 / 10 ^ i % 10 := by
  have hlt : x.toNat % 10000 < 10000 := Nat.mod_lt _ (by decide)
  simp only [cnvDRes, BitVec.toNat_ofNat]
  generalize x.toNat % 10000 = v at hlt ⊢
  have htop : v / 1000 % 10 = v / 1000 := by omega
  have hb : v / 100 % 10 < 10 := Nat.mod_lt _ (by decide)
  have hc : v / 10 % 10 < 10 := Nat.mod_lt _ (by decide)
  have hd : v % 10 < 10 := Nat.mod_lt _ (by decide)
  interval_cases i <;> simp only [Nat.reducePow, Nat.div_one, htop]
  all_goals
    generalize v / 1000 = a at *
    generalize v / 100 % 10 = b at *
    generalize v / 10 % 10 = c at *
    generalize v % 10 = d at *
    omega

theorem cnvBRes_toNat (x : Half) :
    (cnvBRes x).r.toNat = ((List.range 4).map fun i => x.toNat / 16 ^ i % 16 * 10 ^ i).sum := by
  have hlt := x.isLt
  simp only [cnvBRes, BitVec.toNat_ofNat, List.range, List.range.loop, List.map, List.sum_cons, List.sum_nil]
  omega

theorem exists_lt_four (p : Nat → Prop) : (∃ i < 4, p i) ↔ p 0 ∨ p 1 ∨ p 2 ∨ p 3 := by
  constructor
  · rintro ⟨i, hi, h⟩
    interval_cases i <;> simp only [h, true_or, or_true]
  · rintro (h | h | h | h)
    all_goals exact ⟨_, by decide, h⟩

theorem cnvBRes_v (x : Half) : (cnvBRes x).v = some (decide (∃ i < 4, 9 < x.toNat / 16 ^ i % 16)) :=
  congrArg some (decide_eq_decide.2 (exists_lt_four fun i => 9 < x.toNat / 16 ^ i % 16).symm)

theorem decimal : Decimal := by
  intro k cc wd
  refine ⟨regs_of_regEff (fun _ => rfl) fun c => ?_, regs_of_regEff (fun _ => rfl) fun c => put8_spec 0 (dajSRes (c.g 0) c.fC c.fH),
    regs_of_regEff (fun _ => rfl) fun c => ⟨_, fun i => cnvDRes_digit (c.w wd), put16_spec wd (cnvDRes (c.w wd))⟩,
    regs_of_regEff (fun _ => rfl) fun c => ⟨_, cnvBRes_toNat (c.w wd), ?_⟩⟩
  · rw [dajARes_eq]
    exact put8_spec ..
  · rw [← cnvBRes_v]
    exact put16_spec wd (cnvBRes (c.w wd))

/-! Digits. -/

theorem digits_cons (b : Byte) (l : List Byte) : digits (b :: l) = b.toNat % 16 :: b.toNat / 16 :: digits l := rfl

theorem digits_append (l m : List Byte) : digits (l ++ m) = digits l ++ digits m := List.flatMap_append

theorem digits_length (l : List Byte) : (digits l).length = 2 * l.length := by
  induction l with
  | nil => rfl
  | cons b l ih => rw [digits_cons, List.length_cons, List.length_cons, ih, List.length_cons]; omega

theorem bcd_eq (l : List Byte) : bcd l = Nat.ofDigits 10 (digits l) := by
  induction l with
  | nil => rfl
  | cons b l ih => rw [bcd, ih, digits_cons, Nat.ofDigits_cons, Nat.ofDigits_cons]; ring

theorem digitsOk_iff (l : List Byte) : digitsOk l = true ↔ ∀ d ∈ digits l, d < 10 := by
  induction l with
  | nil => simp [digitsOk, digits]
  | cons b l ih =>
    rw [digits_cons, List.forall_mem_cons, List.forall_mem_cons, ← ih]
    simp only [digitsOk, List.all_cons, Bool.and_eq_true, decide_eq_true_eq, and_assoc]

theorem digits_undigits {n : Nat} {ds : List Nat} (hlen : ds.length = 2 * n) (hds : ∀ d ∈ ds, d < 10) :
    digits (undigits ds) = ds := by
  induction n generalizing ds with
  | zero => rw [List.eq_nil_of_length_eq_zero hlen]; rfl
  | succ n ih =>
    match ds, hlen with
    | a :: b :: ds, hlen =>
      obtain ⟨ha, hb, hds⟩ := by simpa only [List.forall_mem_cons] using hds
      have hbyte : (BitVec.ofNat 8 (a + 16 * b)).toNat = a + 16 * b := by
        rw [BitVec.toNat_ofNat, Nat.mod_eq_of_lt (by omega)]
      rw [undigits, digits_cons, hbyte, ih (by rw [List.length_cons, List.length_cons] at hlen; omega) hds]
      congr 2 <;> omega

theorem all_eq_zero_digits (l : List Byte) : (digits l).all (· == 0) = l.all (· == 0) := by
  induction l with
  | nil => rfl
  | cons b l ih =>
    have hb : (b == 0) = (b.toNat % 16 == 0 && b.toNat / 16 == 0) := by decide +revert
    rw [digits_cons, List.all_cons, List.all_cons, List.all_cons, ih, hb, Bool.and_assoc]

theorem getLast_digits (l : List Byte) : (digits l).getLast?.getD 0 = (l.getLast?.getD 0).toNat / 16 := by
  rcases List.eq_nil_or_concat l with rfl | ⟨m, b, rfl⟩
  · rfl
  · rw [List.concat_eq_append, digits_append, List.getLast?_concat]
    simp [digits]

theorem undigits_length {n : Nat} {ds : List Nat} (hlen : ds.length = 2 * n) (hds : ∀ d ∈ ds, d < 10) :
    (undigits ds).length = n := by
  have h := digits_length (undigits ds)
  rw [digits_undigits hlen hds] at h
  omega

theorem bcd_undigits {n : Nat} {ds : List Nat} (hlen : ds.length = 2 * n) (hds : ∀ d ∈ ds, d < 10) :
    bcd (undigits ds) = Nat.ofDigits 10 ds := by
  rw [bcd_eq, digits_undigits hlen hds]

/-! Digit by digit (R124). -/

/-- Digit by digit `f` gives as many digits and a carry, related as `rel` says; its last argument is the weight of the
carry. -/
def DigitOp (f : List (Nat × Nat) → Nat → List Nat × Nat) (rel : Nat → Nat → Nat → Nat → Nat → Nat → Prop) : Prop :=
  ∀ (l : List (Nat × Nat)) (ci : Nat), (∀ p ∈ l, p.1 < 10 ∧ p.2 < 10) → ci ≤ 1 →
    (f l ci).1.length = l.length ∧ (∀ d ∈ (f l ci).1, d < 10) ∧ (f l ci).2 ≤ 1 ∧
      rel (Nat.ofDigits 10 (l.map Prod.fst)) (Nat.ofDigits 10 (l.map Prod.snd)) ci (Nat.ofDigits 10 (f l ci).1) (f l ci).2
        (10 ^ l.length)

theorem addDigits_cons {x y ci : Nat} (hx : x < 10) (hy : y < 10) (hci : ci ≤ 1) (l : List (Nat × Nat)) :
    addDigits ((x, y) :: l) ci =
      ((x + y + ci) % 10 :: (addDigits l ((x + y + ci) / 10)).1, (addDigits l ((x + y + ci) / 10)).2) := by
  have hdigit : (if 10 ≤ x + y + ci then ((x + y + ci - 10) % 16, 1) else (x + y + ci, 0)) =
      ((x + y + ci) % 10, (x + y + ci) / 10) := by
    split <;> rw [Prod.mk.injEq] <;> omega
  rw [addDigits, hdigit]

theorem digitOp_addDigits : DigitOp addDigits fun x y ci z co m => z + m * co = x + y + ci := by
  intro l
  induction l with
  | nil => exact fun ci _ hci => ⟨rfl, by simp [addDigits], hci, by simp [addDigits]⟩
  | cons p l ih =>
    intro ci hl hci
    obtain ⟨⟨hx, hy⟩, hl⟩ := List.forall_mem_cons.1 hl
    obtain ⟨hlen, hdigits, hco, hrel⟩ := ih ((p.1 + p.2 + ci) / 10) hl (by omega)
    rw [addDigits_cons hx hy hci]
    refine ⟨congrArg (· + 1) hlen, List.forall_mem_cons.2 ⟨Nat.mod_lt _ (by decide), hdigits⟩, hco, ?_⟩
    simp only [List.map_cons, Nat.ofDigits_cons, List.length_cons, Nat.pow_succ', Nat.mul_assoc]
    omega

theorem subDigits_cons {x y ci : Nat} (hx : x < 10) (hy : y < 10) (hci : ci ≤ 1) (l : List (Nat × Nat)) :
    ∃ d < 10, ∃ co ≤ 1, d + y + ci = x + 10 * co ∧ subDigits ((x, y) :: l) ci = (d :: (subDigits l co).1, (subDigits l co).2) := by
  by_cases h : x < y + ci
  · refine ⟨(x + 26 - y - ci) % 16, by omega, 1, le_rfl, by omega, ?_⟩
    rw [subDigits, if_pos h]
  · refine ⟨x - y - ci, by omega, 0, by decide, by omega, ?_⟩
    rw [subDigits, if_neg h]

theorem digitOp_subDigits : DigitOp subDigits fun x y ci z co m => z + y + ci = x + m * co := by
  intro l
  induction l with
  | nil => exact fun ci _ hci => ⟨rfl, by simp [subDigits], hci, by simp [subDigits]⟩
  | cons p l ih =>
    intro ci hl hci
    obtain ⟨⟨hx, hy⟩, hl⟩ := List.forall_mem_cons.1 hl
    obtain ⟨d, hd, co, hco', hdigit, hcons⟩ := subDigits_cons hx hy hci l
    obtain ⟨hlen, hdigits, hco, hrel⟩ := ih co hl hco'
    rw [hcons]
    refine ⟨congrArg (· + 1) hlen, List.forall_mem_cons.2 ⟨hd, hdigits⟩, hco, ?_⟩
    simp only [List.map_cons, Nat.ofDigits_cons, List.length_cons, Nat.pow_succ', Nat.mul_assoc]
    omega

/-! Strings. -/

theorem cpuRead_length (g : Geo) (t : Tenant) (e : Nat) (as : List Addr) : (t.cpuRead g e as).2.length = as.length :=
  Tenant.readAll_length ..

theorem addrs_length (a : Addr) (n : Nat) : (addrs a n).length = n := by
  rw [addrs, List.length_map, List.length_range]

/-- What a digit operation on two strings of `n` bytes of decimal digits gives. -/
theorem digitOp_strings {f rel} (hf : DigitOp f rel) {n : Nat} {x y : List Byte} (hx : x.length = n) (hy : y.length = n)
    (hxd : digitsOk x = true) (hyd : digitsOk y = true) {ci : Nat} (hci : ci ≤ 1) :
    let r := f ((digits x).zip (digits y)) ci
    r.1.length = 2 * n ∧ (∀ d ∈ r.1, d < 10) ∧ r.2 ≤ 1 ∧ rel (bcd x) (bcd y) ci (Nat.ofDigits 10 r.1) r.2 (100 ^ n) := by
  have hlx : (digits x).length = 2 * n := by rw [digits_length, hx]
  have hly : (digits y).length = 2 * n := by rw [digits_length, hy]
  have hpairs : ∀ p ∈ (digits x).zip (digits y), p.1 < 10 ∧ p.2 < 10 := fun p hp =>
    ⟨(digitsOk_iff x).1 hxd _ (List.of_mem_zip hp).1, (digitsOk_iff y).1 hyd _ (List.of_mem_zip hp).2⟩
  have h := hf _ ci hpairs hci
  rw [List.map_fst_zip (by omega), List.map_snd_zip (by omega), ← bcd_eq, ← bcd_eq, List.length_zip, hlx, hly, min_self,
    Nat.pow_mul] at h
  exact h

/-- The flags of a string instruction whose strings hold decimal digits alone (R125). -/
theorem stringFlags_eq {n : Nat} {x y : List Byte} {ds : List Nat} {co : Nat} (hxd : digitsOk x = true)
    (hyd : digitsOk y = true) (hlen : ds.length = 2 * n) (hds : ∀ d ∈ ds, d < 10) :
    stringFlags (digits x) (digits y) ds co = ⟨0, some (co == 1), some ((undigits ds).all (· == 0)),
      some (decide (8 ≤ ((undigits ds).getLast?.getD 0).toNat / 16)), some false, some false⟩ := by
  have hbad : ((digits x ++ digits y).any fun d => decide (9 < d)) = false := by
    simp only [List.any_eq_false, decide_eq_true_eq, List.mem_append]
    rintro d (hd | hd)
    · exact Nat.not_lt.2 (Nat.le_of_lt_succ ((digitsOk_iff x).1 hxd d hd))
    · exact Nat.not_lt.2 (Nat.le_of_lt_succ ((digitsOk_iff y).1 hyd d hd))
  rw [stringFlags, hbad, ← all_eq_zero_digits, ← getLast_digits, digits_undigits hlen hds]

/-- A string instruction whose strings have no forbidden byte: its flags are set, and its result is written where it is
written at all. -/
theorem stringEff_eq {g : Geo} {t : Tenant} {pd ps : Fin 4} {n1 : BitVec 4} {ci write : Bool} {f}
    (hread : ∀ a ∈ addrs (t.core.cpu.p pd) (n1.toNat + 1) ++ addrs (t.core.cpu.p ps) (n1.toNat + 1),
      (t.readByte g t.core.now a).isSome = true) :
    let n := n1.toNat + 1
    let d := addrs (t.core.cpu.p pd) n
    let r := t.cpuRead g t.core.now (d ++ addrs (t.core.cpu.p ps) n)
    let xs := digits (r.2.take n)
    let ys := digits (r.2.drop n)
    let o := f (xs.zip ys) (if ci then t.core.cpu.fC.toNat else 0)
    stringEff pd ps n1 ci write f g t = (r.1.onCpu fun c => c.setFlags (stringFlags xs ys o.1 o.2)).finish g
      (if write then 2 + 3 * n else 2 + 2 * n) (if write then d.zip (undigits o.1) else []) := by
  have hgood : (addrs (t.core.cpu.p pd) (n1.toNat + 1) ++ addrs (t.core.cpu.p ps) (n1.toNat + 1)).any
      (fun a => (t.readByte g t.core.now a).isNone) = false :=
    List.any_eq_false.2 fun a ha => by rw [← Option.not_isSome, hread a ha]; decide
  unfold stringEff
  dsimp only
  rw [hgood]
  generalize t.cpuRead g t.core.now _ = r
  generalize f _ _ = o
  cases write
  · rfl
  · rfl

theorem finish_setFlags (g : Geo) (t : Tenant) (x : Res 8) {m : Nat} (hm : 0 < m) (ws : List (Addr × Byte)) :
    let w := (t.onCpu fun c => { c with f := x.flags t.core.cpu.f }).post g (t.core.now + m - 1) ws
    (t.onCpu fun c => c.setFlags x).finish g m ws = { w with core := { w.core with now := t.core.now + m } } :=
  finish_eq g hm ws _

theorem beq_one_toNat {n : Nat} (h : n ≤ 1) : (n == 1).toNat = n := by
  interval_cases n <;> rfl

theorem strings_of_stringEff {k : Tn} {cc : Cond} {i : Instr} {pd ps : Fin 4} {n1 : BitVec 4} {ci write : Bool} {f rel}
    (hf : DigitOp f rel) (hexec : ∀ s, exec i s = runCpu k cc i (stringEff pd ps n1 ci write f) s) :
    Strings k cc i pd ps n1 ci write rel := by
  refine does_of_runCpu hexec fun g t => ?_
  intro c n d r x y hread hxd hyd
  have hlen : r.2.length = n + n := by
    rw [cpuRead_length, List.length_append, addrs_length, addrs_length]
  have hcarry : (if ci then c.fC.toNat else 0) ≤ 1 := by
    split
    · exact c.fC.toNat_le
    · exact Nat.zero_le _
  let o := f ((digits x).zip (digits y)) (if ci then c.fC.toNat else 0)
  let F := stringFlags (digits x) (digits y) o.1 o.2
  have heff : stringEff pd ps n1 ci write f g t = (r.1.onCpu fun c => c.setFlags F).finish g
      (if write then 2 + 3 * n else 2 + 2 * n) (if write then d.zip (undigits o.1) else []) := stringEff_eq hread
  obtain ⟨hzlen, hzd, hco, hrel⟩ : o.1.length = 2 * n ∧ _ := digitOp_strings hf (x := x) (y := y)
    (by rw [List.length_take, hlen]; omega) (by rw [List.length_drop, hlen]; omega) hxd hyd hcarry
  have hF : F = ⟨0, _, _, _, _, _⟩ := stringFlags_eq hxd hyd hzlen hzd
  have hf : r.1.core.cpu.f = c.f := congrArg Cpu.f (t.cpuRead_cpu ..)
  have hcost : 0 < if write then 2 + 3 * n else 2 + 2 * n := by split <;> omega
  refine ⟨undigits o.1, o.2 == 1, F.flags c.f, undigits_length hzlen hzd, ?_, ?_, ?_, ?_⟩
  · rw [digitsOk_iff, digits_undigits hzlen hzd]
    exact hzd
  · rw [bcd_undigits hzlen hzd, beq_one_toNat hco]
    exact hrel
  · rw [hF]
    exact flags_of_res (x := ⟨0, _, _, _, _, _⟩) rfl
  · rw [heff, ← hf]
    exact finish_setFlags g r.1 F hcost _

theorem decimalStrings : DecimalStrings := by
  intro k cc pd ps n1 ci
  exact ⟨strings_of_stringEff digitOp_addDigits fun _ => rfl, strings_of_stringEff digitOp_subDigits fun _ => rfl,
    strings_of_stringEff digitOp_subDigits fun _ => rfl⟩

end Sys2Proof.Rule

open Sys2Proof Sys2Proof.Machine Sys2Proof.Rule

/-- Settles O10: digit by digit, each string operation relates the numbers that the strings spell. -/
theorem decimals : Obligations.Decimals := by
  unfold Obligations.Decimals
  exact ⟨decimal, decimalStrings⟩
end
